-- ==== Sys2Proof/Word.lean ====
section
/-! DEFINITION. The plainest data of the model: bytes, bay positions, host-line words, and fixed-length tables. -/

namespace Sys2Proof

/-- One byte of the oven line or of the staging partition. -/
abbrev Byte := BitVec 8

/-- One of the twelve oven positions; bay number n of the manual is position n - 1. -/
abbrev BayId := Fin 12

/-- One word of a host line, as its characters. -/
abbrev Txt := List Char

/-- The bay number 1-12 that the manual writes. -/
def bayNo (b : BayId) : Nat := b.val + 1

/-- Every bay, in ascending order. -/
def allBays : List BayId := [0, 1, 2, 3, 4, 5, 6, 7, 8, 9, 10, 11]

/-- The four staging slots, and likewise the four transfer channels, in ascending order. -/
def allFour : List (Fin 4) := [0, 1, 2, 3]

/-- The table `v` with the entry at `i` replaced by `f` of it. -/
def upd {α : Type} {n : Nat} (v : Vector α n) (i : Fin n) (f : α → α) : Vector α n := v.set i (f v[i])

/-- A fixed-length table whose every entry is `a`. -/
def table {α : Type} (n : Nat) (a : α) : Vector α n := Vector.replicate n a

end Sys2Proof
end

