-- ==== Sys2Proof/Config.lean ====
section
/-! DEFINITION. What no rule of the manual fixes: the free values. Each is a constant without a body. -/

namespace Sys2Proof

/-- FREE VALUE (assumption 6). What item `field` of the backup domain holds after loss number `loss`: R137 says that the
calendar, the flags, the rule copy and the divider are lost and gives no value before the next power-on check. -/
opaque Config.lostBackupItem (loss field : Nat) : Nat

/-- FREE VALUE (assumption 7). The millisecond count that follows the last one a 32-bit site-seconds count can hold:
R141 names the maximum and says nothing of what comes after it. -/
opaque Config.countAfterMaximum : Nat

/-- FREE VALUE (assumption 11). What the doses-seen field of a cleaning record holds where the doses counted come to `n`, more than
the 65,535 that the field can hold: R123 says that it rises by the growth and not what follows its range. -/
opaque Config.dosesBeyondRange (n : Nat) : Nat

end Sys2Proof
end

