-- ==== Sys2Proof/Syntax.lean ====
section
/-! DEFINITION. The commands of the block: one constructor of `Instr` for each row of spec/opcode_table.json, and the data
that a command carries. -/

namespace Sys2Proof

/-- The verbs of the host line that have a row of their own; the SHOW rows are told apart by their object word (R191). -/
inductive Verb where
  | commissionBegin | commissionLimits | commissionOptions | decommission | setMenu | showBay
  | recipeBegin | recipeStep | recipeCancel | recipeWithdraw | setQuick | libraryImport
  | showRecipe | showLibrary | showQuick
  | runStart | promptDone | runAbort | runClear | showRun | setDoorGrace
  | setLimit | setStandbyIdle | wake | showHeat
  | cleanStart | cleanAbort | setDetergent | showCleaning | showHygiene
  | setClock | setDst | showClock | scheduleSet | scheduleClear | showSchedule | showWindows
  | setEvent | ackEvent | forceEvent | callAccepted | callRefused | callProgress | callClose
  | techTake | techRelease | holdClear | showEvents | showCalls
  | bundleOpen | bundleChunk | bundleSeal | bundleDiscard | showSlot
  | channelSet | channelStart | channelMask | channelUnmask | channelsClear | showChannel
  | restart
deriving DecidableEq, Repr

/-- The fields of a STATUS body as R196 decodes them, before the checks and corrections of R30. Codes are kept as
the numbers received; temperatures are signed tenths of a degree. Beside them stand the microseconds that the gaps between the bytes of its
frame took together (R194, assumption 37). -/
structure StatusBody where
  doorOpen : Bool
  service : Bool
  demand : Bool
  complete : Bool
  power : Nat
  cabinet : Int
  humidity : Nat
  coreCount : Nat
  cores : List Int
  fault : Nat
  dose : Nat
  echo : Nat
  stepId : Nat
  freeBlocks : Nat
  acknowledged : Nat
  image : Nat
  panel : Nat
  gaps : Nat := 0
deriving DecidableEq, Repr

/-- The fields of an IDENTITY body as R196 lays them out, before the range checks of R7, and the microseconds that the gaps between the
bytes of its frame took together (R194, assumption 37). -/
structure IdentityBody where
  serial : List Byte
  model : Nat
  supply : Nat
  rated : Nat
  major : Nat
  minor : Nat
  points : Nat
  steam : Nat
  gaps : Nat := 0
deriving DecidableEq, Repr

/-- How far the write being performed had come when a failure or a restart cut it off (R47). Of a record write: how many of the records at and
after the written position already stood rewritten, and whether a partly written record follows them (a faulty record) or erased flash (an end
marker). Of a staging write: how many of its bytes already stood (assumption 14). Where no write was being performed it means nothing. -/
structure Cut where
  rewritten : Nat
  faulty : Bool
deriving DecidableEq, Repr

/-- The commands: one constructor per row of spec/opcode_table.json, in the table's order. A host request carries the
words that follow its verb (after its object word, for SHOW). -/
inductive Instr where
  | powerOn
  | resetPin (cut : Cut)
  | startUpLoadEnd
  | restartWritesDrained
  | restartTimeout (cut : Cut)
  | presencePresent (b : BayId)
  /-- `lead` says which of the two contacts is the closed one (R3 gives PARTIAL two forms). -/
  | presencePartial (b : BayId) (lead : Bool)
  | presenceAbsent (b : BayId)
  | settleTimerExpiry (b : BayId)
  | partialTimerExpiry (b : BayId)
  | commissionBegin (f : List Txt)
  | commissionLimits (f : List Txt)
  | commissionOptions (f : List Txt)
  | commissionDeadlineExpiry (b : BayId)
  | decommission (f : List Txt)
  | setMenu (f : List Txt)
  | showBay (f : List Txt)
  | pollCycleStart
  | pollSend
  | lostPollDue (b : BayId)
  | answerWindowClose
  | answerByteGap
  | answerFrameInvalid
  | statusRecord (r : StatusBody)
  | identityRecord (r : IdentityBody)
  | applyGraceExpiry (b : BayId)
  | storeWriteDone
  | recipeBegin (f : List Txt)
  | recipeStep (f : List Txt)
  | recipeCancel (f : List Txt)
  | loadDeadlineExpiry
  | recipeWithdraw (f : List Txt)
  | setQuick (f : List Txt)
  | libraryImport (f : List Txt)
  | importValidation
  | importRecord
  | showRecipe (f : List Txt)
  | showLibrary (f : List Txt)
  | showQuick (f : List Txt)
  | runStart (f : List Txt)
  | promptDone (f : List Txt)
  | runWakeDeadlineExpiry (b : BayId)
  | maximumTimeDeadlineExpiry (b : BayId)
  | promptDeadlineExpiry (b : BayId)
  | runDoorGraceExpiry (b : BayId)
  | runawayDeadlineExpiry (b : BayId)
  | runAbort (f : List Txt)
  | runClear (f : List Txt)
  | showRun (f : List Txt)
  | setDoorGrace (f : List Txt)
  | setLimit (f : List Txt)
  | starvationDeadlineExpiry (b : BayId)
  | setStandbyIdle (f : List Txt)
  | idleDeadlineExpiry (b : BayId)
  | wake (f : List Txt)
  | showHeat (f : List Txt)
  | cleanStart (f : List Txt)
  | phaseDurationEnd (b : BayId)
  | overrunDeadlineExpiry (b : BayId)
  | cleanWakeDeadlineExpiry (b : BayId)
  | coolingDeadlineExpiry (b : BayId)
  | cleanDoorGraceExpiry (b : BayId)
  | cleanAbort (f : List Txt)
  | setDetergent (f : List Txt)
  | showCleaning (f : List Txt)
  | showHygiene (f : List Txt)
  | clockUpdate
  | setClock (f : List Txt)
  | setDst (f : List Txt)
  | showClock (f : List Txt)
  | scheduleSet (f : List Txt)
  | scheduleClear (f : List Txt)
  | showSchedule (f : List Txt)
  | showWindows (f : List Txt)
  | closeDeadlineExpiry (e : Fin 24)
  | setEvent (f : List Txt)
  | ackEvent (f : List Txt)
  | forceEvent (f : List Txt)
  | callAccepted (f : List Txt)
  | callRefused (f : List Txt)
  | laneTimerExpiry (l : Fin 2)
  | callProgress (f : List Txt)
  | escalationDeadlineExpiry (call : Nat)
  | callClose (f : List Txt)
  | techTake (f : List Txt)
  | techRelease (f : List Txt)
  | holdClear (f : List Txt)
  | showEvents (f : List Txt)
  | showCalls (f : List Txt)
  | bundleOpen (f : List Txt)
  | bundleChunk (f : List Txt)
  | bundleSeal (f : List Txt)
  | bundleSealDone (k : Fin 4)
  | bundleDiscard (f : List Txt)
  | showSlot (f : List Txt)
  | channelSet (f : List Txt)
  | channelStart (f : List Txt)
  | acknowledgementDeadlineExpiry (c : Fin 4)
  | offerDeadlineExpiry (c : Fin 4)
  | channelMask (f : List Txt)
  | channelUnmask (f : List Txt)
  | channelsClear (f : List Txt)
  | showChannel (f : List Txt)
  | restart (f : List Txt)
  | malformedLine
  | overlongLine
  | emptyLine
  | lostLine
  /-- All the words of a line that no other row's verb (and object) names. -/
  | unknownVerb (words : List Txt)
  | replySent
  | noticeSent
  | powerFailure (cut : Cut)
  | vbakLoss
deriving DecidableEq, Repr

end Sys2Proof
end

