-- ==== Sys2Proof/Decode.lean ====
section
/-! DEFINITION. Reading: the table's words (no row has bits), the host's lines (R185, R187), and the oven line's answers
(R23, R194, R196). -/

namespace Sys2Proof

/-- No row of spec/opcode_table.json gives bits, so no word spells a command. -/
def decodeTableWord (_nbits _w : Nat) : Option Instr := none

/-! ## The host's lines -/

/-- The verb as a request line writes it. -/
def Verb.word : Verb → String
  | .commissionBegin => "COMMISSION-BEGIN"
  | .commissionLimits => "COMMISSION-LIMITS"
  | .commissionOptions => "COMMISSION-OPTIONS"
  | .decommission => "DECOMMISSION"
  | .setMenu => "SET-MENU"
  | .showBay => "SHOW"
  | .recipeBegin => "RECIPE-BEGIN"
  | .recipeStep => "RECIPE-STEP"
  | .recipeCancel => "RECIPE-CANCEL"
  | .recipeWithdraw => "RECIPE-WITHDRAW"
  | .setQuick => "SET-QUICK"
  | .libraryImport => "LIBRARY-IMPORT"
  | .showRecipe => "SHOW"
  | .showLibrary => "SHOW"
  | .showQuick => "SHOW"
  | .runStart => "RUN-START"
  | .promptDone => "PROMPT-DONE"
  | .runAbort => "RUN-ABORT"
  | .runClear => "RUN-CLEAR"
  | .showRun => "SHOW"
  | .setDoorGrace => "SET-DOOR-GRACE"
  | .setLimit => "SET-LIMIT"
  | .setStandbyIdle => "SET-STANDBY-IDLE"
  | .wake => "WAKE"
  | .showHeat => "SHOW"
  | .cleanStart => "CLEAN-START"
  | .cleanAbort => "CLEAN-ABORT"
  | .setDetergent => "SET-DETERGENT"
  | .showCleaning => "SHOW"
  | .showHygiene => "SHOW"
  | .setClock => "SET-CLOCK"
  | .setDst => "SET-DST"
  | .showClock => "SHOW"
  | .scheduleSet => "SCHEDULE-SET"
  | .scheduleClear => "SCHEDULE-CLEAR"
  | .showSchedule => "SHOW"
  | .showWindows => "SHOW"
  | .setEvent => "SET-EVENT"
  | .ackEvent => "ACK-EVENT"
  | .forceEvent => "FORCE-EVENT"
  | .callAccepted => "CALL-ACCEPTED"
  | .callRefused => "CALL-REFUSED"
  | .callProgress => "CALL-PROGRESS"
  | .callClose => "CALL-CLOSE"
  | .techTake => "TECH-TAKE"
  | .techRelease => "TECH-RELEASE"
  | .holdClear => "HOLD-CLEAR"
  | .showEvents => "SHOW"
  | .showCalls => "SHOW"
  | .bundleOpen => "BUNDLE-OPEN"
  | .bundleChunk => "BUNDLE-CHUNK"
  | .bundleSeal => "BUNDLE-SEAL"
  | .bundleDiscard => "BUNDLE-DISCARD"
  | .showSlot => "SHOW"
  | .channelSet => "CHANNEL-SET"
  | .channelStart => "CHANNEL-START"
  | .channelMask => "CHANNEL-MASK"
  | .channelUnmask => "CHANNEL-UNMASK"
  | .channelsClear => "CHANNELS-CLEAR"
  | .showChannel => "SHOW"
  | .restart => "RESTART"

/-- The object word that tells a SHOW row from the others (R191); absent for every other verb. -/
def Verb.object : Verb → Option String
  | .showBay => some "BAY"
  | .showRecipe => some "RECIPE"
  | .showLibrary => some "LIBRARY"
  | .showQuick => some "QUICK"
  | .showRun => some "RUN"
  | .showHeat => some "HEAT"
  | .showCleaning => some "CLEANING"
  | .showHygiene => some "HYGIENE"
  | .showClock => some "CLOCK"
  | .showSchedule => some "SCHEDULE"
  | .showWindows => some "WINDOWS"
  | .showEvents => some "EVENTS"
  | .showCalls => some "CALLS"
  | .showSlot => some "SLOT"
  | .showChannel => some "CHANNEL"
  | _ => none

/-- Every verb that has a row, in the table's order. -/
def Verb.all : List Verb :=
  [.commissionBegin, .commissionLimits, .commissionOptions, .decommission, .setMenu, .showBay, .recipeBegin, .recipeStep,
   .recipeCancel, .recipeWithdraw, .setQuick, .libraryImport, .showRecipe, .showLibrary, .showQuick, .runStart,
   .promptDone, .runAbort, .runClear, .showRun, .setDoorGrace, .setLimit, .setStandbyIdle, .wake,
   .showHeat, .cleanStart, .cleanAbort, .setDetergent, .showCleaning, .showHygiene, .setClock, .setDst,
   .showClock, .scheduleSet, .scheduleClear, .showSchedule, .showWindows, .setEvent, .ackEvent, .forceEvent,
   .callAccepted, .callRefused, .callProgress, .callClose, .techTake, .techRelease, .holdClear, .showEvents,
   .showCalls, .bundleOpen, .bundleChunk, .bundleSeal, .bundleDiscard, .showSlot, .channelSet, .channelStart,
   .channelMask, .channelUnmask, .channelsClear, .showChannel, .restart]

/-- The row of a request: the command that a line of this verb with these fields is. -/
def Verb.command (f : List Txt) : Verb → Instr
  | .commissionBegin => .commissionBegin f
  | .commissionLimits => .commissionLimits f
  | .commissionOptions => .commissionOptions f
  | .decommission => .decommission f
  | .setMenu => .setMenu f
  | .showBay => .showBay f
  | .recipeBegin => .recipeBegin f
  | .recipeStep => .recipeStep f
  | .recipeCancel => .recipeCancel f
  | .recipeWithdraw => .recipeWithdraw f
  | .setQuick => .setQuick f
  | .libraryImport => .libraryImport f
  | .showRecipe => .showRecipe f
  | .showLibrary => .showLibrary f
  | .showQuick => .showQuick f
  | .runStart => .runStart f
  | .promptDone => .promptDone f
  | .runAbort => .runAbort f
  | .runClear => .runClear f
  | .showRun => .showRun f
  | .setDoorGrace => .setDoorGrace f
  | .setLimit => .setLimit f
  | .setStandbyIdle => .setStandbyIdle f
  | .wake => .wake f
  | .showHeat => .showHeat f
  | .cleanStart => .cleanStart f
  | .cleanAbort => .cleanAbort f
  | .setDetergent => .setDetergent f
  | .showCleaning => .showCleaning f
  | .showHygiene => .showHygiene f
  | .setClock => .setClock f
  | .setDst => .setDst f
  | .showClock => .showClock f
  | .scheduleSet => .scheduleSet f
  | .scheduleClear => .scheduleClear f
  | .showSchedule => .showSchedule f
  | .showWindows => .showWindows f
  | .setEvent => .setEvent f
  | .ackEvent => .ackEvent f
  | .forceEvent => .forceEvent f
  | .callAccepted => .callAccepted f
  | .callRefused => .callRefused f
  | .callProgress => .callProgress f
  | .callClose => .callClose f
  | .techTake => .techTake f
  | .techRelease => .techRelease f
  | .holdClear => .holdClear f
  | .showEvents => .showEvents f
  | .showCalls => .showCalls f
  | .bundleOpen => .bundleOpen f
  | .bundleChunk => .bundleChunk f
  | .bundleSeal => .bundleSeal f
  | .bundleDiscard => .bundleDiscard f
  | .showSlot => .showSlot f
  | .channelSet => .channelSet f
  | .channelStart => .channelStart f
  | .channelMask => .channelMask f
  | .channelUnmask => .channelUnmask f
  | .channelsClear => .channelsClear f
  | .showChannel => .showChannel f
  | .restart => .restart f

/-- A printable character, 20h-7Eh (R185). -/
def printable (c : Char) : Bool := 0x20 ≤ c.toNat && c.toNat ≤ 0x7E

/-- The words of a line, separated by one or more spaces; spaces before the first and after the last are ignored
(R187). -/
def splitWords : List Char → List Txt
  | [] => []
  | c :: rest =>
    if c = ' ' then splitWords rest
    else match rest, splitWords rest with
      | d :: _, w :: ws => if d = ' ' then [c] :: w :: ws else (c :: w) :: ws
      | _, ws => [c] :: ws

/-- The command of a line's words: the first word is compared with the verbs exactly, and the word after SHOW with the
objects. -/
def readWords (words : List Txt) : Instr :=
  match words with
  | [] => .emptyLine
  | w :: rest =>
    match Verb.all.find? (fun v => v.object.isNone && v.word.toList == w) with
    | some v => v.command rest
    | none =>
      match rest with
      | o :: fields =>
        match Verb.all.find? (fun v => v.word.toList == w && v.object.map String.toList == some o) with
        | some v => v.command fields
        | none => .unknownVerb words
      | [] => .unknownVerb words

/-- R185: the command that a received line is, from its characters up to its LF (LF left out) and whether a character of it had
a framing error. -/
def readLine (received : List Byte) (framingError : Bool) : Instr :=
  let line := (received.map (fun x => Char.ofNat x.toNat)).filter (fun c => c ≠ '\r')
  if 512 < line.length then .overlongLine
  else if framingError || line.any (fun c => !printable c) then .malformedLine
  else readWords (splitWords line)

/-! ## The oven line's answers -/

/-- One bit of the CRC-16 of R23. -/
def crc16Bit (c : BitVec 16) : BitVec 16 := if c.msb then (c <<< 1) ^^^ 0x1021#16 else c <<< 1

/-- The CRC-16 after one more byte. -/
def crc16Byte (c : BitVec 16) (x : Byte) : BitVec 16 :=
  let d := c ^^^ ((x.setWidth 16) <<< 8)
  crc16Bit (crc16Bit (crc16Bit (crc16Bit (crc16Bit (crc16Bit (crc16Bit (crc16Bit d)))))))

/-- The CRC-16 of R23: polynomial 1021h, initial value FFFFh, no reflection and no final inversion. -/
def crc16 (l : List Byte) : BitVec 16 := l.foldl crc16Byte 0xFFFF#16

/-- A number sent with its most significant byte first. -/
def bigEndian (l : List Byte) : Nat := l.foldl (fun n x => n * 256 + x.toNat) 0

/-- The `n` bytes at offset `at0`. -/
def slice (l : List Byte) (at0 n : Nat) : List Byte := (l.drop at0).take n

/-- A one-byte field. -/
def byteAt (l : List Byte) (at0 : Nat) : Nat := bigEndian (slice l at0 1)

/-- A two-byte field. -/
def wordAt (l : List Byte) (at0 : Nat) : Nat := bigEndian (slice l at0 2)

/-- A temperature: two bytes in two's complement, tenths of a degree. -/
def tempAt (l : List Byte) (at0 : Nat) : Int :=
  let n := wordAt l at0
  if n < 32768 then (n : Int) else (n : Int) - 65536

/-- A bit of a byte. -/
def bitAt (n i : Nat) : Bool := n / 2 ^ i % 2 = 1

/-- The STATUS body of R196. -/
def readStatus (body : List Byte) : StatusBody :=
  let flags := byteAt body 0
  { doorOpen := bitAt flags 0, service := bitAt flags 1, demand := bitAt flags 2, complete := bitAt flags 3,
    power := byteAt body 1, cabinet := tempAt body 2, humidity := byteAt body 4, coreCount := byteAt body 5,
    cores := [tempAt body 6, tempAt body 8, tempAt body 10, tempAt body 12, tempAt body 14, tempAt body 16],
    fault := byteAt body 18, dose := wordAt body 19, echo := byteAt body 21, stepId := byteAt body 22,
    freeBlocks := byteAt body 23, acknowledged := bigEndian (slice body 24 3), image := byteAt body 27,
    panel := byteAt body 28 }

/-- The IDENTITY body of R196. -/
def readIdentity (body : List Byte) : IdentityBody :=
  { serial := slice body 0 8, model := byteAt body 8, supply := byteAt body 9, rated := wordAt body 10,
    major := byteAt body 12, minor := byteAt body 13, points := byteAt body 14, steam := byteAt body 15 }

/-- A value that R30 and R196 call malformed: the power state, the core point count, the acknowledged offset, the image state
or the panel request. -/
def StatusBody.malformed (r : StatusBody) : Bool :=
  decide (2 < r.power) || decide (6 < r.coreCount) || decide (524288 < r.acknowledged) || decide (4 < r.image) ||
    (decide (15 < r.panel) && r.panel != 0xFF)

/-- R194: the command that a complete answer to a poll of bay number `polled` is. Its CRC is judged first, then its bay, its kind,
its body length, and last its fields. Absent while bytes are still to come. `gaps` is the microseconds that the gaps between its bytes took. -/
def readAnswer (polled : Nat) (frame : List Byte) (gaps : Nat) : Option Instr :=
  let len := wordAt frame 2
  if frame.length < 4 || frame.length < 6 + len then none
  else
    let body := slice frame 4 len
    let kind := byteAt frame 1
    if (crc16 (frame.take (4 + len))).toNat ≠ wordAt frame (4 + len) then some .answerFrameInvalid
    else if byteAt frame 0 ≠ polled then some .answerFrameInvalid
    else if kind = 0x81 then
      if len ≠ 29 || (readStatus body).malformed then some .answerFrameInvalid else some (.statusRecord { readStatus body with gaps := gaps })
    else if kind = 0x82 then
      if len ≠ 16 then some .answerFrameInvalid else some (.identityRecord { readIdentity body with gaps := gaps })
    else some .answerFrameInvalid

end Sys2Proof
end

