-- ==== Sys2Proof/Machine/State.lean ====
section
/-! DEFINITION. The state of the KS-612 as plain data, block by block as the manual's block diagram divides it, and the
state right after a power-on. -/

namespace Sys2Proof.Machine

open Sys2Proof

/-! ## Counting -/

/-- Time counted with interruptions: what has been counted, and the millisecond count at which the present stretch
began while it is being counted. -/
structure Stopwatch where
  done : Nat
  since : Option Nat
deriving DecidableEq, Repr

/-! ## Bay Registry (R1-R22) -/

inductive Presence where
  | absent | partly | present
deriving DecidableEq, Repr

inductive BayState where
  | empty | settling | interrogating | uncommissioned | commissioning | ready | refused | lost
deriving DecidableEq, Repr

/-- The cause words of the BAY notice (R2). -/
inductive BayCause where
  | present | partly | absent | settled | answered | new | matched | supply | expired | begin | commissioned
  | abandoned | decommissioned
deriving DecidableEq, Repr

inductive Activity where
  | nothing | cook | clean | update
deriving DecidableEq, Repr

inductive Power where
  | on | standby | off
deriving DecidableEq, Repr

inductive Water where
  | soft | medium | hard
deriving DecidableEq, Repr

/-- A menu window: a (base, limit) pair of recipe numbers. -/
structure MenuWindow where
  base : Nat
  limit : Nat
deriving DecidableEq, Repr

/-- What an oven says of itself; powers in tenths of a kilowatt, firmware as major × 100 + minor. -/
structure Identity where
  serial : Txt
  model : Nat
  supply : Nat
  rated : Nat
  firmware : Nat
  points : Nat
  steam : Bool
deriving DecidableEq, Repr

/-- The circuit and site settings given at commissioning; the ceiling in tenths of a degree. -/
structure Provision where
  supply : Nat
  circuitMax : Nat
  water : Water
  ceiling : Int
  standby : Bool
  detergent : Bool
deriving DecidableEq, Repr

/-- The commission record of a bay position. The provision and the menu windows of the bay record are present exactly
when it is, so the bay keeps the three together. -/
structure Commission where
  serial : Txt
  prov : Provision
  win1 : MenuWindow
  win2 : MenuWindow
deriving DecidableEq, Repr

inductive CommMessage where
  | limits | options
deriving DecidableEq, Repr

/-- The commissioning context (R12-R15); the deadline in site seconds. -/
structure CommContext where
  supply : Nat
  circuitMax : Nat
  water : Water
  limitsFollow : Bool
  optionsFollow : Bool
  limits : Option (Int × Bool)
  options : Option (MenuWindow × MenuWindow × Bool)
  next : CommMessage
  before : BayState
  deadline : Nat
deriving DecidableEq, Repr

/-- The Registry's part of a bay record, with its settle and partial timers (millisecond deadlines). `settled` says
that the settle timer expired before the start-up load ended (R4). -/
structure RegBay where
  presence : Presence
  state : BayState
  identity : Option Identity
  commission : Option Commission
  activity : Activity
  power : Power
  settleDue : Option Nat
  partialDue : Option Nat
  settled : Bool
  pollCount : Nat
  stepCheck : Bool
  context : Option CommContext
deriving DecidableEq, Repr

/-- The two presence contacts of a bay as the LEAD and SEAT inputs read them. -/
structure Contacts where
  lead : Bool
  seat : Bool
deriving DecidableEq, Repr

/-! ## Refusal reasons -/

/-- The reason words of replies (R188); PANEL-DENY and the refused-panel notices use some of them. -/
inductive Reason where
  | syntaxError | unknown | range | state | busy | sequence | full | absent | menu | firmware | probe | hygiene | held
  | off | detergent | stale | inUse | starting
deriving DecidableEq, Repr

/-! ## Oven Line Controller (R23-R41, R194-R196) -/

inductive StepKind where
  | preheat | hotAir | steam | combi
deriving DecidableEq, Repr

inductive PhaseKind where
  | cool | wash | rinse | dry
deriving DecidableEq, Repr

/-- An order without its id. A STEP of mode OFF (the idle STEP) has no step kind. -/
inductive OrderBody where
  | identify
  | safe
  | step (run index : Nat) (mode : Option StepKind) (setpoint : Int) (humidity fan : Nat)
  | setpoint (t : Int)
  | heatAllow (n : Nat)
  | power (toStandby : Bool)
  | cleanPhase (phase : PhaseKind) (seconds doses : Nat)
  | block (offset : Nat) (bytes : List Byte)
  | applyOffer (crc revision : Nat)
  | applyGo
  | discardImage
  | panelDeny (r : Reason)
deriving DecidableEq, Repr

/-- A queued order: its id, its content, and whether some poll has carried it (R27). -/
structure Order where
  id : Nat
  body : OrderBody
  delivered : Bool
deriving DecidableEq, Repr

/-- What the producer records when its order is placed. -/
inductive Note where
  | plain | step | cleanPhase | discard (c : Fin 4) | applyGo
deriving DecidableEq, Repr

/-- An order its producer holds for want of space (R35). -/
structure HeldOrder where
  body : OrderBody
  note : Note
deriving DecidableEq, Repr

/-- The line's records of one bay. `grace` is the apply-grace deadline in site seconds; `lostFrom` is the millisecond
from which the next LOST poll is timed and `lostDue` says that the ten seconds have passed (R25). -/
structure LineBay where
  queue : List Order
  held : List HeldOrder
  nextId : Nat
  misses : Nat
  grace : Option Nat
  lostFrom : Nat
  lostDue : Bool
deriving DecidableEq, Repr

/-- How the exchange on the line stands: its answer awaited, spoilt (it counts as no answer), or taken. -/
inductive Answer where
  | awaited | spoilt | taken
deriving DecidableEq, Repr

/-- The exchange of the last poll sent: the polled bay, the carried list, whether the poll was one of a LOST bay (R25), the end of the answer
limit as a point of the microsecond count (R23), and how its answer stands. -/
structure Exchange where
  bay : BayId
  carried : List Order
  wasLost : Bool
  limit : Nat
  answer : Answer
deriving DecidableEq, Repr

/-- The line controller: `cursor` counts the bays the cycle has passed (12 when its regular polls are over), `boundary` is
the millisecond at which the next cycle starts, `extraAfter` the bay that had the last extra poll, `extraOver` that
the cycle makes no more extra polls. -/
structure LineCtl where
  bays : Vector LineBay 12
  exchange : Option Exchange
  cursor : Nat
  boundary : Nat
  extraAfter : Option BayId
  extraOver : Bool
deriving DecidableEq, Repr

/-! ## Recipe Library (R48-R63) -/

inductive Control where
  | fixed | delta
deriving DecidableEq, Repr

/-- How a step ends; temperatures in tenths, time in seconds, the credit target in °C·min. -/
inductive StepEnd where
  | time (seconds : Nat)
  | core (target : Int)
  | coreHold (target base : Int) (credit : Nat)
deriving DecidableEq, Repr

structure Step where
  kind : StepKind
  control : Control
  target : Int
  delta : Int
  humidity : Nat
  fan : Nat
  fin : StepEnd
  maximum : Nat
  prompt : Bool
deriving DecidableEq, Repr

/-- A revision's own header fields and its steps. -/
structure Revision where
  revision : Nat
  name : Txt
  soilClass : Nat
  minFirmware : Nat
  probe : Bool
  steps : List Step
deriving DecidableEq, Repr

structure Retired where
  rev : Revision
  pins : Nat
deriving DecidableEq, Repr

/-- An index entry. -/
structure Entry where
  number : Nat
  cur : Revision
  pins : Nat
  retired : Option Retired
  withdrawn : Bool
deriving DecidableEq, Repr

/-- The open load: the header received (its `steps` hold the steps taken so far), the step count, the next expected
step, and the deadline in site seconds. -/
structure Load where
  number : Nat
  head : Revision
  count : Nat
  next : Nat
  deadline : Nat
deriving DecidableEq, Repr

/-- A record of a recipe set. -/
structure BundleRecord where
  number : Nat
  rev : Revision
deriving DecidableEq, Repr

/-- The running import: its slot and, once validation and reservation have passed, the records still to be taken. -/
structure Import where
  slot : Fin 4
  rest : Option (List BundleRecord)
  installed : Nat
  stale : Nat
  busy : Nat
deriving DecidableEq, Repr

structure Library where
  index : List Entry
  free : Nat
  reserved : Nat
  load : Option Load
  job : Option Import
  quick : Vector Nat 15
deriving DecidableEq, Repr

/-! ## Run Engine and Probe Arithmetic Unit (R64-R100) -/

inductive RunState where
  | starting | running | prompting | paused | done | aborted
deriving DecidableEq, Repr

inductive RunReason where
  | nothing | noWake | powerOff | coreNotReached | promptTimeout | doorTimeout | runaway | host | held
  | ovenRemoved | ovenLost
deriving DecidableEq, Repr

/-- The previous sample of the arithmetic: the effective core and its arrival time in milliseconds. -/
structure Sample where
  core : Int
  time : Nat
deriving DecidableEq, Repr

/-- A run record (R64) with the arithmetic state kept beside it (R89). `rev` is the pinned revision. `resume` is
meant while PAUSED. `reorder` says that the STEP awaited is the same step ordered again (R71). `prompt` is
(door-open seen, deadline). Stamps and deadlines are in site seconds; `pausedAt` is the start of the present pause. -/
structure Run where
  id : Nat
  number : Nat
  rev : Revision
  state : RunState
  resume : RunState
  stepIndex : Nat
  accepted : Bool
  orderedId : Option Nat
  reorder : Bool
  setpoint : Int
  clamped : Bool
  elapsed : Stopwatch
  pauseTotal : Nat
  pausedAt : Nat
  coreReached : Option Nat
  credit : Nat
  rate : Option Int
  estimate : Option Nat
  reported : Option Nat
  probeLost : Bool
  prompt : Option (Bool × Nat)
  wakeDue : Option Nat
  graceDue : Option Nat
  maxDue : Option Nat
  runawaySince : Option Nat
  runawayDue : Option Nat
  reason : RunReason
  admitted : Nat
  started : Option Nat
  ended : Option Nat
  soilAdded : Nat
  sample : Option Sample
  latestCore : Option Int
deriving DecidableEq, Repr

structure RunEngine where
  runs : Vector (Option Run) 12
  nextId : Nat
  doorGrace : Nat
deriving DecidableEq, Repr

/-! ## Heat Share Allocator (R101-R115) -/

inductive HeatClass where
  | core | cook | clean | idle
deriving DecidableEq, Repr

/-- The allocation record of a bay. `prevDoor` is the door position of the previous status record (yes for OPEN);
`due` the schedule entries that the look-ahead found due. -/
structure HeatBay where
  allowance : Nat
  cls : Option HeatClass
  demand : Bool
  sent : Option Nat
  zeroSince : Option Nat
  starvedReported : Bool
  starveDue : Option Nat
  idleRef : Option Nat
  standbyRequested : Bool
  prevDoor : Option Bool
  due : List (Fin 24)
deriving DecidableEq, Repr

/-- The rotation pointers: for each class the bay that last received a leftover sixteenth. -/
structure Pointers where
  core : BayId
  cook : BayId
  clean : BayId
  idle : BayId
deriving DecidableEq, Repr

/-- The Allocator: the site limit in tenths of a kilowatt, the standby idle time in minutes. -/
structure Allocator where
  bays : Vector HeatBay 12
  limit : Nat
  idleTime : Nat
  ptr : Pointers
deriving DecidableEq, Repr

/-! ## Cleaning Sequencer (R116-R134) -/

inductive Program where
  | rinse | light | medium | strong
deriving DecidableEq, Repr

/-- Who started a cleaning; WINDOW carries the schedule entry. -/
inductive Origin where
  | host | panel | window (e : Fin 24)
deriving DecidableEq, Repr

inductive CleanState where
  | requested | cooling | washing | rinsing | drying | done | cancelled | interrupted | failed
deriving DecidableEq, Repr

inductive CleanOutcome where
  | nothing | complete | aborted | failed
deriving DecidableEq, Repr

inductive CleanReason where
  | nothing | host | doseFailure | phaseTimeout | coolTimeout | noWake | doorTimeout | powerOff | ovenRemoved
  | ovenLost | held
deriving DecidableEq, Repr

/-- A cleaning record. `forced` holds the outcome and reason that a forced rinse stored; `phaseTime` counts the phase
elapsed and `coolTime` the unpaused time since entry to COOLING; `overrunAt` is a point of `phaseTime` in milliseconds. -/
structure CleanRec where
  program : Program
  origin : Origin
  state : CleanState
  forced : Option (CleanOutcome × CleanReason)
  orderedId : Option Nat
  accepted : Bool
  phaseTime : Stopwatch
  complete : Bool
  graceDue : Option Nat
  paused : Bool
  dosesSeen : Nat
  dispensed : Bool
  wakeDue : Option Nat
  coolTime : Stopwatch
  overrunAt : Option Nat
  outcome : CleanOutcome
  reason : CleanReason
  started : Nat
  ended : Option Nat
deriving DecidableEq, Repr

structure PendingClean where
  program : Program
  entry : Fin 24
  threshold : Nat
deriving DecidableEq, Repr

structure Hygiene where
  soil : Nat
  rinseOwed : Bool
  detergent : Nat
deriving DecidableEq, Repr

/-- The Sequencer's records of one bay; `cabinet` is the cabinet temperature of the bay's most recent status record. -/
structure CleanBay where
  record : Option CleanRec
  pendingWindow : Option PendingClean
  hygiene : Hygiene
  baseline : Option Nat
  cabinet : Option Int
deriving DecidableEq, Repr

/-! ## Site Clock and Schedule Table (R135-R147) -/

structure Calendar where
  year : Nat
  month : Nat
  day : Nat
  hour : Nat
  minute : Nat
  second : Nat
  weekday : Nat
deriving DecidableEq, Repr

structure DstRule where
  enabled : Bool
  startMonth : Nat
  startNth : Nat
  startHour : Nat
  endMonth : Nat
  endNth : Nat
  endHour : Nat
deriving DecidableEq, Repr

/-- The backup domain. `losses` counts the losses so far (the model's own, it indexes the free values). -/
structure Backup where
  cal : Calendar
  valid : Bool
  inDst : Bool
  secondPass : Bool
  rule : DstRule
  divider : Nat
  lossSeen : Bool
  losses : Nat
deriving DecidableEq, Repr

inductive WindowKind where
  | clean | update | prestart
deriving DecidableEq, Repr

/-- A schedule entry; ANY is the absent value, `program` is absent for NONE. -/
structure SchedEntry where
  kind : WindowKind
  mask : List BayId
  weekday : Option Nat
  hour : Option Nat
  minute : Option Nat
  duration : Nat
  program : Option Program
  threshold : Nat
  enabled : Bool
deriving DecidableEq, Repr

/-- A record of the open-window list, times in site seconds. -/
structure OpenWindow where
  entry : Fin 24
  kind : WindowKind
  mask : List BayId
  program : Option Program
  threshold : Nat
  opened : Nat
  closes : Nat
deriving DecidableEq, Repr

structure Schedule where
  entries : Vector (Option SchedEntry) 24
  windows : List OpenWindow
deriving DecidableEq, Repr

/-! ## Service Monitor (R148-R166) -/

inductive EventKind where
  | lineExpired | presencePartial | supplyMismatch | ovenFault | doorTimeout | probeLost | coreNotReached | tempRunaway
  | starved | cleanDue | cleanFailed | cleanWindowMissed | detergentLow | updateFailed | commissionAbandoned | rinseOwed
deriving DecidableEq, Repr

inductive CallRoute where
  | notice | call
deriving DecidableEq, Repr

structure EventSetting where
  severity : Nat
  route : CallRoute
  enabled : Bool
deriving DecidableEq, Repr

/-- A latch; `forced` is the origin, `code` is meant for OVEN_FAULT, `owed` is the call-owed mark. -/
structure Latch where
  set : Bool
  time : Nat
  forced : Bool
  code : Nat
  owed : Bool
deriving DecidableEq, Repr

inductive HoldKind where
  | nothing | technician | automation
deriving DecidableEq, Repr

/-- The Monitor's records of one bay; `code` is the latest fault code while OVEN_FAULT is true. `service` is the previous
local mode (yes for SERVICE). -/
structure MonBay where
  latches : Vector Latch 16
  conds : Vector Bool 16
  code : Nat
  service : Option Bool
  takeDeferred : Bool
  hold : HoldKind
  releasePending : Bool
  causes : List Nat
deriving DecidableEq, Repr

inductive CallState where
  | waiting | dispatched | acknowledged | onSite
deriving DecidableEq, Repr

/-- An open call. The fault codes are present for OVEN_FAULT only. -/
structure Call where
  id : Nat
  bay : BayId
  kind : EventKind
  severity : Nat
  raisedCode : Option Nat
  latestCode : Option Nat
  raised : Nat
  state : CallState
  lane : Option (Fin 2)
  number : Nat
  timeouts : Nat
  level : Nat
  deadline : Option Nat
deriving DecidableEq, Repr

/-- A lane's call and lane timer (site seconds). -/
structure Lane where
  call : Nat
  due : Nat
deriving DecidableEq, Repr

structure Monitor where
  settings : Vector EventSetting 16
  bays : Vector MonBay 12
  calls : List Call
  lanes : Vector (Option Lane) 2
  nextCall : Nat
  lastBay : BayId
deriving DecidableEq, Repr

/-! ## Update Distributor (R167-R184) -/

inductive SlotState where
  | free | filling | sealing | verified | corrupt
deriving DecidableEq, Repr

inductive BundleKind where
  | firmware | recipes
deriving DecidableEq, Repr

/-- The persisted part of a slot header. -/
structure Header where
  state : SlotState
  kind : BundleKind
  target : Nat
  revision : Nat
  length : Nat
  crc : Nat
deriving DecidableEq, Repr

structure Slot where
  header : Header
  fill : Nat
  computed : Option Nat
  users : Nat
deriving DecidableEq, Repr

inductive ChannelState where
  | idle | armed | running | done
deriving DecidableEq, Repr

inductive FailReason where
  | model | state | held | noAck | image | noOffer | rolledBack | noReturn | removed | cleared
deriving DecidableEq, Repr

inductive Progress where
  | notTarget | pending | deferred | transferring | applying | done | failed (r : FailReason) | missed
deriving DecidableEq, Repr

/-- A delivered block that is not yet acknowledged: the image offset of its end and its delivery time (milliseconds). -/
structure Delivered where
  stop : Nat
  time : Nat
deriving DecidableEq, Repr

/-- A transfer channel. `discardId` is the id of the transfer's DISCARD-IMAGE and `discardTaken` that its acceptance has
been reported; `window` is the receive window last used; `lastEnd` is the end of the last delivered block;
`missSince` that a miss was counted since the last delivery; `ackDue` is in milliseconds, `offerDue` in site seconds. -/
structure Channel where
  state : ChannelState
  masked : Bool
  slot : Fin 4
  group : List BayId
  demand : Bool
  windowRequired : Bool
  current : Option BayId
  offset : Nat
  acked : Nat
  misses : Nat
  progress : Vector Progress 12
  discardId : Option Nat
  discardTaken : Bool
  window : Nat
  delivered : List Delivered
  lastEnd : Nat
  missSince : Bool
  ackDue : Option Nat
  offerDue : Option Nat
deriving DecidableEq, Repr

structure Distributor where
  slots : Vector Slot 4
  channels : Vector Channel 4
deriving DecidableEq, Repr

/-! ## Site Store Controller (R42-R47) -/

inductive Partition where
  | profile | hygiene | library | headers
deriving DecidableEq, Repr

/-- A record of one of the four record lists, with the key where its kind has one. -/
inductive StoreRec where
  | site (limit doorGrace idleTime : Nat)
  | quick (numbers : Vector Nat 15)
  | event (k : Fin 16) (e : EventSetting)
  | dst (r : DstRule)
  | sched (n : Fin 24) (e : SchedEntry)
  | commission (b : BayId) (c : Commission)
  | hold (b : BayId) (k : HoldKind) (releasePending : Bool)
  | hygiene (b : BayId) (h : Hygiene)
  | recipe (number : Nat) (r : Revision)
  | header (k : Fin 4) (h : Header)
deriving DecidableEq, Repr

/-- A record list as the flash holds it: its readable records in order, and whether a faulty record stands after them
in place of the end marker. -/
structure RecordList where
  recs : List StoreRec
  faulty : Bool
deriving DecidableEq, Repr

/-- A write request: a record write by the position of its record (new contents, or none for its removal), the erase of
a slot's region, or staging bytes. -/
inductive Write where
  | record (p : Partition) (pos : Nat) (content : Option StoreRec)
  | erase (k : Fin 4)
  | bytes (k : Fin 4) (offset : Nat) (data : List Byte)
deriving DecidableEq, Repr

/-- The store: its four record lists, the STAGING partition as the canonical list of (address, byte) pairs that differ from
the erased value, the write being performed, and the writes that wait. -/
structure Store where
  profile : RecordList
  hygiene : RecordList
  library : RecordList
  headers : RecordList
  staging : List Host.Cell
  performing : Option Write
  waiting : List Write
deriving DecidableEq, Repr

/-! ## Host Link (R185-R193) -/

/-- A field of a reply or of a notice. -/
inductive Tok where
  | num (n : Nat)
  | int (z : Int)
  | tenths (z : Int)
  | hex8 (n : Nat)
  | yn (b : Bool)
  | word (w : String)
  | txt (w : Txt)
  | bays (l : List BayId)
  /-- The separator of groups, ` ; ` (R191). -/
  | sep
deriving DecidableEq, Repr

/-- What a refusal carries in the verb's place: the verb as written, `?`, or the first word of a line that came before
the start-up load had ended. -/
inductive Head where
  | verb (v : Verb)
  | show
  | unjudged
  | firstWord (w : Txt)
deriving DecidableEq, Repr

inductive Reply where
  | ok (v : Verb) (fields : List Tok)
  | no (h : Head) (r : Reason) (fields : List Tok)
deriving DecidableEq, Repr

inductive NoticeKind where
  | startup | bay | event | callDispatch | escalated | callEnd | runStep | runEnd | cleanEnd | windowOpen | windowClose
  | bundleResult | transfer | importResult | overflow
deriving DecidableEq, Repr

structure Notice where
  kind : NoticeKind
  time : Nat
  fields : List Tok
deriving DecidableEq, Repr

/-- A complete line in the input line buffer. -/
inductive InLine where
  | request (v : Verb) (f : List Txt)
  | unknown (words : List Txt)
  | bad
deriving DecidableEq, Repr

/-- What the transmitter is sending: nothing, the reply in hand, or the notice at the head of the queue. -/
inductive Tx where
  | idle | reply | notice
deriving DecidableEq, Repr

/-- A line whose sending has begun on TXD; a start-up sends a lone LF (R192). -/
inductive OutLine where
  | lineFeed
  | reply (r : Reply)
  | notice (n : Notice)
deriving DecidableEq, Repr

/-- RESTART: not asked for, its reply in hand, or waiting for the write queue until the millisecond given. -/
inductive Restarting where
  | no | replying | waiting (due : Nat)
deriving DecidableEq, Repr

/-- The Host Link. `inHand` is the reply of the request in hand; `waiting` the complete line in the buffer; `lost` the
lost-line count, of which `lostFirst` lines came before the waiting line; `early` says that the waiting line was received while
the start-up load ran (R192); `overflow` is present when the overflow flag is
set, with the lost-notice count and the first loss. `sent` is the model's own: every line whose sending has begun since the
state was made, newest first. -/
structure HostLink where
  inHand : Option Reply
  waiting : Option InLine
  early : Bool
  lost : Nat
  lostFirst : Nat
  notices : List Notice
  overflow : Option (Nat × Nat)
  tx : Tx
  restarting : Restarting
  sent : List OutLine
deriving DecidableEq, Repr

/-! ## The whole part -/

inductive Cause where
  | powerOn | pin | request
deriving DecidableEq, Repr

/-- Whether the core is supplied, and if so whether the start-up load still runs. -/
inductive Phase where
  | off
  | loading (c : Cause)
  | running
deriving DecidableEq, Repr

structure State where
  pending : List Instr
  phase : Phase
  /-- The site-seconds count with its sub-count, in milliseconds (R141). -/
  now : Nat
  pins : Vector Contacts 12
  reg : Vector RegBay 12
  line : LineCtl
  store : Store
  lib : Library
  runs : RunEngine
  heat : Allocator
  clean : Vector CleanBay 12
  clock : Backup
  sched : Schedule
  mon : Monitor
  dist : Distributor
  host : HostLink
deriving DecidableEq, Repr

/-- Why the block would stop: no command of this block faults, so there is no reason. -/
inductive Fault where
deriving DecidableEq, Repr

/-- Why a command would have no meaning. -/
inductive Refusal where
  /-- Raised by exec's arm of a command that has no meaning yet; safe: the model stops where the part goes on. -/
  | notModelled (mnemonic : String)
deriving DecidableEq, Repr

/-! ## The values of a start-up -/

/-- R22: a bay record's Registry fields after a start-up, before the load. -/
def RegBay.initial : RegBay :=
  { presence := .absent, state := .empty, identity := none, commission := none, activity := .nothing, power := .off,
    settleDue := none, partialDue := none, settled := false, pollCount := 0, stepCheck := false, context := none }

/-- R40: the line's records of a bay after a start-up. -/
def LineBay.initial : LineBay :=
  { queue := [], held := [], nextId := 1, misses := 0, grace := none, lostFrom := 0, lostDue := false }

/-- R40: the line controller after a start-up; the first cycle begins at once. -/
def LineCtl.initial : LineCtl :=
  { bays := table 12 .initial, exchange := none, cursor := 12, boundary := 0, extraAfter := none, extraOver := false }

/-- R63: the Library before the LIBRARY load. -/
def Library.initial : Library :=
  { index := [], free := 1600, reserved := 0, load := none, job := none, quick := table 15 0 }

/-- R87, with the default door grace of R46. -/
def RunEngine.initial : RunEngine :=
  { runs := table 12 none, nextId := 1, doorGrace := 180 }

/-- R115: the allocation record of a bay after a start-up. -/
def HeatBay.initial : HeatBay :=
  { allowance := 0, cls := none, demand := false, sent := none, zeroSince := none, starvedReported := false,
    starveDue := none, idleRef := none, standbyRequested := false, prevDoor := none, due := [] }

/-- R115: every rotation pointer at bay 1; the defaults of R46 for the site values. -/
def Allocator.initial : Allocator :=
  { bays := table 12 .initial, limit := 4000, idleTime := 30, ptr := { core := 0, cook := 0, clean := 0, idle := 0 } }

/-- R134: the hygiene record of a bay whose record was not loaded. -/
def Hygiene.initial : Hygiene := { soil := 0, rinseOwed := true, detergent := 0 }

/-- R134: the Sequencer's records of a bay after a start-up. -/
def CleanBay.initial : CleanBay :=
  { record := none, pendingWindow := none, hygiene := .initial, baseline := none, cabinet := none }

/-- The disabled rule of R46; its other fields are the lowest values of R138 (assumption 8). -/
def DstRule.initial : DstRule :=
  { enabled := false, startMonth := 1, startNth := 1, startHour := 1, endMonth := 2, endNth := 1, endHour := 1 }

/-- 2000-01-01 00:00:00, weekday 6 (R137). -/
def Calendar.initial : Calendar :=
  { year := 2000, month := 1, day := 1, hour := 0, minute := 0, second := 0, weekday := 6 }

/-- R137: the backup domain after a power-on that found it lost. -/
def Backup.initial : Backup :=
  { cal := .initial, valid := false, inDst := false, secondPass := false, rule := .initial, divider := 0,
    lossSeen := false, losses := 0 }

/-- R147: the Schedule Table before the load. -/
def Schedule.initial : Schedule := { entries := table 24 none, windows := [] }

/-- The default severity and route of each kind, in the order of the event table; every kind is enabled. -/
def defaultSettings : Vector EventSetting 16 :=
  #v[⟨2, .call, true⟩, ⟨1, .notice, true⟩, ⟨3, .call, true⟩, ⟨2, .call, true⟩, ⟨1, .notice, true⟩, ⟨1, .notice, true⟩,
     ⟨2, .notice, true⟩, ⟨3, .call, true⟩, ⟨1, .notice, true⟩, ⟨1, .notice, true⟩, ⟨2, .call, true⟩, ⟨1, .notice, true⟩,
     ⟨1, .call, true⟩, ⟨2, .call, true⟩, ⟨1, .notice, true⟩, ⟨2, .notice, true⟩]

/-- A clear latch. -/
def Latch.initial : Latch := { set := false, time := 0, forced := false, code := 0, owed := false }

/-- R166: the Monitor's records of a bay after a start-up, before the holds are loaded. -/
def MonBay.initial : MonBay :=
  { latches := table 16 .initial, conds := table 16 false, code := 0, service := none, takeDeferred := false,
    hold := .nothing, releasePending := false, causes := [] }

/-- R166: the Monitor after a start-up; the last dispatched bay is 12. -/
def Monitor.initial : Monitor :=
  { settings := defaultSettings, bays := table 12 .initial, calls := [], lanes := table 2 none, nextCall := 1,
    lastBay := 11 }

/-- A FREE slot (R167); the fields it does not use stand at zero (assumption 8). -/
def Slot.initial : Slot :=
  { header := { state := .free, kind := .firmware, target := 0, revision := 0, length := 0, crc := 0 }, fill := 0,
    computed := none, users := 0 }

/-- R184: an IDLE channel (the fields it does not use stand at their lowest values, assumption 8). -/
def Channel.initial : Channel :=
  { state := .idle, masked := false, slot := 0, group := [], demand := false, windowRequired := false, current := none,
    offset := 0, acked := 0, misses := 0, progress := table 12 .notTarget, discardId := none, discardTaken := false,
    window := 1, delivered := [], lastEnd := 0, missSince := false, ackDue := none, offerDue := none }

/-- R184: the Distributor before the SLOT HEADERS load. -/
def Distributor.initial : Distributor := { slots := table 4 .initial, channels := table 4 .initial }

/-- A record list that has never been written reads as an empty list (R42). -/
def RecordList.blank : RecordList := { recs := [], faulty := false }

/-- A store that has never been written (R42), with an empty write queue (R63). -/
def Store.initial : Store :=
  { profile := .blank, hygiene := .blank, library := .blank, headers := .blank, staging := [], performing := none,
    waiting := [] }

/-- R192: the Host Link after a start-up, its lone LF sent. -/
def HostLink.initial : HostLink :=
  { inHand := none, waiting := none, early := false, lost := 0, lostFirst := 0, notices := [], overflow := none, tx := .idle,
    restarting := .no, sent := [.lineFeed] }

/-- The part right after a power-on (R192) with every contact open, a store never written (R42) and a backup domain
that the power-on check found lost (R137): the start-up load is about to run. -/
def State.reset : State :=
  { pending := [], phase := .loading .powerOn, now := 0, pins := table 12 { lead := false, seat := false },
    reg := table 12 .initial, line := .initial, store := .initial, lib := .initial, runs := .initial, heat := .initial,
    clean := table 12 .initial, clock := .initial, sched := .initial, mon := .initial, dist := .initial,
    host := .initial }

end Sys2Proof.Machine
end

