-- ==== Sys2Proof/Machine/Words.lean ====
section
/-! DEFINITION. The words that the host line uses for the values of enumerated fields, and lines as text (R187-R191). -/

namespace Sys2Proof.Machine

open Sys2Proof

/-! ## Words of values -/

def Presence.word : Presence → String
  | .absent => "ABSENT" | .partly => "PARTIAL" | .present => "PRESENT"

def BayState.word : BayState → String
  | .empty => "EMPTY" | .settling => "SETTLING" | .interrogating => "INTERROGATING"
  | .uncommissioned => "UNCOMMISSIONED" | .commissioning => "COMMISSIONING" | .ready => "READY"
  | .refused => "REFUSED" | .lost => "LOST"

def BayCause.word : BayCause → String
  | .present => "PRESENT" | .partly => "PARTIAL" | .absent => "ABSENT" | .settled => "SETTLED"
  | .answered => "ANSWERED" | .new => "NEW" | .matched => "MATCHED" | .supply => "SUPPLY" | .expired => "EXPIRED"
  | .begin => "BEGIN" | .commissioned => "COMMISSIONED" | .abandoned => "ABANDONED"
  | .decommissioned => "DECOMMISSIONED"

def Activity.word : Activity → String
  | .nothing => "NONE" | .cook => "COOK" | .clean => "CLEAN" | .update => "UPDATE"

def Power.word : Power → String
  | .on => "ON" | .standby => "STANDBY" | .off => "OFF"

def Water.word : Water → String
  | .soft => "SOFT" | .medium => "MEDIUM" | .hard => "HARD"

def HoldKind.word : HoldKind → String
  | .nothing => "NONE" | .technician => "TECHNICIAN" | .automation => "AUTOMATION"

def CommMessage.word : CommMessage → String
  | .limits => "LIMITS" | .options => "OPTIONS"

/-- The reason words of R188. -/
def Reason.word : Reason → String
  | .syntaxError => "SYNTAX" | .unknown => "UNKNOWN" | .range => "RANGE" | .state => "STATE" | .busy => "BUSY"
  | .sequence => "SEQUENCE" | .full => "FULL" | .absent => "ABSENT" | .menu => "MENU" | .firmware => "FIRMWARE"
  | .probe => "PROBE" | .hygiene => "HYGIENE" | .held => "HELD" | .off => "OFF" | .detergent => "DETERGENT"
  | .stale => "STALE" | .inUse => "IN-USE" | .starting => "STARTING"

def StepKind.word : StepKind → String
  | .preheat => "PREHEAT" | .hotAir => "HOT_AIR" | .steam => "STEAM" | .combi => "COMBI"

def Control.word : Control → String
  | .fixed => "FIXED" | .delta => "DELTA"

def RunState.word : RunState → String
  | .starting => "STARTING" | .running => "RUNNING" | .prompting => "PROMPTING" | .paused => "PAUSED"
  | .done => "DONE" | .aborted => "ABORTED"

def RunReason.word : RunReason → String
  | .nothing => "NONE" | .noWake => "NO_WAKE" | .powerOff => "POWER_OFF" | .coreNotReached => "CORE_NOT_REACHED"
  | .promptTimeout => "PROMPT_TIMEOUT" | .doorTimeout => "DOOR_TIMEOUT" | .runaway => "RUNAWAY" | .host => "HOST"
  | .held => "HELD" | .ovenRemoved => "OVEN_REMOVED" | .ovenLost => "OVEN_LOST"

def HeatClass.word : HeatClass → String
  | .core => "CORE" | .cook => "COOK" | .clean => "CLEAN" | .idle => "IDLE"

def Program.word : Program → String
  | .rinse => "RINSE" | .light => "LIGHT" | .medium => "MEDIUM" | .strong => "STRONG"

def CleanState.word : CleanState → String
  | .requested => "REQUESTED" | .cooling => "COOLING" | .washing => "WASHING" | .rinsing => "RINSING"
  | .drying => "DRYING" | .done => "DONE" | .cancelled => "CANCELLED" | .interrupted => "INTERRUPTED"
  | .failed => "FAILED"

def CleanOutcome.word : CleanOutcome → String
  | .nothing => "NONE" | .complete => "COMPLETE" | .aborted => "ABORTED" | .failed => "FAILED"

def CleanReason.word : CleanReason → String
  | .nothing => "NONE" | .host => "HOST" | .doseFailure => "DOSE_FAILURE" | .phaseTimeout => "PHASE_TIMEOUT"
  | .coolTimeout => "COOL_TIMEOUT" | .noWake => "NO_WAKE" | .doorTimeout => "DOOR_TIMEOUT"
  | .powerOff => "POWER_OFF" | .ovenRemoved => "OVEN_REMOVED" | .ovenLost => "OVEN_LOST" | .held => "HELD"

def WindowKind.word : WindowKind → String
  | .clean => "CLEAN" | .update => "UPDATE" | .prestart => "PRESTART"

/-- The event kinds in number order (kind n of the event table is entry n - 1). -/
def EventKind.all : List EventKind :=
  [.lineExpired, .presencePartial, .supplyMismatch, .ovenFault, .doorTimeout, .probeLost, .coreNotReached,
   .tempRunaway, .starved, .cleanDue, .cleanFailed, .cleanWindowMissed, .detergentLow, .updateFailed,
   .commissionAbandoned, .rinseOwed]

/-- The place of a kind in the tables of 16. -/
def EventKind.slot : EventKind → Fin 16
  | .lineExpired => 0 | .presencePartial => 1 | .supplyMismatch => 2 | .ovenFault => 3 | .doorTimeout => 4
  | .probeLost => 5 | .coreNotReached => 6 | .tempRunaway => 7 | .starved => 8 | .cleanDue => 9 | .cleanFailed => 10
  | .cleanWindowMissed => 11 | .detergentLow => 12 | .updateFailed => 13 | .commissionAbandoned => 14
  | .rinseOwed => 15

def EventKind.word : EventKind → String
  | .lineExpired => "LINE_EXPIRED" | .presencePartial => "PRESENCE_PARTIAL" | .supplyMismatch => "SUPPLY_MISMATCH"
  | .ovenFault => "OVEN_FAULT" | .doorTimeout => "DOOR_TIMEOUT" | .probeLost => "PROBE_LOST"
  | .coreNotReached => "CORE_NOT_REACHED" | .tempRunaway => "TEMP_RUNAWAY" | .starved => "STARVED"
  | .cleanDue => "CLEAN_DUE" | .cleanFailed => "CLEAN_FAILED" | .cleanWindowMissed => "CLEAN_WINDOW_MISSED"
  | .detergentLow => "DETERGENT_LOW" | .updateFailed => "UPDATE_FAILED"
  | .commissionAbandoned => "COMMISSION_ABANDONED" | .rinseOwed => "RINSE_OWED"

/-- The level kinds of the event table; the others are edge kinds. -/
def EventKind.level : EventKind → Bool
  | .lineExpired | .presencePartial | .supplyMismatch | .ovenFault | .cleanDue | .detergentLow | .rinseOwed => true
  | .doorTimeout | .probeLost | .coreNotReached | .tempRunaway | .starved | .cleanFailed | .cleanWindowMissed
  | .updateFailed | .commissionAbandoned => false

def CallRoute.word : CallRoute → String
  | .notice => "NOTICE" | .call => "CALL"

def CallState.word : CallState → String
  | .waiting => "WAITING" | .dispatched => "DISPATCHED" | .acknowledged => "ACKNOWLEDGED" | .onSite => "ON_SITE"

def SlotState.word : SlotState → String
  | .free => "FREE" | .filling => "FILLING" | .sealing => "SEALING" | .verified => "VERIFIED" | .corrupt => "CORRUPT"

def BundleKind.word : BundleKind → String
  | .firmware => "FIRMWARE" | .recipes => "RECIPES"

def ChannelState.word : ChannelState → String
  | .idle => "IDLE" | .armed => "ARMED" | .running => "RUNNING" | .done => "DONE"

def FailReason.word : FailReason → String
  | .model => "MODEL" | .state => "STATE" | .held => "HELD" | .noAck => "NO_ACK" | .image => "IMAGE"
  | .noOffer => "NO_OFFER" | .rolledBack => "ROLLED_BACK" | .noReturn => "NO_RETURN" | .removed => "REMOVED"
  | .cleared => "CLEARED"

/-- A progress entry's word, with its reason where it is FAILED. -/
def Progress.toks : Progress → List Tok
  | .notTarget => [.word "NOT_TARGET"] | .pending => [.word "PENDING"] | .deferred => [.word "DEFERRED"]
  | .transferring => [.word "TRANSFERRING"] | .applying => [.word "APPLYING"] | .done => [.word "DONE"]
  | .failed r => [.word "FAILED", .word r.word] | .missed => [.word "MISSED"]

def NoticeKind.word : NoticeKind → String
  | .startup => "STARTUP" | .bay => "BAY" | .event => "EVENT" | .callDispatch => "CALL-DISPATCH"
  | .escalated => "ESCALATED" | .callEnd => "CALL-END" | .runStep => "RUN-STEP" | .runEnd => "RUN-END"
  | .cleanEnd => "CLEAN-END" | .windowOpen => "WINDOW-OPEN" | .windowClose => "WINDOW-CLOSE"
  | .bundleResult => "BUNDLE-RESULT" | .transfer => "TRANSFER" | .importResult => "IMPORT-RESULT"
  | .overflow => "OVERFLOW"

def Cause.word : Cause → String
  | .powerOn => "POWER-ON" | .pin => "PIN" | .request => "REQUEST"

/-- NONE for an absent optional field (R191). -/
def noneTok : Tok := .word "NONE"

/-- An optional number. -/
def optNum : Option Nat → Tok
  | some n => .num n
  | none => noneTok

/-- An optional whole number that may be negative. -/
def optInt : Option Int → Tok
  | some n => .int n
  | none => noneTok

/-- A schedule field: the number, or ANY. -/
def anyNum : Option Nat → Tok
  | some n => .num n
  | none => .word "ANY"

/-- A program, or NONE. -/
def optProgram : Option Program → Tok
  | some p => .word p.word
  | none => noneTok

/-! ## Lines as text -/

/-- A number in decimal. -/
def numText (n : Nat) : Txt := (toString n).toList

/-- A number of tenths with its one decimal. -/
def tenthsText (z : Int) : Txt :=
  (if z < 0 then ['-'] else []) ++ numText (z.natAbs / 10) ++ ['.'] ++ numText (z.natAbs % 10)

/-- The hexadecimal digit of a number below 16, in capitals (DESIGN CHOICE, assumption 68). -/
def hexDigit (n : Nat) : Char := if n < 10 then Char.ofNat (48 + n) else Char.ofNat (55 + n)

/-- Eight hexadecimal digits. -/
def hex8Text (n : Nat) : Txt :=
  [7, 6, 5, 4, 3, 2, 1, 0].map (fun i => hexDigit (n / 16 ^ i % 16))

/-- A field as written on the host line; a bay list is joined by commas (R191, R187). A bay mask is written as its numbers in ascending order, never
as ALL (DESIGN CHOICE, assumption 22). -/
def Tok.text : Tok → Txt
  | .num n => numText n
  | .int z => (if z < 0 then ['-'] else []) ++ numText z.natAbs
  | .tenths z => tenthsText z
  | .hex8 n => hex8Text n
  | .yn b => if b then ['Y'] else ['N']
  | .word w => w.toList
  | .txt w => w
  | .bays l => ((l.map (fun b => numText (bayNo b))).intersperse [',']).flatten
  | .sep => [';']

/-- Words with single spaces between them and an LF alone at the end (R185). -/
def lineText (words : List Txt) : Txt := (words.intersperse [' ']).flatten ++ ['\n']

/-- The verb of a reply as the request wrote it: `SHOW` and its object for the SHOW rows. -/
def Verb.written (v : Verb) : List Txt :=
  v.word.toList :: (v.object.map String.toList).toList

/-- A reply line (R188); the reply to a refused SHOW names the verb alone. -/
def Reply.text : Reply → Txt
  | .ok v f => lineText ("OK".toList :: (Verb.written v ++ f.map Tok.text))
  | .no h r f =>
    let head := match h with
      | .verb v => v.word.toList
      | .show => "SHOW".toList
      | .unjudged => ['?']
      | .firstWord w => w
    lineText ("NO".toList :: head :: r.word.toList :: f.map Tok.text)

/-- A notice line (R189). -/
def Notice.text (n : Notice) : Txt :=
  lineText (['!'] :: n.kind.word.toList :: numText n.time :: n.fields.map Tok.text)

/-- A line as the transmitter sends it. -/
def OutLine.text : OutLine → Txt
  | .lineFeed => ['\n']
  | .reply r => r.text
  | .notice n => n.text

end Sys2Proof.Machine
end

