-- ==== Sys2Proof/Machine/Ops.lean ====
section
/-! DEFINITION. The named operations over the state: the counts, one record of a table, the notice queue, the write service and the
staging bytes, the order queues as data, and reset. -/

namespace Sys2Proof.Machine

open Sys2Proof

/-! ## The site-seconds count -/

/-- The site-seconds count (R141). -/
def State.sec (s : State) : Nat := s.now / 1000

/-- The last millisecond that a 32-bit site-seconds count can show. -/
def lastMillisecond : Nat := 4294967295 * 1000 + 999

/-- One millisecond of the main clock (R141). What follows the maximum is a free value. -/
def State.tick (s : State) : State :=
  { s with now := if s.now < lastMillisecond then s.now + 1 else Config.countAfterMaximum }

/-- A deadline that exists and whose moment has come. -/
def reached (due : Option Nat) (now : Nat) : Bool :=
  match due with
  | some d => d ≤ now
  | none => false

/-! ## Stopwatches -/

def Stopwatch.zero : Stopwatch := { done := 0, since := none }

/-- Milliseconds counted up to `now`. -/
def Stopwatch.read (w : Stopwatch) (now : Nat) : Nat :=
  match w.since with
  | some t => w.done + (now - t)
  | none => w.done

/-- Counting goes on from `now`; a stopwatch that is counting is left alone. -/
def Stopwatch.start (w : Stopwatch) (now : Nat) : Stopwatch :=
  match w.since with
  | some _ => w
  | none => { w with since := some now }

/-- Counting stops at `now`. -/
def Stopwatch.stop (w : Stopwatch) (now : Nat) : Stopwatch := { done := w.read now, since := none }

/-! ## One record of a table -/

def State.setReg (s : State) (b : BayId) (f : RegBay → RegBay) : State := { s with reg := upd s.reg b f }

def State.setLine (s : State) (b : BayId) (f : LineBay → LineBay) : State :=
  { s with line := { s.line with bays := upd s.line.bays b f } }

/-- Replaces the run record of a bay, where it has one. -/
def State.setRun (s : State) (b : BayId) (f : Run → Run) : State :=
  { s with runs := { s.runs with runs := upd s.runs.runs b (Option.map f) } }

def State.setHeat (s : State) (b : BayId) (f : HeatBay → HeatBay) : State :=
  { s with heat := { s.heat with bays := upd s.heat.bays b f } }

def State.setClean (s : State) (b : BayId) (f : CleanBay → CleanBay) : State := { s with clean := upd s.clean b f }

/-- Replaces the cleaning record of a bay, where it has one. -/
def State.setCleanRec (s : State) (b : BayId) (f : CleanRec → CleanRec) : State :=
  s.setClean b (fun c => { c with record := c.record.map f })

def State.setMon (s : State) (b : BayId) (f : MonBay → MonBay) : State :=
  { s with mon := { s.mon with bays := upd s.mon.bays b f } }

def State.setSlot (s : State) (k : Fin 4) (f : Slot → Slot) : State :=
  { s with dist := { s.dist with slots := upd s.dist.slots k f } }

def State.setChannel (s : State) (c : Fin 4) (f : Channel → Channel) : State :=
  { s with dist := { s.dist with channels := upd s.dist.channels c f } }

/-- Does the work of `f` at each member of `l` in turn. -/
def State.each {α : Type} (s : State) (l : List α) (f : α → State → State) : State := l.foldl (fun t a => f a t) s

/-! ## The notice queue (R189, R190) -/

/-- The places of the notice queue: while the load runs one is kept free for STARTUP (R192). -/
def noticeRoom (s : State) : Nat :=
  match s.phase with
  | .loading _ => 63
  | _ => 64

/-- R190: a notice joins the queue, or is lost into the overflow count. -/
def queueNotice (kind : NoticeKind) (fields : List Tok) (s : State) : State :=
  let n : Notice := { kind := kind, time := s.sec, fields := fields }
  if s.host.notices.length < noticeRoom s then
    { s with host := { s.host with notices := s.host.notices ++ [n] } }
  else
    { s with host := { s.host with overflow :=
        match s.host.overflow with
        | none => some (1, n.time)
        | some (c, first) => some (min (c + 1) 65535, first) } }

/-- A word as a field of a notice or a reply. -/
def wd (x : String) : Tok := .word x

/-- A bay number as a field. -/
def bayTok (b : BayId) : Tok := .num (bayNo b)

/-! ## The write service (R43, R44) -/

/-- The partition that a record belongs to (R42). -/
def StoreRec.home : StoreRec → Partition
  | .site .. | .quick .. | .event .. | .dst .. | .sched .. | .commission .. | .hold .. => .profile
  | .hygiene .. => .hygiene
  | .recipe .. => .library
  | .header .. => .headers

/-- The positions of the PROFILE kinds, first by kind and then by ascending key (R42). -/
def sitePos : Nat := 1000
def quickPos : Nat := 2000
def eventPos (k : Fin 16) : Nat := 3000 + k.val
def dstPos : Nat := 4000
def schedPos (n : Fin 24) : Nat := 5000 + n.val
def commissionPos (b : BayId) : Nat := 6000 + b.val
def holdPos (b : BayId) : Nat := 7000 + b.val

/-- The position of a record in its list: records stand first by kind and then by ascending key (R42). -/
def StoreRec.pos : StoreRec → Nat
  | .site .. => sitePos
  | .quick .. => quickPos
  | .event k _ => eventPos k
  | .dst _ => dstPos
  | .sched n _ => schedPos n
  | .commission b _ => commissionPos b
  | .hold b .. => holdPos b
  | .hygiene b _ => b.val
  | .recipe n _ => n
  | .header k _ => k.val

/-- A staging write: an erase or staging bytes. -/
def Write.staging : Write → Bool
  | .record .. => false
  | _ => true

/-- The record write of the record at this position of this partition. -/
def Write.isRecord (p : Partition) (pos : Nat) : Write → Bool
  | .record q n _ => decide (q = p ∧ n = pos)
  | _ => false

/-- Staging writes that wait (the one being performed no longer waits). -/
def Store.stagingWaiting (t : Store) : Nat := (t.waiting.filter Write.staging).length

/-- R43: the Site Store Controller takes no further staging write while 8 are waiting. -/
def Store.stagingFull (t : Store) : Bool := 8 ≤ t.stagingWaiting

/-- R44: the controller performs the write at the head of the queue; R47: not before the load has ended. -/
def beginWrite (s : State) : State :=
  match s.phase, s.store.performing, s.store.waiting with
  | .running, none, x :: rest => { s with store := { s.store with performing := some x, waiting := rest } }
  | _, _, _ => s

/-- R43: a record write takes the place of the waiting write of its record, or joins the tail. -/
def storeRecord (p : Partition) (pos : Nat) (content : Option StoreRec) (s : State) : State :=
  let x := Write.record p pos content
  let q := s.store.waiting
  let q' := if q.any (Write.isRecord p pos) then q.map (fun y => if y.isRecord p pos then x else y) else q ++ [x]
  beginWrite { s with store := { s.store with waiting := q' } }

/-- R45: the present contents of a record are handed to the store. -/
def storePut (r : StoreRec) (s : State) : State := storeRecord r.home r.pos (some r) s

/-- R43: a SLOT HEADERS write at the end of a seal does not take the place of a waiting one; that one leaves and this joins the
tail. -/
def storeSealHeader (k : Fin 4) (h : Header) (s : State) : State :=
  let q := s.store.waiting.filter (fun y => !y.isRecord .headers k.val)
  beginWrite { s with store := { s.store with waiting := q ++ [.record .headers k.val (some (.header k h))] } }

/-- R43: a staging write joins the tail. -/
def storeStaging (x : Write) (s : State) : State :=
  beginWrite { s with store := { s.store with waiting := s.store.waiting ++ [x] } }

/-! ## The staging bytes (R42, R44) -/

/-- The bytes of one slot (R42). -/
def slotSize : Nat := 524288

/-- What an erased byte reads as: FFh, as flash of this family does. PRESUMED (assumption 5). -/
def erasedByte : Byte := 0xFF

/-- The address of a slot's byte in the STAGING partition. -/
def stagingAddr (k : Fin 4) (offset : Nat) : Nat := k.val * slotSize + offset

/-- The byte at an address; an unlisted address reads as erased. -/
def Memory.read : List Host.Cell → Nat → Byte
  | [], _ => erasedByte
  | (a, x) :: rest, i => if a = i then x else Memory.read rest i

/-- The byte `x` stored at `i`, the list kept in canonical form. -/
def Memory.write : List Host.Cell → Nat → Byte → List Host.Cell
  | [], i, x => if x = erasedByte then [] else [(i, x)]
  | (a, y) :: rest, i, x =>
    if i < a then (if x = erasedByte then (a, y) :: rest else (i, x) :: (a, y) :: rest)
    else if i = a then (if x = erasedByte then rest else (a, x) :: rest)
    else (a, y) :: Memory.write rest i x

/-- Bytes stored at successive addresses. -/
def Memory.writeBytes (m : List Host.Cell) (i : Nat) : List Byte → List Host.Cell
  | [] => m
  | x :: rest => Memory.writeBytes (Memory.write m i x) (i + 1) rest

/-- The addresses of a slot set to the erased value. -/
def Memory.eraseSlot (m : List Host.Cell) (k : Fin 4) : List Host.Cell :=
  m.filter (fun c => c.1 < stagingAddr k 0 || stagingAddr k slotSize ≤ c.1)

/-- The canonical form: addresses strictly rising, and no listed byte equal to the erased value. -/
abbrev Memory.wf (m : List Host.Cell) : Prop :=
  m.Pairwise (fun c d => c.1 < d.1) ∧ ∀ c ∈ m, c.2 ≠ erasedByte

/-- What a write makes of the byte at an offset of a slot, if it writes it. -/
def Write.byteOf (k : Fin 4) (offset : Nat) : Write → Option Byte
  | .erase j => if j = k then some erasedByte else none
  | .bytes j o d => if j = k ∧ o ≤ offset then d[offset - o]? else none
  | .record .. => none

/-- R44: a read gives the value of the latest write of the byte, still waiting or being performed, and otherwise the value last
written. -/
def Store.stagingRead (t : Store) (k : Fin 4) (offset : Nat) : Byte :=
  match (t.performing.toList ++ t.waiting).reverse.findSome? (Write.byteOf k offset) with
  | some x => x
  | none => Memory.read t.staging (stagingAddr k offset)

/-- `n` bytes of a slot from an offset on, read through the write service. -/
def Store.stagingBytes (t : Store) (k : Fin 4) (offset n : Nat) : List Byte :=
  (List.range n).map (fun i => t.stagingRead k (offset + i))

/-! ## Performing writes (R44, R47) -/

/-- The records before a position, which a rewrite does not touch. -/
def recordsBefore (l : List StoreRec) (pos : Nat) : List StoreRec := l.filter (fun r => r.pos < pos)

/-- The records that a rewrite writes: the new or changed record, then the records after it in their order. -/
def recordsFrom (l : List StoreRec) (pos : Nat) (content : Option StoreRec) : List StoreRec :=
  content.toList ++ l.filter (fun r => pos < r.pos)

/-- A completed record write; a new end marker closes the list. -/
def RecordList.rewrite (l : RecordList) (pos : Nat) (content : Option StoreRec) : RecordList :=
  { recs := recordsBefore l.recs pos ++ recordsFrom l.recs pos content, faulty := false }

/-- R47: a record write cut off where its rewrite had come. -/
def RecordList.cutRewrite (l : RecordList) (pos : Nat) (content : Option StoreRec) (c : Cut) : RecordList :=
  { recs := recordsBefore l.recs pos ++ (recordsFrom l.recs pos content).take c.rewritten, faulty := c.faulty }

/-- One of the four record lists replaced by `f` of it. -/
def Store.setList (t : Store) (p : Partition) (f : RecordList → RecordList) : Store :=
  match p with
  | .profile => { t with profile := f t.profile }
  | .hygiene => { t with hygiene := f t.hygiene }
  | .library => { t with library := f t.library }
  | .headers => { t with headers := f t.headers }

/-- The effect of a write on the flash when it completes. -/
def Store.perform (t : Store) : Write → Store
  | .record p pos content => t.setList p (fun l => l.rewrite pos content)
  | .erase k => { t with staging := Memory.eraseSlot t.staging k }
  | .bytes k o d => { t with staging := Memory.writeBytes t.staging (stagingAddr k o) d }

/-- The first `n` bytes of a slot set to the erased value. -/
def Memory.eraseFirst (m : List Host.Cell) (k : Fin 4) (n : Nat) : List Host.Cell :=
  m.filter (fun c => c.1 < stagingAddr k 0 || stagingAddr k (min n slotSize) ≤ c.1)

/-- R47: the flash as a start-up finds it when the write being performed was cut off; the write queue is emptied. A staging write too is left
as far as it had come (assumption 14). -/
def Store.cut (t : Store) (c : Cut) : Store :=
  let u := match t.performing with
    | some (.record p pos content) => t.setList p (fun l => l.cutRewrite pos content c)
    | some (.erase k) => { t with staging := Memory.eraseFirst t.staging k c.rewritten }
    | some (.bytes k o d) => { t with staging := Memory.writeBytes t.staging (stagingAddr k o) (d.take c.rewritten) }
    | none => t
  { u with performing := none, waiting := [] }

/-! ## The order queues as data (R35-R37) -/

/-- The depth of an order queue (R35). -/
def queueDepth : Nat := 6

/-- Ids run 1-255 and wrap from 255 to 1, skipping 0 (R35). -/
def nextOrderId (n : Nat) : Nat := if n < 255 then n + 1 else 1

/-- The kinds of order, for the rules that go by kind. -/
inductive OrderKind where
  | identify | safe | step | setpoint | heatAllow | power | cleanPhase | block | applyOffer | applyGo | discardImage
  | panelDeny
deriving DecidableEq, Repr

def OrderBody.kind : OrderBody → OrderKind
  | .identify => .identify
  | .safe => .safe
  | .step .. => .step
  | .setpoint _ => .setpoint
  | .heatAllow _ => .heatAllow
  | .power _ => .power
  | .cleanPhase .. => .cleanPhase
  | .block .. => .block
  | .applyOffer .. => .applyOffer
  | .applyGo => .applyGo
  | .discardImage => .discardImage
  | .panelDeny _ => .panelDeny

/-- The coalescing kinds (R36). -/
def OrderKind.coalesces : OrderKind → Bool
  | .setpoint | .heatAllow | .power | .panelDeny => true
  | _ => false

/-- The order is of this kind. -/
def OrderBody.is (k : OrderKind) (o : OrderBody) : Bool := decide (o.kind = k)

/-- A STEP that is not the idle STEP. -/
def OrderBody.isRunStep : OrderBody → Bool
  | .step _ _ mode _ _ _ => mode.isSome
  | _ => false

/-- The bay's state takes orders: an order placed for a bay in EMPTY or SETTLING is discarded (R39). -/
def takesOrders (s : State) (b : BayId) : Bool :=
  match s.reg[b].state with
  | .empty | .settling => false
  | _ => true

/-- What the producer records at placement: the Run Engine the id and the setpoint of a STEP (R69), the Sequencer the id of a
CLEAN-PHASE (R120, R121), the Distributor the id of its DISCARD-IMAGE (R176); and at the placement of APPLY-GO the apply-grace
deadline is set 90 s ahead (R179, R29). -/
def applyNote (b : BayId) (body : OrderBody) (note : Note) (id : Nat) (s : State) : State :=
  match note, body with
  | .step, .step _ _ _ sp _ _ => s.setRun b (fun r => { r with orderedId := some id, setpoint := sp })
  | .cleanPhase, _ => s.setCleanRec b (fun c => { c with orderedId := some id })
  | .discard c, _ => s.setChannel c (fun x => { x with discardId := some id })
  | .applyGo, .applyGo => s.setLine b (fun l => { l with grace := some (s.sec + 90) })
  | _, _ => s

/-- A held order replaces the held order whose place it takes: of its own coalescing kind (R105 for HEAT-ALLOW), or the STEP the run
had still to place; otherwise it is held behind the others. -/
def holdOrder (h : HeldOrder) (held : List HeldOrder) : List HeldOrder :=
  let same (x : HeldOrder) : Bool :=
    (h.body.kind.coalesces && x.body.is h.body.kind) || (h.body.isRunStep && x.body.isRunStep)
  if held.any same then held.map (fun x => if same x then h else x) else held ++ [h]

/-- R35, R36: an order takes the bay's next id and replaces the queued order of its coalescing kind in place, or joins the tail of a
queue with room; otherwise its producer holds it. A SAFE goes by `Machine.placeSafe`. -/
def placeOrder (b : BayId) (body : OrderBody) (note : Note) (s : State) : State :=
  if takesOrders s b then
    let l := s.line.bays[b]
    let o : Order := { id := l.nextId, body := body, delivered := false }
    if body.kind.coalesces && l.queue.any (fun x => x.body.is body.kind) then
      applyNote b body note o.id (s.setLine b (fun l =>
        { l with queue := l.queue.map (fun x => if x.body.is body.kind then o else x), nextId := nextOrderId l.nextId }))
    else if l.queue.length < queueDepth then
      applyNote b body note o.id (s.setLine b (fun l =>
        { l with queue := l.queue ++ [o], nextId := nextOrderId l.nextId }))
    else s.setLine b (fun l => { l with held := holdOrder { body := body, note := note } l.held })
  else s

/-- R35: the producers that hold orders for a bay are told of space, oldest first; each places its held order by `placeOrder` and
goes on holding it where the queue is full again. -/
def offerHeld (b : BayId) (s : State) : State :=
  (s.setLine b (fun l => { l with held := [] })).each s.line.bays[b].held (fun h t => placeOrder b h.body h.note t)

/-- R39: a producer withdraws its orders of some kinds, held ones with them (DESIGN CHOICE, assumption 26); the space is then reported. -/
def withdraw (b : BayId) (kinds : List OrderKind) (s : State) : State :=
  let gone (o : OrderBody) : Bool := kinds.any (fun k => o.is k)
  offerHeld b (s.setLine b (fun l =>
    { l with queue := l.queue.filter (fun o => !gone o.body), held := l.held.filter (fun h => !gone h.body) }))

/-- R39: the queue emptied with no reports; orders held for the bay are wanted no more. -/
def emptyQueue (b : BayId) (s : State) : State := s.setLine b (fun l => { l with queue := [], held := [] })

end Sys2Proof.Machine
end

