-- ==== Sys2Proof/Machine/Operands.lean ====
section
/-! DEFINITION. The operand forms of the host's requests (R187): what each form reads as, and the fields of a line. A form that a word does
not have reads as `none` (SYNTAX); a word outside its field's words, or a value outside its range, is left to the owner (RANGE). -/

namespace Sys2Proof.Machine

open Sys2Proof

/-- The value of a decimal digit. -/
def digitOf (c : Char) : Option Nat := if '0' ≤ c ∧ c ≤ '9' then some (c.toNat - 48) else none

/-- The value of a hexadecimal digit, capitals or small letters. -/
def hexDigitOf (c : Char) : Option Nat :=
  if '0' ≤ c ∧ c ≤ '9' then some (c.toNat - 48)
  else if 'A' ≤ c ∧ c ≤ 'F' then some (c.toNat - 55)
  else if 'a' ≤ c ∧ c ≤ 'f' then some (c.toNat - 87)
  else none

/-- Digits read from the left onto the value `n`. -/
def digitsFrom (n : Nat) : List Char → Option Nat
  | [] => some n
  | c :: rest => (digitOf c).bind (fun d => digitsFrom (n * 10 + d) rest)

/-- One or more decimal digits. -/
def digits (t : Txt) : Option Nat := if t.isEmpty then none else digitsFrom 0 t

/-- A whole number: at most 10 decimal digits, leading zeros allowed. No whole-number field of a request may be negative. -/
def number (t : Txt) : Option Nat := if t.length ≤ 10 then digits t else none

/-- A decimal with exactly one digit after the point, in tenths. -/
def decimal (t : Txt) : Option Nat :=
  match t.reverse with
  | d :: '.' :: whole => (digits whole.reverse).bind (fun n => (digitOf d).map (fun k => n * 10 + k))
  | _ => none

/-- A power in tenths of a kilowatt. -/
def powerField (t : Txt) : Option Nat := decimal t

/-- A temperature in tenths of a degree, with an optional leading `-`. -/
def tempField (t : Txt) : Option Int :=
  match t with
  | '-' :: rest => (decimal rest).map (fun n => -(n : Int))
  | _ => (decimal t).map (fun n => (n : Int))

/-- The form of a word: capitals, digits, `-` and `_`. -/
def isWord (t : Txt) : Bool :=
  !t.isEmpty && t.all (fun c => ('A' ≤ c && c ≤ 'Z') || ('0' ≤ c && c ≤ '9') || c == '-' || c == '_')

/-- A word field: the value among `vals` whose word it is; an unknown word is left to the owner as `none`. -/
def wordField {α : Type} (vals : List α) (name : α → String) (t : Txt) : Option (Option α) :=
  if isWord t then some (vals.find? (fun v => (name v).toList == t)) else none

/-- A yes/no field. -/
def ynField (t : Txt) : Option (Option Bool) :=
  wordField [true, false] (fun b => if b then "Y" else "N") t

/-- The form of a word that cannot be meant as a number: it has a letter. -/
def isLetterWord (t : Txt) : Bool := isWord t && t.any (fun c => 'A' ≤ c && c ≤ 'Z')

/-- A decimal number, or ANY; an unknown word is left to the owner, 12A among them. What has no letter and is no number of R187, such as 12-3, has
neither form (DEDUCED, assumption 23). -/
def anyField (t : Txt) : Option (Option (Option Nat)) :=
  match number t with
  | some n => some (some (some n))
  | none => if isLetterWord t then some (if t == "ANY".toList then some none else none) else none

/-- The items of a comma-separated list. -/
def splitCommas : List Char → List Txt
  | [] => [[]]
  | c :: rest =>
    match splitCommas rest with
    | x :: xs => if c = ',' then [] :: x :: xs else (c :: x) :: xs
    | [] => [[c]]

/-- A bay list: the numbers written, or the twelve bays for ALL. -/
def bayListField (t : Txt) : Option (List Nat) :=
  if t == "ALL".toList then some (allBays.map bayNo) else (splitCommas t).mapM number

/-- The bays of a list of bay numbers in ascending order; absent where a number is outside 1-12, named twice, or none is named. -/
def bayMask (l : List Nat) : Option (List BayId) :=
  if l.isEmpty || l.any (fun n => n == 0 || 12 < n) || !decide l.Nodup then none
  else some (allBays.filter (fun b => l.contains (bayNo b)))

/-- Pairs of hexadecimal digits as bytes. -/
def hexBytes : List Char → Option (List Byte)
  | [] => some []
  | [_] => none
  | a :: b :: rest =>
    (hexDigitOf a).bind (fun h => (hexDigitOf b).bind (fun l =>
      (hexBytes rest).map (fun r => BitVec.ofNat 8 (h * 16 + l) :: r)))

/-- A CRC: eight hexadecimal digits, capitals or small letters (R187 states the case of hexadecimal data alone; DESIGN CHOICE, assumption 68). -/
def crcField (t : Txt) : Option Nat := if t.length = 8 then (hexBytes t).map bigEndian else none

/-- A name; its length is judged by the owner. -/
def nameField (t : Txt) : Option Txt := some t

/-- The next field of a line, of the form `p`. -/
def fld {α β : Type} (p : Txt → Option α) (k : α → List Txt → Option β) : List Txt → Option β
  | [] => none
  | t :: rest => (p t).bind (fun a => k a rest)

/-- The end of a line: a further field is one too many. -/
def fin {β : Type} (v : β) : List Txt → Option β
  | [] => some v
  | _ => none

/-- A field that may be left out at the end of a line. -/
def optFld {α : Type} (p : Txt → Option α) : List Txt → Option (Option α)
  | [] => some none
  | [t] => (p t).map some
  | _ => none

/-- Bay number 1-12. -/
def bayOf (n : Nat) : Option BayId := if h : 1 ≤ n ∧ n ≤ 12 then some ⟨n - 1, by omega⟩ else none

/-- Slot, or channel, number 1-4. -/
def fourOf (n : Nat) : Option (Fin 4) := if h : 1 ≤ n ∧ n ≤ 4 then some ⟨n - 1, by omega⟩ else none

/-- Schedule entry number 1-24. -/
def entryOf (n : Nat) : Option (Fin 24) := if h : 1 ≤ n ∧ n ≤ 24 then some ⟨n - 1, by omega⟩ else none

/-- A value within its range. -/
def within (lo n hi : Nat) : Bool := lo ≤ n && n ≤ hi

/-- A temperature within its range. -/
def withinT (lo n hi : Int) : Bool := lo ≤ n && n ≤ hi

/-- A value below its range is taken as the least, one above it as the greatest. -/
def clampTo (lo n hi : Nat) : Nat := min (max lo n) hi

/-- The same for signed values. -/
def clampInt (lo n hi : Int) : Int := min (max lo n) hi

end Sys2Proof.Machine
end

