-- ==== Sys2Proof/Machine/Frames.lean ====
section
/-! DEFINITION. The frames the part sends (R194, R195). -/

namespace Sys2Proof.Machine

open Sys2Proof

/-- A number in two bytes, most significant first. -/
def bytes2 (n : Nat) : List Byte := [BitVec.ofNat 8 (n / 256), BitVec.ofNat 8 n]

/-- A number in three bytes. -/
def bytes3 (n : Nat) : List Byte := BitVec.ofNat 8 (n / 65536) :: bytes2 n

/-- A number in four bytes. -/
def bytes4 (n : Nat) : List Byte := BitVec.ofNat 8 (n / 16777216) :: bytes3 n

/-- A temperature in two bytes, two's complement. -/
def bytesT (z : Int) : List Byte := bytes2 (z % 65536).toNat

/-- One byte. -/
def byte1 (n : Nat) : List Byte := [BitVec.ofNat 8 n]

/-- The mode byte of a STEP. -/
def modeCode : Option StepKind → Nat
  | none => 0
  | some .preheat => 1
  | some .hotAir => 2
  | some .steam => 3
  | some .combi => 4

/-- The phase byte of a CLEAN-PHASE. -/
def phaseCode : PhaseKind → Nat
  | .cool => 1
  | .wash => 2
  | .rinse => 3
  | .dry => 4

/-- The reason byte of a PANEL-DENY. -/
def denyCode : Reason → Nat
  | .state => 1
  | .off => 2
  | .held => 3
  | .busy => 4
  | .hygiene => 5
  | .absent => 6
  | .menu => 7
  | .firmware => 8
  | .probe => 9
  | .detergent => 10
  | _ => 0

/-- The order kind byte (the kind value table). -/
def kindCode : OrderKind → Nat
  | .identify => 0x01
  | .safe => 0x02
  | .step => 0x03
  | .setpoint => 0x04
  | .heatAllow => 0x05
  | .power => 0x06
  | .cleanPhase => 0x07
  | .block => 0x08
  | .applyOffer => 0x09
  | .applyGo => 0x0A
  | .discardImage => 0x0B
  | .panelDeny => 0x0C

/-- An order's body (R195). -/
def orderBytes : OrderBody → List Byte
  | .identify | .safe | .applyGo | .discardImage => []
  | .step run index mode sp humidity fan =>
    byte1 run ++ byte1 index ++ byte1 (modeCode mode) ++ bytesT sp ++ byte1 humidity ++ byte1 fan
  | .setpoint t => bytesT t
  | .heatAllow n => byte1 n
  | .power toStandby => byte1 (if toStandby then 1 else 2)
  | .cleanPhase phase seconds doses => byte1 (phaseCode phase) ++ bytes2 seconds ++ byte1 doses
  | .block offset data => bytes3 offset ++ data
  | .applyOffer crc revision => bytes4 crc ++ bytes2 revision
  | .panelDeny r => byte1 (denyCode r)

/-- The body of a POLL that carries these orders. -/
def pollBody (orders : List Order) : List Byte :=
  byte1 orders.length ++
    (orders.map (fun o => byte1 o.id ++ byte1 (kindCode o.body.kind) ++ byte1 (orderBytes o.body).length ++
      orderBytes o.body)).flatten

/-- The POLL frame of a bay. -/
def pollFrame (b : BayId) (orders : List Order) : List Byte :=
  let head := byte1 (bayNo b) ++ byte1 0x01 ++ bytes2 (pollBody orders).length ++ pollBody orders
  head ++ bytes2 (crc16 head).toNat

/-- The time a frame takes to send, in microseconds: 40 µs a byte. -/
def frameTime (l : List Byte) : Nat := 40 * l.length

/-- The answer limit in microseconds (R23). -/
def answerLimit : Nat := 20000

/-- The time a STATUS answer takes on the line, in microseconds: its body of 29 bytes and the 6 of its frame, without gaps (R194). -/
def statusTime : Nat := 40 * 35

/-- The time an IDENTITY answer takes on the line, in microseconds: its body of 16 bytes and the 6 of its frame, without gaps (R194). -/
def identityTime : Nat := 40 * 22

/-- The longest that the gaps within a STATUS answer may be together, in microseconds: 1 ms between each two of its 35 bytes (R194). -/
def statusGaps : Nat := 1000 * 34

/-- The longest that the gaps within an IDENTITY answer may be together, in microseconds: 1 ms between each two of its 22 bytes (R194). -/
def identityGaps : Nat := 1000 * 21

end Sys2Proof.Machine
end

