-- ==== Sys2Proof/Machine/Calendar.lean ====
section
/-! DEFINITION. The calendar's arithmetic (R135, R136, R138) and the transitions of daylight saving time (R139, R140). -/

namespace Sys2Proof.Machine

open Sys2Proof

/-- The days of a month; month 2 has 29 in years divisible by 4 (R135). -/
def daysIn (year month : Nat) : Nat :=
  if month = 2 then (if year % 4 = 0 then 29 else 28)
  else if month = 4 ∨ month = 6 ∨ month = 9 ∨ month = 11 then 30
  else 31

/-- Days from 2000-01-01 to a date. -/
def dayNumber (year month day : Nat) : Nat :=
  let y := year - 2000
  y * 365 + (y + 3) / 4 + ((List.range (month - 1)).map (fun m => daysIn year (m + 1))).sum + (day - 1)

/-- The weekday of a date: 2000-01-01 is weekday 6 and each later date follows (R136). -/
def weekdayOf (year month day : Nat) : Nat := (dayNumber year month day + 5) % 7 + 1

/-- The weekday after `d`, 7 rolling to 1. -/
def nextWeekday (d : Nat) : Nat := if d < 7 then d + 1 else 1

/-- The time one second later by the rolls of R135; absent where it would carry the year past 2099. -/
def Calendar.next (c : Calendar) : Option Calendar :=
  if c.second < 59 then some { c with second := c.second + 1 }
  else if c.minute < 59 then some { c with second := 0, minute := c.minute + 1 }
  else if c.hour < 23 then some { c with second := 0, minute := 0, hour := c.hour + 1 }
  else
    let d : Calendar := { c with second := 0, minute := 0, hour := 0, weekday := nextWeekday c.weekday }
    if c.day < daysIn c.year c.month then some { d with day := c.day + 1 }
    else if c.month < 12 then some { d with day := 1, month := c.month + 1 }
    else if c.year < 2099 then some { d with day := 1, month := 1, year := c.year + 1 }
    else none

/-- The calendar one minute boundary later, as the look-ahead of R110 reckons: no DST jump is applied. There is none after 2099-12-31 23:59, where
the roll of R135 clears CLOCK-VALID and no entry can match any more (DEDUCED, assumption 45). -/
def Calendar.nextMinute (c : Calendar) : Option Calendar := { c with second := 59 }.next

/-- The date is the nth Sunday of its month; nth 5 is the last (R138). -/
def Calendar.nthSunday (c : Calendar) (nth : Nat) : Bool :=
  c.weekday = 7 && (if nth = 5 then decide (daysIn c.year c.month < c.day + 7) else (c.day - 1) / 7 + 1 = nth)

/-- The time is `hour`:00:00 on the nth Sunday of `month`. -/
def Calendar.atTransition (c : Calendar) (month nth hour : Nat) : Bool :=
  c.month = month && c.nthSunday nth && c.hour = hour && c.minute = 0 && c.second = 0

/-- R139: the update would reach the start hour on the start Sunday. -/
def startsDst (b : Backup) (c : Calendar) : Bool :=
  b.rule.enabled && !b.inDst && b.valid && c.atTransition b.rule.startMonth b.rule.startNth b.rule.startHour

/-- R140: the update would reach the end hour on the end Sunday. -/
def reachesEnd (b : Backup) (c : Calendar) : Bool := c.atTransition b.rule.endMonth b.rule.endNth b.rule.endHour

/-- R140: and the end transition is due. -/
def endsDst (b : Backup) (c : Calendar) : Bool :=
  b.rule.enabled && b.inDst && !b.secondPass && b.valid && reachesEnd b c

/-- R135, R139, R140: the backup domain after one update, the second divider having completed. Where a rule set in the repeated hour puts the start
transition on the update that ends the second pass, the start transition is made and second-pass stays set (DESIGN CHOICE, assumption 54). -/
def Backup.update (b : Backup) : Backup :=
  match b.cal.next with
  | none => { b with cal := .initial, valid := false, inDst := false, secondPass := false, divider := 0 }
  | some c =>
    if startsDst b c then { b with cal := { c with hour := c.hour + 1 }, inDst := true, divider := 0 }
    else if endsDst b c then { b with cal := { c with hour := c.hour - 1 }, inDst := false, secondPass := true, divider := 0 }
    else if b.secondPass && c.hour = b.rule.endHour && c.minute = 0 && c.second = 0 then
      { b with cal := c, secondPass := false, divider := 0 }
    else { b with cal := c, divider := 0 }

end Sys2Proof.Machine
end

