-- ==== Sys2Proof/Machine/HeatShare.lean ====
section
/-! DEFINITION. The allocation as arithmetic (R103): the uniform share of a class and the rotating walk of its leftover. -/

namespace Sys2Proof.Machine

open Sys2Proof

/-- A member of a class: its bay and its rated power in tenths of a kilowatt. -/
structure Member where
  bay : BayId
  rated : Nat
deriving DecidableEq, Repr

/-- The sum of the rated powers of a class's members. -/
def ratedSum (l : List Member) : Nat := (l.map Member.rated).sum

/-- The largest share 0-16 that the class can pay for uniformly; a class that costs nothing gets 16. -/
def uniformShare (budget sum : Nat) : Nat := if sum = 0 then 16 else min 16 (budget / sum)

/-- The members in the order the walk visits them: ascending from the first above the pointer, then from the lowest. -/
def walkOrder (l : List Member) (ptr : BayId) : List Member :=
  l.filter (fun m => ptr < m.bay) ++ l.filter (fun m => m.bay ≤ ptr)

/-- The leftover walk: the bays that receive one sixteenth more, and the budget left. It stops at the first member that does not
fit. -/
def leftoverWalk (budget : Nat) : List Member → List BayId × Nat
  | [] => ([], budget)
  | m :: rest =>
    if m.rated ≤ budget then
      let r := leftoverWalk (budget - m.rated) rest
      (m.bay :: r.1, r.2)
    else ([], budget)

/-- What a class is given: its uniform share, the bays with one sixteenth more, the budget left for the next class, and its rotation
pointer after the walk. -/
structure ClassShare where
  share : Nat
  extra : List BayId
  left : Nat
  ptr : BayId
deriving DecidableEq, Repr

/-- R103 for one class. -/
def classShare (l : List Member) (ptr : BayId) (budget : Nat) : ClassShare :=
  let k := uniformShare budget (ratedSum l)
  let rest := budget - k * ratedSum l
  if k < 16 then
    let r := leftoverWalk rest (walkOrder l ptr)
    { share := k, extra := r.1, left := r.2, ptr := r.1.getLastD ptr }
  else { share := k, extra := [], left := rest, ptr := ptr }

/-- The allowance that a class's share gives a bay. -/
def ClassShare.of (c : ClassShare) (b : BayId) : Nat := if c.extra.contains b then c.share + 1 else c.share

/-- The whole division: what each class is given, in rank order. -/
structure Division where
  core : ClassShare
  cook : ClassShare
  clean : ClassShare
  idle : ClassShare
deriving DecidableEq, Repr

/-- R103: the budget, in sixteenths of tenths, divided over the classes in rank order. -/
def divide (limit : Nat) (p : Pointers) (members : HeatClass → List Member) : Division :=
  let a := classShare (members .core) p.core (limit * 16)
  let b := classShare (members .cook) p.cook a.left
  let c := classShare (members .clean) p.clean b.left
  let d := classShare (members .idle) p.idle c.left
  { core := a, cook := b, clean := c, idle := d }

def Division.share (d : Division) : HeatClass → ClassShare
  | .core => d.core
  | .cook => d.cook
  | .clean => d.clean
  | .idle => d.idle

def Division.pointers (d : Division) : Pointers :=
  { core := d.core.ptr, cook := d.cook.ptr, clean := d.clean.ptr, idle := d.idle.ptr }

end Sys2Proof.Machine
end

