-- ==== Sys2Proof/Machine/Recipes.lean ====
section
/-! DEFINITION. What a recipe may hold (R48, R49), and the recipe-set bundle record (R197). -/

namespace Sys2Proof.Machine

open Sys2Proof

/-- R48: 1-24 printable characters other than space. -/
def nameOk (name : Txt) : Bool :=
  within 1 name.length 24 && name.all (fun c => printable c && c != ' ')

/-- R48: the header fields and the step count lie in their ranges. -/
def headerOk (number revision : Nat) (name : Txt) (soilClass minFirmware count : Nat) : Bool :=
  within 1 number 999 && within 1 revision 65535 && nameOk name && soilClass ≤ 3 && minFirmware ≤ 9999 &&
    within 1 count 12

/-- R49: the end fields and the maximum step time. -/
def endOk (e : StepEnd) (maximum : Nat) : Bool :=
  match e with
  | .time t => within 1 t 21600 && maximum = t
  | .core target => withinT 200 target 990 && within 60 maximum 21600
  | .coreHold target base credit =>
    withinT 200 target 990 && withinT 400 base 990 && base ≤ target && within 1 credit 600 && within 60 maximum 21600

/-- The step ends by time (R49). -/
def StepEnd.isTime : StepEnd → Bool
  | .time _ => true
  | _ => false

/-- R49: a step of a recipe whose probe-required field is `probe`. -/
def stepOk (probe : Bool) (s : Step) : Bool :=
  withinT 300 s.target 3000 &&
  (match s.control with
   | .fixed => s.delta = 0
   | .delta => withinT 100 s.delta 1500 && s.kind ≠ .preheat) &&
  (if s.kind = .combi then decide (s.humidity ≤ 100) else s.humidity = 0) &&
  within 1 s.fan 5 && endOk s.fin s.maximum && (s.kind ≠ .preheat || s.fin.isTime) &&
  (probe || (s.control = .fixed && s.fin.isTime))

/-- R48, R49 for a whole revision of a recipe number. -/
def revisionOk (number : Nat) (r : Revision) : Bool :=
  headerOk number r.revision r.name r.soilClass r.minFirmware r.steps.length && r.steps.all (stepOk r.probe)

/-! ## The bundle record (R197) -/

/-- The bytes of one record's steps. -/
def stepBytes : Nat := 18

/-- The bytes of a record before its steps. -/
def recordHead : Nat := 35

/-- A byte code of a table, 1 being its first value. -/
def codeOf {α : Type} (vals : List α) (n : Nat) : Option α := if n = 0 then none else vals[n - 1]?

/-- A byte that is 0 for no and 1 for yes. -/
def flagOf (n : Nat) : Option Bool := if n = 0 then some false else if n = 1 then some true else none

/-- The name field: 24 bytes, ending at the first 00h, every byte after it 00h. -/
def nameOf (l : List Byte) : Option Txt :=
  let used := l.takeWhile (fun x => x != 0#8)
  let name := used.map (fun x => Char.ofNat x.toNat)
  if (l.drop used.length).all (fun x => x == 0#8) && nameOk name then some name else none

/-- The end of a step from its code and its fields; the fields an end does not have are 0. -/
def endOf (code value : Nat) (valueT : Int) (base : Int) (credit : Nat) : Option StepEnd :=
  match code with
  | 1 => if base = 0 ∧ credit = 0 then some (.time value) else none
  | 2 => if base = 0 ∧ credit = 0 then some (.core valueT) else none
  | 3 => some (.coreHold valueT base credit)
  | _ => none

/-- One step of a record, from its 18 bytes. -/
def readStep (l : List Byte) : Option Step :=
  (codeOf [StepKind.preheat, .hotAir, .steam, .combi] (byteAt l 0)).bind fun kind =>
  (codeOf [Control.fixed, .delta] (byteAt l 1)).bind fun control =>
  (endOf (byteAt l 8) (wordAt l 9) (tempAt l 9) (tempAt l 11) (wordAt l 13)).bind fun e =>
  (flagOf (byteAt l 17)).map fun prompt =>
    { kind := kind, control := control, target := tempAt l 2, delta := tempAt l 4, humidity := byteAt l 6,
      fan := byteAt l 7, fin := e, maximum := wordAt l 15, prompt := prompt }

/-- A record that stands at the head of these bytes, with every check of R48, R49 and R197; absent where it is bad. -/
def readRecord (l : List Byte) : Option BundleRecord :=
  let count := byteAt l 34
  if wordAt l 0 ≠ recordHead + stepBytes * count ∨ l.length < wordAt l 0 then none
  else
    (nameOf (slice l 6 24)).bind fun name =>
    (flagOf (byteAt l 33)).bind fun probe =>
    ((List.range count).mapM (fun i => readStep (slice l (recordHead + stepBytes * i) stepBytes))).bind fun steps =>
      let r : Revision := { revision := wordAt l 4, name := name, soilClass := byteAt l 30, minFirmware := wordAt l 31,
                            probe := probe, steps := steps }
      if revisionOk (wordAt l 2) r then some { number := wordAt l 2, rev := r } else none

/-- R197: `n` length fields, each standing where the record before it ends, account for exactly these bytes. A field that stands past the end, or
counts past it, does not. -/
def lengthsAgree : Nat → List Byte → Bool
  | 0, l => l.isEmpty
  | n + 1, l => decide (2 ≤ l.length) && decide (wordAt l 0 ≤ l.length) && lengthsAgree n (l.drop (wordAt l 0))

/-- Why a record of a set is bad (R61). -/
inductive BadRecord where
  | range | duplicate
deriving DecidableEq, Repr

/-- The records of a set one after another, the first of them number `i` of the set; `seen` are the numbers before it. A record that breaks a range
and repeats a number is reported as RANGE (DESIGN CHOICE, assumption 38). -/
def readRecords : Nat → Nat → List Nat → List Byte → Except (Nat × BadRecord) (List BundleRecord)
  | 0, _, _, _ => .ok []
  | n + 1, i, seen, l =>
    match readRecord l with
    | none => .error (i, .range)
    | some r =>
      if seen.contains r.number then .error (i, .duplicate)
      else
        match readRecords n (i + 1) (r.number :: seen) (l.drop (wordAt l 0)) with
        | .ok rest => .ok (r :: rest)
        | .error e => .error e

/-- R61, R197: the validation of a recipe set. -/
def readSet (l : List Byte) : Except (Nat × BadRecord) (List BundleRecord) :=
  let count := wordAt l 0
  if within 1 count 200 && lengthsAgree count (l.drop 2) then readRecords count 1 [] (l.drop 2)
  else .error (1, .range)

/-! ## The CRC-32 of a bundle -/

/-- One bit of the reflected CRC-32. -/
def crc32Bit (c : BitVec 32) : BitVec 32 := if c.getLsbD 0 then (c >>> 1) ^^^ 0xEDB88320#32 else c >>> 1

/-- The CRC-32 after one more byte. -/
def crc32Byte (c : BitVec 32) (x : Byte) : BitVec 32 :=
  let d := c ^^^ x.setWidth 32
  crc32Bit (crc32Bit (crc32Bit (crc32Bit (crc32Bit (crc32Bit (crc32Bit (crc32Bit d)))))))

/-- The CRC-32 of the Update Distribution chapter: reflected polynomial EDB88320h, initial value FFFFFFFFh, final inversion. -/
def crc32 (l : List Byte) : Nat := (~~~ (l.foldl crc32Byte 0xFFFFFFFF#32)).toNat

end Sys2Proof.Machine
end

