-- ==== Sys2Proof/Machine/Flags.lean ====
section
/-! DEFINITION. The conditions the manual's rules test, as functions of the state: the supply check, the claim check, menu windows, window
coverage, the hygiene conditions, membership and class in the allocation, and the conditions of standby. -/

namespace Sys2Proof.Machine

open Sys2Proof

/-! ## Bays -/

/-- The provision of a bay is present exactly when it has a commission record. -/
def provisionOf (s : State) (b : BayId) : Option Provision := s.reg[b].commission.map Commission.prov

/-- The bay ceiling; a bay with no provision holds no run, and 300.0 °C stands in its place (assumption 9). -/
def ceilingOf (s : State) (b : BayId) : Int := ((provisionOf s b).map Provision.ceiling).getD 3000

/-- R10: the oven's supply type equals the circuit's and its rated power is at most the circuit maximum. -/
def supplyFits (i : Identity) (supply circuitMax : Nat) : Bool := i.supply = supply && i.rated ≤ circuitMax

/-- R19: the claim's checks in their order; the first failure is the reason. -/
def claimCheck (s : State) (b : BayId) : Option Reason :=
  let r := s.reg[b]
  if r.state ≠ .ready ∨ r.presence ≠ .present then some .state
  else if r.power = .off then some .off
  else if s.mon.bays[b].hold ≠ .nothing then some .held
  else if r.activity ≠ .nothing then some .busy
  else none

/-- R3: the presence value of a bay's contacts. -/
def Contacts.classify (c : Contacts) : Presence :=
  match c.lead, c.seat with
  | false, false => .absent
  | true, true => .present
  | _, _ => .partly

/-- A window is open when its base is at most its limit and the two are not both 0 (R13, R17, R59). -/
def MenuWindow.isOpen (m : MenuWindow) : Bool := m.base ≤ m.limit && !(m.base = 0 && m.limit = 0)

/-- R59: the number lies in an open menu window. -/
def MenuWindow.admits (m : MenuWindow) (n : Nat) : Bool := m.isOpen && m.base ≤ n && n ≤ m.limit

/-- R7: every field of an identity record lies in its range. -/
def identityOk (i : IdentityBody) : Bool :=
  decide (i.serial.length = 8) && i.serial.all (fun x => printable (Char.ofNat x.toNat)) && within 1 i.model 4 && within 1 i.supply 2 &&
    within 30 i.rated 400 && i.major ≤ 99 && i.minor ≤ 99 && i.points ≤ 6

/-- The identity an identity record gives (R196: the firmware as major × 100 + minor; any value but 0 is a steam generator). -/
def identityOf (i : IdentityBody) : Identity :=
  { serial := i.serial.map (fun x => Char.ofNat x.toNat), model := i.model, supply := i.supply, rated := i.rated,
    firmware := i.major * 100 + i.minor, points := i.points, steam := i.steam != 0 }

/-! ## Hygiene -/

/-- R66: a cook run is refused HYGIENE. -/
def hygieneBlocks (h : Hygiene) : Bool := h.rinseOwed || 1250 ≤ h.soil

/-- R131: CLEAN_DUE is true while the soil is at 1000 or above. -/
def cleanDue (h : Hygiene) : Bool := 1000 ≤ h.soil

/-- R131: DETERGENT_LOW is true while the level is 6 or below. -/
def detergentLow (h : Hygiene) : Bool := h.detergent ≤ 6

/-! ## Programs (R116) -/

/-- The dose count of a program for a water class. -/
def Program.doses (p : Program) (wtr : Water) : Nat :=
  match p with
  | .rinse => 0
  | .light => 1
  | .medium => if wtr = .hard then 3 else 2
  | .strong => if wtr = .hard then 4 else 3

/-- The rank of a program: RINSE below LIGHT below MEDIUM below STRONG. -/
def Program.rank : Program → Nat
  | .rinse => 0
  | .light => 1
  | .medium => 2
  | .strong => 3

/-- The duration of a phase state of a program, in seconds. -/
def Program.seconds (p : Program) (st : CleanState) : Nat :=
  match st, p with
  | .washing, .light => 25 * 60
  | .washing, .medium => 45 * 60
  | .washing, .strong => 75 * 60
  | .rinsing, .rinse => 12 * 60
  | .rinsing, .light => 15 * 60
  | .rinsing, .medium => 20 * 60
  | .rinsing, .strong => 25 * 60
  | .drying, .rinse => 3 * 60
  | .drying, .light => 8 * 60
  | .drying, .medium => 10 * 60
  | .drying, .strong => 12 * 60
  | _, _ => 0

/-- The soil left by a program's rinse completion (R116, R125). -/
def Program.soilAfter (p : Program) (soil : Nat) : Nat :=
  match p with
  | .rinse => soil
  | .light => soil - 400
  | .medium => soil - 800
  | .strong => 0

/-- The dose count of a program on a bay; a bay with no provision counts as soft water (assumption 9). -/
def dosesFor (s : State) (b : BayId) (p : Program) : Nat :=
  p.doses (((provisionOf s b).map Provision.water).getD .soft)

/-- R118: the checks of a cleaning start. -/
def cleanCheck (s : State) (b : BayId) (p : Program) : Option Reason :=
  match claimCheck s b with
  | some r => some r
  | none =>
    if p ≠ .rinse ∧ (((provisionOf s b).map Provision.detergent).getD false = false ∨
        s.clean[b].hygiene.detergent < dosesFor s b p) then some .detergent
    else none

/-! ## Runs and cleanings -/

/-- DONE and ABORTED are final (R64). -/
def RunState.final : RunState → Bool
  | .done | .aborted => true
  | _ => false

/-- The non-final run of a bay. -/
def liveRun (s : State) (b : BayId) : Option Run := s.runs.runs[b].filter (fun r => !r.state.final)

/-- The current step of a run; its index counts from 1. -/
def Run.step (r : Run) : Option Step := r.rev.steps[r.stepIndex - 1]?

def CleanState.final : CleanState → Bool
  | .done | .cancelled | .interrupted | .failed => true
  | _ => false

/-- The non-final cleaning record of a bay. -/
def liveClean (s : State) (b : BayId) : Option CleanRec := s.clean[b].record.filter (fun c => !c.state.final)

/-- The states that run a phase of a program. -/
def CleanState.isPhase : CleanState → Bool
  | .washing | .rinsing | .drying => true
  | _ => false

/-! ## Windows -/

/-- A bay is covered by a kind while any open window of that kind has it in its mask. -/
def covered (s : State) (k : WindowKind) (b : BayId) : Bool :=
  s.sched.windows.any (fun x => decide (x.kind = k) && x.mask.contains b)

/-- The window of an entry is open. -/
def windowOpen (s : State) (e : Fin 24) : Bool := s.sched.windows.any (fun x => x.entry = e)

/-- A field of an entry is ANY or equal to the calendar's. -/
def anyOr (f : Option Nat) (n : Nat) : Bool :=
  match f with
  | none => true
  | some m => m = n

/-- The fields of an entry name this time. -/
def SchedEntry.names (e : SchedEntry) (c : Calendar) : Bool :=
  anyOr e.weekday c.weekday && anyOr e.hour c.hour && anyOr e.minute c.minute

/-! ## Channels -/

/-- The entry waits: PENDING or DEFERRED. -/
def Progress.waiting : Progress → Bool
  | .pending | .deferred => true
  | _ => false

/-- DONE, FAILED, MISSED and NOT_TARGET (R180 judges by them). -/
def Progress.settled : Progress → Bool
  | .done | .failed _ | .missed | .notTarget => true
  | _ => false

/-- R109: a RUNNING channel has a PENDING or DEFERRED entry for the bay. -/
def transferWaits (s : State) (b : BayId) : Bool :=
  allFour.any (fun c => decide (s.dist.channels[c].state = .running) && s.dist.channels[c].progress[b].waiting)

/-- The channel whose entry for the bay is TRANSFERRING or APPLYING. -/
def channelOf (s : State) (b : BayId) : Option (Fin 4) :=
  allFour.find? (fun c => decide (s.dist.channels[c].current = some b))

/-- The bay's entry is APPLYING. -/
def applying (s : State) (b : BayId) : Bool :=
  allFour.any (fun c => decide (s.dist.channels[c].current = some b) && decide (s.dist.channels[c].progress[b] = .applying))

/-! ## Latches -/

/-- The setting of a kind. -/
def settingOf (s : State) (k : EventKind) : EventSetting := s.mon.settings[k.slot]

/-- R109: a latch of the bay is set for a kind whose severity is 3. -/
def severe (s : State) (b : BayId) : Bool :=
  EventKind.all.any (fun k => s.mon.bays[b].latches[k.slot].set && decide ((settingOf s k).severity = 3))

/-! ## The allocation -/

/-- The current step of a run has end CORE or CORE_HOLD (R102). -/
def Run.inCoreStep (r : Run) : Bool :=
  match r.step with
  | some st => !st.fin.isTime
  | none => false

/-- R102: a member is READY and ON and demands heat; its class is the highest that applies. -/
def heatClassOf (s : State) (b : BayId) : Option HeatClass :=
  let r := s.reg[b]
  if r.state = .ready ∧ r.power = .on ∧ s.heat.bays[b].demand = true then
    some (match r.activity with
      | .cook => if (liveRun s b).any (fun x => decide (x.state = .running) && x.inCoreStep) then .core else .cook
      | .clean => if (liveClean s b).any (fun x => decide (x.state = .washing ∨ x.state = .drying)) then .clean else .idle
      | _ => .idle)
  else none

/-- The rated power of a bay's oven in tenths of a kilowatt; a bay with no identity has none to count. -/
def ratedOf (s : State) (b : BayId) : Nat := (s.reg[b].identity.map Identity.rated).getD 0

/-! ## Standby -/

/-- The bay's idle deadline in site seconds (R108). -/
def idleDeadline (s : State) (b : BayId) : Option Nat := s.heat.bays[b].idleRef.map (fun t => t + s.heat.idleTime * 60)

/-- The conditions of R109, in the order of its table, each under the name SHOW HEAT gives it (assumption 10). -/
def standbyConditions (s : State) (b : BayId) : List (String × Bool) :=
  let r := s.reg[b]
  [("STATE", decide (r.state = .ready)),
   ("POWER", decide (r.power = .on)),
   ("ACTIVITY", decide (r.activity = .nothing)),
   ("HOLD", decide (s.mon.bays[b].hold = .nothing)),
   ("NOT-ALLOWED", ((provisionOf s b).map Provision.standby).getD false),
   ("REQUESTED", !s.heat.bays[b].standbyRequested),
   ("TRANSFER", !transferWaits s b),
   ("WINDOW", !covered s .clean b && !covered s .prestart b),
   ("LOOK-AHEAD", s.heat.bays[b].due.isEmpty),
   ("SEVERITY-3", !severe s b),
   ("IDLE", reached (idleDeadline s b) s.sec)]

/-- The first condition of R109 that fails. -/
def standbyFails (s : State) (b : BayId) : Option String :=
  ((standbyConditions s b).find? (fun c => !c.2)).map Prod.fst

end Sys2Proof.Machine
end

