-- ==== Sys2Proof/Machine/Library.lean ====
section
/-! DEFINITION. The Recipe Library's operations: the index, pins, replacement, the open load, and the admission checks (R50-R59). -/

namespace Sys2Proof.Machine

open Sys2Proof

/-- The entries that the index holds at most (R50). -/
def indexRoom : Nat := 200

/-- The slots of the step pool (R50). -/
def poolSlots : Nat := 1600

/-- The slots a revision occupies. -/
def Revision.size (r : Revision) : Nat := r.steps.length

/-- The entry of a recipe number. -/
def entryFor (l : List Entry) (number : Nat) : Option Entry := l.find? (fun e => e.number = number)

/-- Puts an entry in its place in number order, in the place of an entry of its number. -/
def insertEntry (e : Entry) : List Entry → List Entry
  | [] => [e]
  | x :: rest =>
    if e.number < x.number then e :: x :: rest
    else if e.number = x.number then e :: rest
    else x :: insertEntry e rest

/-- Takes the entry of a number out. -/
def removeEntry (number : Nat) (l : List Entry) : List Entry := l.filter (fun e => e.number ≠ number)

/-- The pins on both revisions of an entry. -/
def Entry.allPins (e : Entry) : Nat := e.pins + (e.retired.map Retired.pins).getD 0

/-- The slots that an entry's revisions occupy. -/
def Entry.size (e : Entry) : Nat := e.cur.size + (e.retired.map (fun r => r.rev.size)).getD 0

/-! ## Replacement (R51) -/

/-- What a replacement comes to. -/
inductive Installed where
  | new | replaced | retired (old : Nat) | busy | stale
deriving DecidableEq, Repr

/-- The replacement was not refused. -/
def Installed.ok : Installed → Bool
  | .busy | .stale => false
  | _ => true

/-- R51: what installing a revision of a number comes to. -/
def judgeInstall (l : List Entry) (number : Nat) (r : Revision) : Installed :=
  match entryFor l number with
  | none => .new
  | some e =>
    if r.revision ≤ e.cur.revision then .stale
    else if e.pins = 0 then .replaced
    else if e.retired.isNone then .retired e.cur.revision
    else .busy

/-- R51: the index entry after the replacement, and the slots that become free by it. -/
def installedEntry (l : List Entry) (number : Nat) (r : Revision) : Entry × Nat :=
  match entryFor l number with
  | none => ({ number := number, cur := r, pins := 0, retired := none, withdrawn := false }, 0)
  | some e =>
    if e.pins = 0 then ({ e with cur := r, withdrawn := false }, e.cur.size)
    else ({ e with cur := r, pins := 0, retired := some { rev := e.cur, pins := e.pins }, withdrawn := false }, 0)

/-- R51: installs a revision whose steps stand in reserved slots, or returns those slots to free. -/
def install (number : Nat) (r : Revision) (s : State) : State :=
  if (judgeInstall s.lib.index number r).ok then
    let e := installedEntry s.lib.index number r
    storePut (.recipe number r)
      { s with lib := { s.lib with index := insertEntry e.1 s.lib.index, free := s.lib.free + e.2, reserved := s.lib.reserved - r.size } }
  else { s with lib := { s.lib with free := s.lib.free + r.size, reserved := s.lib.reserved - r.size } }

/-! ## Pins (R52) -/

/-- An entry with no pins that is withdrawn leaves the index. -/
def settleEntry (e : Entry) (s : State) : State :=
  if e.withdrawn && e.allPins == 0 then
    { s with lib := { s.lib with index := removeEntry e.number s.lib.index, free := s.lib.free + e.size } }
  else { s with lib := { s.lib with index := insertEntry e s.lib.index } }

/-- R52: pins the current revision of a number. -/
def pin (number : Nat) (s : State) : State :=
  match entryFor s.lib.index number with
  | some e => { s with lib := { s.lib with index := insertEntry { e with pins := e.pins + 1 } s.lib.index } }
  | none => s

/-- R52: releases a pin on a revision of a number. -/
def releasePin (number revision : Nat) (s : State) : State :=
  match entryFor s.lib.index number with
  | none => s
  | some e =>
    if e.cur.revision = revision then settleEntry { e with pins := e.pins - 1 } s
    else
      match e.retired with
      | none => s
      | some r =>
        if r.pins ≤ 1 then
          settleEntry { e with retired := none } { s with lib := { s.lib with free := s.lib.free + r.rev.size } }
        else settleEntry { e with retired := some { r with pins := r.pins - 1 } } s

/-! ## The open load (R55, R56) -/

/-- The load is abandoned: its reserved slots become free and it closes. -/
def abandonLoad (s : State) : State :=
  match s.lib.load with
  | some l => { s with lib := { s.lib with load := none, free := s.lib.free + l.count, reserved := s.lib.reserved - l.count } }
  | none => s

/-! ## Admission (R59) -/

/-- The number lies in an open menu window of the bay. -/
def onMenu (s : State) (b : BayId) (number : Nat) : Bool :=
  match s.reg[b].commission with
  | some c => c.win1.admits number || c.win2.admits number
  | none => false

/-- R59: the Library's checks in their order, and the entry they pass. -/
def admissionCheck (s : State) (b : BayId) (number : Nat) : Except Reason Entry :=
  match (entryFor s.lib.index number).filter (fun e => !e.withdrawn) with
  | none => .error .absent
  | some e =>
    if !onMenu s b number then .error .menu
    else if ((s.reg[b].identity.map Identity.firmware).getD 0) < e.cur.minFirmware then .error .firmware
    else if e.cur.probe && ((s.reg[b].identity.map Identity.points).getD 0 == 0) then .error .probe
    else .ok e

end Sys2Proof.Machine
end

