-- ==== Sys2Proof/Machine/Heat.lean ====
section
/-! DEFINITION. The Heat Share Allocator's operations: the recompute (R103-R106), the sending of allowances (R105), standby and waking
(R108-R111), and its side of a bay that leaves READY (R113). -/

namespace Sys2Proof.Machine

open Sys2Proof

/-! ## The recompute -/

/-- The class of every bay, but for the bay `out` that teardown step 4 takes out of the allocation (R113). -/
def classIn (s : State) (out : Option BayId) (b : BayId) : Option HeatClass := if out = some b then none else heatClassOf s b

/-- The members of a class in ascending order. -/
def classMembers (s : State) (out : Option BayId) (c : HeatClass) : List Member :=
  (allBays.filter (fun b => decide (classIn s out b = some c))).map (fun b => { bay := b, rated := ratedOf s b })

/-- The division of the whole budget (R103). -/
def divisionOf (s : State) (out : Option BayId) : Division := divide s.heat.limit s.heat.ptr (classMembers s out)

/-- The allowance that a division gives a bay; a bay outside the allocation has 0. -/
def Division.allowance (d : Division) (c : Option HeatClass) (b : BayId) : Nat :=
  match c with
  | some k => (d.share k).of b
  | none => 0

/-- R106: what a recompute makes of a bay's stretch of starvation. -/
def HeatBay.starve (h : HeatBay) (starving : Bool) (sec : Nat) : HeatBay :=
  match starving, h.zeroSince with
  | true, none => { h with zeroSince := some sec, starvedReported := false, starveDue := some (sec + 300) }
  | true, some _ => h
  | false, _ => { h with zeroSince := none, starveDue := none }

/-- The allocation record of a bay after a recompute. -/
def allot (s : State) (out : Option BayId) (d : Division) (b : BayId) (h : HeatBay) : HeatBay :=
  let c := classIn s out b
  let a := d.allowance c b
  ({ h with allowance := a, cls := c }).starve (c.isSome && decide (s.reg[b].activity = Activity.cook) && a == 0) s.sec

/-- R105: the bays whose allowance differs from their sent value receive a HEAT-ALLOW. The sent value is set at once, also where a full queue leaves
the order only held (DESIGN CHOICE, assumption 43). -/
def sendAllowance (b : BayId) (s : State) : State :=
  let h := s.heat.bays[b]
  if takesOrders s b && decide (h.sent ≠ some h.allowance) then
    (placeOrder b (.heatAllow h.allowance) .plain s).setHeat b (fun x => { x with sent := some h.allowance })
  else s

/-- R103: a recompute, whole, on the records as they stand; then the changed allowances are sent. -/
def recomputeBut (out : Option BayId) (s : State) : State :=
  let d := divisionOf s out
  let t : State := { s with heat := { s.heat with ptr := d.pointers, bays := Vector.ofFn (fun b => allot s out d b s.heat.bays[b]) } }
  t.each allBays sendAllowance

def recompute (s : State) : State := recomputeBut none s

/-! ## Idle time, standby and waking -/

/-- R108: a sign of use. -/
def touchIdle (b : BayId) (s : State) : State := s.setHeat b (fun h => { h with idleRef := some s.sec })

/-- R111: a WAKE would be placed for this bay. -/
def wakes (s : State) (b : BayId) : Bool :=
  let r := s.reg[b]
  decide (r.state = .ready ∧ r.power ≠ .off) && (decide (r.power = .standby) || s.heat.bays[b].standbyRequested)

/-- R111: a wake cause. Standby requested is cleared also where the queue is full and the WAKE only held (DESIGN CHOICE, assumption 43). -/
def wakeCause (b : BayId) (s : State) : State :=
  let t := touchIdle b s
  if wakes s b then placeOrder b (.power false) .plain (t.setHeat b (fun h => { h with standbyRequested := false })) else t

/-- R109: the examination of the standby conditions. Standby requested is set also where the queue is full and the STANDBY only held (DESIGN CHOICE,
assumption 43). -/
def examineStandby (b : BayId) (s : State) : State :=
  match standbyFails s b with
  | some _ => s
  | none => placeOrder b (.power true) .plain (s.setHeat b (fun h => { h with standbyRequested := true }))

/-- The calendar at each of the 20 minute boundaries of the look-ahead, from the present minute on (R110). -/
def minutesFrom (c : Calendar) : Nat → List Calendar
  | 0 => []
  | n + 1 => c :: (match c.nextMinute with
    | some d => minutesFrom d n
    | none => [])

/-- R110: the entries whose windows are due for a bay. -/
def dueEntries (s : State) (b : BayId) : List (Fin 24) :=
  if s.clock.valid then
    (List.finRange 24).filter (fun n =>
      match s.sched.entries[n] with
      | some e => e.enabled && decide (e.kind ≠ .update) && e.mask.contains b && !windowOpen s n &&
          (minutesFrom s.clock.cal 20).any e.names
      | none => false)
  else []

/-- R110: one run of the look-ahead for a bay. An entry newly found due is a wake cause; the standby conditions are then examined. -/
def lookAhead (b : BayId) (s : State) : State :=
  let now := dueEntries s b
  let old := s.heat.bays[b].due
  let t := s.setHeat b (fun h => { h with due := now })
  examineStandby b (if now.any (fun n => !old.contains n) then wakeCause b t else t)

/-- The look-ahead for every bay. -/
def lookAheadAll (s : State) : State := s.each allBays lookAhead

/-- R110: a rewrite or a clear of an entry removes it from every bay's due entries before the look-ahead runs. -/
def dropDue (n : Fin 24) (s : State) : State :=
  s.each allBays (fun b t => t.setHeat b (fun h => { h with due := h.due.filter (fun m => m ≠ n) }))

/-! ## What other blocks hand over -/

/-- R104: heater demand that differs from the recorded value. -/
def takeDemand (b : BayId) (demand : Bool) (s : State) : State :=
  if s.heat.bays[b].demand = demand then s else recompute (s.setHeat b (fun h => { h with demand := demand }))

/-- R108, R111: the door of a status record. -/
def takeDoor (b : BayId) (doorOpen : Bool) (s : State) : State :=
  let prev := s.heat.bays[b].prevDoor
  let t := s.setHeat b (fun h => { h with prevDoor := some doorOpen })
  if doorOpen then wakeCause b t
  else if prev = some true then touchIdle b t
  else t

/-- R18, R108, R109: a change of power state. -/
def heatPower (b : BayId) (s : State) : State :=
  let t := s.setHeat b (fun h => { h with standbyRequested := false })
  recompute (if s.reg[b].power = .on then touchIdle b t else t)

/-- R20: a release. -/
def heatRelease (b : BayId) (s : State) : State := touchIdle b (recompute s)

/-- R108: entry to READY. -/
def heatReady (b : BayId) (s : State) : State := recompute (touchIdle b s)

/-- R113: the clearing of starvation and of standby requested for a bay that leaves READY. -/
def clearStarvation (b : BayId) (s : State) : State :=
  s.setHeat b (fun h => { h with zeroSince := none, starveDue := none, starvedReported := false, standbyRequested := false })

/-- R105, R108: entry to EMPTY or SETTLING. -/
def heatGone (b : BayId) (s : State) : State := s.setHeat b (fun h => { h with sent := none, prevDoor := none })

end Sys2Proof.Machine
end

