-- ==== Sys2Proof/Machine/Monitor.lean ====
section
/-! DEFINITION. The Service Monitor's operations on conditions, latches, calls and lanes (R149-R160). -/

namespace Sys2Proof.Machine

open Sys2Proof

/-! ## Calls -/

/-- The open call of a bay and a kind. -/
def callFor (s : State) (b : BayId) (k : EventKind) : Option Call := s.mon.calls.find? (fun c => decide (c.bay = b ∧ c.kind = k))

/-- The call of an id. -/
def callOf (s : State) (id : Nat) : Option Call := s.mon.calls.find? (fun c => c.id = id)

/-- Replaces the call of an id. -/
def State.setCall (s : State) (id : Nat) (f : Call → Call) : State :=
  { s with mon := { s.mon with calls := s.mon.calls.map (fun c => if c.id = id then f c else c) } }

/-- Ids 1-65,535, wrapping from the last to 1. -/
def nextCallId (n : Nat) : Nat := if n < 65535 then n + 1 else 1

/-- The first id from `n` on that no call holds, among `fuel` ids. -/
def freeCallId (calls : List Call) : Nat → Nat → Nat
  | 0, n => n
  | fuel + 1, n => if calls.any (fun c => c.id = n) then freeCallId calls fuel (nextCallId n) else n

/-- The calls that the queue holds at most. -/
def callRoom : Nat := 32

/-- R154: the id that the next raised call takes. -/
def raiseId (s : State) : Nat := freeCallId s.mon.calls callRoom s.mon.nextCall

/-- R154: a WAITING call joins the tail of the call queue. -/
def raiseCall (b : BayId) (k : EventKind) (s : State) : State :=
  let code := if k = .ovenFault then some s.mon.bays[b].latches[k.slot].code else none
  let c : Call := { id := raiseId s, bay := b, kind := k, severity := (settingOf s k).severity, raisedCode := code, latestCode := code,
                    raised := s.sec, state := .waiting, lane := none, number := 0, timeouts := 0, level := 0, deadline := none }
  { s with mon := { s.mon with calls := s.mon.calls ++ [c], nextCall := nextCallId c.id } }

/-! ## The arbiter (R155) -/

/-- The rank of a bay: the bay after the last dispatched one is first. -/
def bayRank (last b : BayId) : Nat := (b.val + 11 - last.val) % 12

/-- A call goes before another: by severity, then by bay rank; equal ones keep their order in the queue. -/
def Call.before (last : BayId) (c d : Call) : Bool :=
  d.severity < c.severity || (c.severity == d.severity && bayRank last c.bay < bayRank last d.bay)

/-- The best of the WAITING calls. -/
def bestCall (s : State) : Option Call :=
  (s.mon.calls.filter (fun c => decide (c.state = .waiting))).foldl
    (fun best c => match best with
      | none => some c
      | some d => if c.before s.mon.lastBay d then some c else some d) none

/-- The free lane of lowest number. -/
def freeLane (s : State) : Option (Fin 2) := [0, 1].find? (fun l => s.mon.lanes[l].isNone)

/-- The dispatch numbers run 1-255 and wrap from 255 to 1. -/
def nextDispatch (n : Nat) : Nat := if n < 255 then n + 1 else 1

/-- R155: the lane timer in seconds. -/
def laneTime : Nat := 120

/-- R155: one dispatch. -/
def dispatch (l : Fin 2) (c : Call) (s : State) : State :=
  let n := nextDispatch c.number
  let t := s.setCall c.id (fun x => { x with state := .dispatched, lane := some l, number := n })
  let u : State := { t with mon := { t.mon with
    lanes := upd t.mon.lanes l (fun _ => some { call := c.id, due := s.sec + laneTime }), lastBay := c.bay } }
  queueNotice .callDispatch
    [.num c.id, .num n, .num (l.val + 1), bayTok c.bay, wd c.kind.word, .num c.severity, .num c.level] u

/-- A free lane takes the best WAITING call. -/
def arbiterOnce (s : State) : State :=
  match freeLane s, bestCall s with
  | some l, some c => dispatch l c s
  | _, _ => s

/-- R155: the arbiter's run; two lanes can take no more than two calls. -/
def arbiter (s : State) : State := arbiterOnce (arbiterOnce s)

/-- A lane is freed of the call it holds. -/
def freeCallLane (id : Nat) (s : State) : State :=
  { s with mon := { s.mon with lanes := Vector.ofFn (fun l => if (s.mon.lanes[l]).any (fun x => x.call = id) then none else s.mon.lanes[l]) } }

/-! ## Latches -/

/-- Replaces a latch. -/
def State.setLatch (s : State) (b : BayId) (k : EventKind) (f : Latch → Latch) : State :=
  s.setMon b (fun m => { m with latches := upd m.latches k.slot f })

/-- The condition value of a level kind. -/
def condition (s : State) (b : BayId) (k : EventKind) : Bool := s.mon.bays[b].conds[k.slot]

/-- The EVENT notice of a latch (R150). -/
def eventNotice (b : BayId) (k : EventKind) (call : String) (id : Nat) (s : State) : State :=
  let x := s.mon.bays[b].latches[k.slot]
  queueNotice .event
    [bayTok b, wd k.word, .num (settingOf s k).severity, wd (if x.forced then "FORCED" else "DETECTED"), wd call, .num id,
     .num (if k = .ovenFault then x.code else 0)] s

/-- R150, R153: a set latch of an enabled kind is told to the host and acts by its kind's route. -/
def announce (b : BayId) (k : EventKind) (s : State) : State :=
  match (settingOf s k).route with
  | .notice => eventNotice b k "NONE" 0 s
  | .call =>
    match callFor s b k with
    | some c => eventNotice b k "JOINED" c.id s
    | none =>
      if s.mon.calls.length < callRoom then
        arbiter (eventNotice b k "RAISED" (raiseId s) (raiseCall b k (s.setLatch b k (fun x => { x with owed := false }))))
      else eventNotice b k "DEFERRED" 0 (s.setLatch b k (fun x => { x with owed := true }))

/-- R150: a clear latch is newly set. -/
def newlySet (b : BayId) (k : EventKind) (forced : Bool) (s : State) : State :=
  let code := if k = .ovenFault ∧ condition s b k = true then s.mon.bays[b].code else 0
  let t := s.setLatch b k (fun _ => { set := true, time := s.sec, forced := forced, code := code, owed := false })
  if (settingOf s k).enabled then announce b k t else t

/-- R150: an occurrence, a condition that has become true, or FORCE-EVENT. -/
def latch (b : BayId) (k : EventKind) (forced : Bool) (s : State) : State :=
  if s.mon.bays[b].latches[k.slot].set then s else newlySet b k forced s

/-- An occurrence of an edge kind (R149). -/
def report (b : BayId) (k : EventKind) (s : State) : State := latch b k false s

/-- R149: a level condition takes a value. -/
def setCondition (b : BayId) (k : EventKind) (v : Bool) (s : State) : State :=
  if condition s b k = v then s
  else
    let t := s.setMon b (fun m => { m with conds := upd m.conds k.slot (fun _ => v) })
    if v then latch b k false t else t

/-- The latch is cleared with its call-owed mark; the clearing of a severity-3 latch is handed to the Allocator (R150). -/
def clearLatch (b : BayId) (k : EventKind) (s : State) : State :=
  let t := s.setLatch b k (fun x => { x with set := false, owed := false })
  if s.mon.bays[b].latches[k.slot].set && decide ((settingOf s k).severity = 3) then examineStandby b t else t

/-- A latch of a level kind whose condition is true is not cleared (R151, R160). -/
def latchPersists (s : State) (b : BayId) (k : EventKind) : Bool :=
  s.mon.bays[b].latches[k.slot].set && k.level && condition s b k

/-- R151: acknowledges one latch. -/
def acknowledge (b : BayId) (k : EventKind) (s : State) : State := if latchPersists s b k then s else clearLatch b k s

/-- R149: the fault code of a status record. A set latch, and an open call, take a code that differs while the condition stays true, and no other
(DEDUCED, assumption 19). -/
def takeFault (b : BayId) (code : Nat) (s : State) : State :=
  if code = 0 then setCondition b .ovenFault false s
  else
    let t := s.setMon b (fun m => { m with code := code })
    if condition s b .ovenFault then
      if s.mon.bays[b].code = code then s
      else
        let u := t.setLatch b .ovenFault (fun x => { x with code := code })
        match callFor u b .ovenFault with
        | some c => u.setCall c.id (fun x => { x with latestCode := some code })
        | none => u
    else setCondition b .ovenFault true t

/-- R154: the rescan of one latch after a close. -/
def rescanLatch (b : BayId) (k : EventKind) (s : State) : State :=
  let x := s.mon.bays[b].latches[k.slot]
  if s.mon.calls.length < callRoom && x.set && x.owed && (callFor s b k).isNone then
    let t := s.setLatch b k (fun y => { y with owed := false })
    if (settingOf s k).enabled && decide ((settingOf s k).route = .call) then arbiter (raiseCall b k t) else t
  else s

/-- R154: the rescan, by bay and within a bay by kind. -/
def rescan (s : State) : State := s.each allBays (fun b t => t.each EventKind.all (rescanLatch b))

/-- R158: the escalation deadline of a severity, in seconds. -/
def escalationTime (severity : Nat) : Nat :=
  match severity with
  | 3 => 240 * 60
  | 2 => 1440 * 60
  | _ => 4320 * 60

/-- R45: the HOLD record as the bay's hold stands; a bay with no hold has no record. -/
def storeHold (b : BayId) (s : State) : State :=
  let m := s.mon.bays[b]
  storeRecord .profile (holdPos b)
    (match m.hold with
     | .nothing => none
     | k => some (.hold b k m.releasePending)) s

end Sys2Proof.Machine
end

