-- ==== Sys2Proof/Machine/Probe.lean ====
section
/-! DEFINITION. The stages of the Probe Arithmetic Unit (R88-R99), as functions of numbers. -/

namespace Sys2Proof.Machine

open Sys2Proof

/-- Stage 0 (R90): the interval since the previous sample, in milliseconds, clamped to 200-10,000. -/
def probeInterval (prev now : Nat) : Nat := clampTo 200 (now - prev) 10000

/-- A core point that R30 leaves valid: within −20.0…130.0 °C (the invalid marker 8000h lies outside). -/
def coreValid (z : Int) : Bool := withinT (-200) z 1300

/-- Stage 1 (R91): the lowest valid core point. -/
def effectiveCore (points : List Int) : Option Int := (points.filter coreValid).min?

/-- Stage 2 (R93): the setpoint in tenths, a whole number of degrees: the core plus the delta, clamped to 30 °C and the lesser of the
cabinet target and the bay ceiling in whole degrees, rounded half up. -/
def deltaSetpoint (core delta target ceiling : Int) : Int :=
  let c := min target ceiling / 10
  (clampInt 300 (core + delta) (c * 10) + 5) / 10 * 10

/-- Stage 3 (R95): the credit after a record whose core stands at `core`. -/
def creditAfter (credit : Nat) (core base : Int) (dt : Nat) : Nat :=
  if base ≤ core then min (credit + ((core - base).toNat * dt) / 1000) 1000000 else credit

/-- Stage 4 (R96): the rate sample, in thousandths of a degree per second. -/
def rateSample (core prev : Int) (dt : Nat) : Int :=
  clampInt (-5000) (Int.tdiv ((core - prev) * 100000) dt) 5000

/-- Stage 4 (R97): the smoothed rate after a sample. -/
def smoothRate (rate : Option Int) (sample : Int) : Int :=
  match rate with
  | none => sample
  | some r => r + Int.tdiv (sample - r) 8

/-- The least whole number not below `a / b`. -/
def divUp (a b : Nat) : Nat := (a + b - 1) / b

/-- Stage 5 (R98): the core part of the estimate. -/
def corePart (core target : Int) (rate : Option Int) : Option Nat :=
  if target ≤ core then some 0
  else match rate with
    | some r => if 0 < r then some (divUp ((target - core) * 100).toNat r.toNat) else none
    | none => none

/-- °C·min in tenth-degree-seconds (R95). -/
def creditUnits (target : Nat) : Nat := target * 600

/-- Stage 5 (R98): the hold part of the estimate. -/
def holdPart (core base : Int) (credit target : Nat) : Option Nat :=
  if target ≤ credit then some 0
  else if core ≤ base then none
  else some (divUp (target - credit) (core - base).toNat)

/-- Stage 5 (R99): the estimate of a step from its parts, at most 21,600 s. -/
def estimateOf (e : StepEnd) (core : Int) (credit : Nat) (rate : Option Int) : Option Nat :=
  match e with
  | .time _ => none
  | .core target => (corePart core target rate).map (fun n => min n 21600)
  | .coreHold target base c =>
    match corePart core target rate, holdPart core base credit (creditUnits c) with
    | some x, some y => some (min (max x y) 21600)
    | _, _ => none

end Sys2Proof.Machine
end

