-- ==== Sys2Proof/Machine/Cooking.lean ====
section
/-! DEFINITION. The Run Engine's operations up to a run's end: admission (R64-R66), step orders (R69), acceptance (R70, R71), and the calls of
the Probe Arithmetic Unit (R88). -/

namespace Sys2Proof.Machine

open Sys2Proof

/-! ## Notices -/

/-- R85: a RUN-STEP notice; the estimate it carries becomes the reported estimate. -/
def runStep (b : BayId) (event : String) (s : State) : State :=
  match s.runs.runs[b] with
  | none => s
  | some r =>
    queueNotice .runStep [bayTok b, .num r.id, .num r.stepIndex, wd event, optNum r.estimate]
      (s.setRun b (fun x => { x with reported := x.estimate }))

/-! ## Step orders -/

/-- R69: the setpoint of a step's STEP order. -/
def stepSetpoint (s : State) (b : BayId) (st : Step) (latest : Option Int) : Int :=
  match st.control with
  | .fixed => min st.target (ceilingOf s b)
  | .delta =>
    match latest with
    | some core => deltaSetpoint core st.delta st.target (ceilingOf s b)
    | none => 300

/-- R69: the STEP order of a run's current step. -/
def stepOrder (r : Run) (st : Step) (setpoint : Int) : OrderBody :=
  .step r.id r.stepIndex (some st.kind) setpoint (if st.kind = .combi then st.humidity else 0) st.fan

/-- R69: the current step is ordered as a new step. Until its acceptance its elapsed time stands at 0 (R74). -/
def orderStep (b : BayId) (s : State) : State :=
  match liveRun s b with
  | none => s
  | some r =>
    match r.step with
    | none => s
    | some st =>
      let t := s.setRun b (fun x =>
        { x with orderedId := none, accepted := false, reorder := false, elapsed := .zero, maxDue := none,
                 clamped := decide (ceilingOf s b < st.target) })
      recompute (placeOrder b (stepOrder r st (stepSetpoint s b st r.latestCore)) .step t)

/-- R71: the current step is placed again with the current setpoint; it does not begin again. -/
def reorderStep (b : BayId) (r : Run) (s : State) : State :=
  match r.step with
  | none => s
  | some st =>
    placeOrder b (stepOrder r st r.setpoint) .step
      (s.setRun b (fun x => { x with accepted := false, reorder := true, elapsed := x.elapsed.stop s.now }))

/-! ## Admission -/

/-- R65: the first run id from `n` on that no record holds, among `fuel` ids. -/
def freeRunId (runs : List Run) : Nat → Nat → Nat
  | 0, n => n
  | fuel + 1, n => if runs.any (fun r => r.id = n) then freeRunId runs fuel (nextOrderId n) else n

/-- R65: the id that the next run takes. -/
def takeRunId (s : State) : Nat := freeRunId (s.runs.runs.toList.filterMap id) 12 s.runs.nextId

/-- R64: the record at its creation; the setpoint, the clamped flag (no) and the soil added (0) before they are first set are DESIGN CHOICE
(assumption 34). -/
def Run.create (id number : Nat) (rev : Revision) (sec : Nat) : Run :=
  { id := id, number := number, rev := rev, state := .starting, resume := .starting, stepIndex := 1, accepted := false,
    orderedId := none, reorder := false, setpoint := 300, clamped := false, elapsed := .zero, pauseTotal := 0, pausedAt := 0,
    coreReached := none, credit := 0, rate := none, estimate := none, reported := none, probeLost := false, prompt := none,
    wakeDue := none, graceDue := none, maxDue := none, runawaySince := none, runawayDue := none, reason := .nothing,
    admitted := sec, started := none, ended := none, soilAdded := 0, sample := none, latestCore := none }

/-- R66: the checks of an admission in their order. -/
def runCheck (s : State) (b : BayId) (number : Nat) : Except Reason Entry :=
  match claimCheck s b with
  | some r => .error r
  | none => if hygieneBlocks s.clean[b].hygiene then .error .hygiene else admissionCheck s b number

/-- R66, R68: an admission whose checks have passed. -/
def startRun (b : BayId) (e : Entry) (s : State) : State :=
  let id := takeRunId s
  let r := Run.create id e.number e.cur s.sec
  let t := (pin e.number s).setReg b (fun x => { x with activity := .cook })
  let u : State := { t with runs := { t.runs with runs := upd t.runs.runs b (fun _ => some r), nextId := nextOrderId id } }
  if s.reg[b].power = .standby then
    recompute (wakeCause b (u.setRun b (fun x => { x with wakeDue := some (s.sec + 60) })))
  else orderStep b u

/-- A run that waits for its first STEP to be ordered (R68, R76). -/
def awaitsFirstStep (s : State) (b : BayId) (r : Run) : Bool :=
  r.stepIndex == 1 && r.orderedId.isNone && !(s.line.bays[b].held.any (fun h => h.body.isRunStep)) &&
    (decide (r.state = .starting) || (decide (r.state = .paused) && decide (r.resume = .starting)))

/-- R68: the power state of a run's bay changes to ON. -/
def runPowerOn (b : BayId) (s : State) : State :=
  match liveRun s b with
  | none => s
  | some r =>
    let t := s.setRun b (fun x => { x with wakeDue := none })
    if awaitsFirstStep s b r then orderStep b t else t

/-! ## Acceptance -/

/-- R70: what the beginning of a step makes of the run record, but for its state. -/
def Run.begin (r : Run) (now : Nat) : Run :=
  { r with accepted := true, elapsed := if r.state = .paused then .zero else Stopwatch.zero.start now,
           credit := 0, rate := none, estimate := none, coreReached := none, runawaySince := none, runawayDue := none,
           probeLost := false, sample := none,
           maxDue := if r.inCoreStep then (r.step.map (fun st => st.maximum * 1000)) else none }

/-- R70: the first step's acceptance starts the run. -/
def Run.startIfFirst (r : Run) (sec : Nat) : Run := if r.stepIndex = 1 then { r with started := some sec } else r

/-- R70: a STARTING run goes to RUNNING, and a PAUSED one will. -/
def Run.toRunning (r : Run) : Run :=
  match r.state with
  | .starting => { r with state := .running }
  | .paused => { r with resume := .running }
  | _ => r

/-- R70, R71: the acceptance of a STEP order. -/
def acceptStep (b : BayId) (id : Nat) (s : State) : State :=
  match liveRun s b with
  | none => s
  | some r =>
    if r.orderedId = some id ∧ r.accepted = false then
      if r.reorder then
        s.setRun b (fun x => { x with accepted := true, reorder := false, elapsed := if x.state = .paused then x.elapsed else x.elapsed.start s.now })
      else
        let t := runStep b "BEGIN" (s.setRun b (fun x => x.begin s.now))
        let u := t.setRun b (fun x => (x.startIfFirst s.sec).toRunning)
        if r.state = .starting then recompute u else u
    else s

/-! ## The arithmetic of a record (R88) -/

/-- The step's end has the probe arithmetic's stages 0 and 3 to 5. -/
def Step.probeCall (st : Step) : Bool := decide (st.control = .delta) || !st.fin.isTime

/-- R90: the interval of a call, where there is a previous sample. -/
def Run.interval (r : Run) (now : Nat) : Option Nat := r.sample.map (fun p => probeInterval p.time now)

/-- R95: stage 3. -/
def Run.creditFor (r : Run) (st : Step) (core : Int) (dt : Option Nat) : Nat :=
  match st.fin, dt with
  | .coreHold _ base _, some d => creditAfter r.credit core base d
  | _, _ => r.credit

/-- R96, R97: stage 4. -/
def Run.rateFor (r : Run) (st : Step) (core : Int) (dt : Option Nat) : Option Int :=
  match st.fin, r.sample, dt with
  | .time _, _, _ => r.rate
  | _, some p, some d => some (smoothRate r.rate (rateSample core p.core d))
  | _, _, _ => r.rate

/-- R88: stages 0 and 3 to 5 on a record with an effective core, and the record stored as the previous sample. -/
def Run.measure (r : Run) (st : Step) (core : Int) (now : Nat) : Run :=
  let dt := r.interval now
  let credit := r.creditFor st core dt
  let rate := r.rateFor st core dt
  { r with credit := credit, rate := rate, estimate := estimateOf st.fin core credit rate, sample := some { core := core, time := now } }

/-- R94: a DELTA setpoint that differs from the current one by at least 1.0 °C is sent. It is recorded as the current one also where the queue is
full and the SETPOINT only held (DESIGN CHOICE, assumption 43). -/
def sendSetpoint (b : BayId) (sp : Int) (s : State) : State :=
  match s.runs.runs[b] with
  | some r =>
    if 10 ≤ (sp - r.setpoint).natAbs then placeOrder b (.setpoint sp) .plain (s.setRun b (fun x => { x with setpoint := sp })) else s
  | none => s

/-- R85: a new estimate is reported when it differs from the reported one by at least 10 s or in presence. -/
def estimateNews (old new : Option Nat) : Bool :=
  match old, new with
  | some a, some c => decide (a + 10 ≤ c ∨ c + 10 ≤ a)
  | none, none => false
  | _, _ => true

/-- R85: the ESTIMATE notice where it is called for. -/
def reportEstimate (b : BayId) (s : State) : State :=
  match s.runs.runs[b] with
  | some r => if estimateNews r.reported r.estimate then runStep b "ESTIMATE" s else s
  | none => s

/-- The core target of a step whose end has one. -/
def StepEnd.coreTarget : StepEnd → Option Int
  | .time _ => none
  | .core t => some t
  | .coreHold t _ _ => some t

/-- R72 (2): the core-reached capture. -/
def Run.capture (r : Run) (st : Step) (core : Int) (sec : Nat) : Run :=
  if r.coreReached.isNone && (st.fin.coreTarget).any (fun t => t ≤ core) then { r with coreReached := some sec } else r

/-- R72 (1, 2), R80, R92: a call of the Probe Arithmetic Unit with one record. The EVENT notice of PROBE_LOST stands before the RUN-STEP ESTIMATE of
the same record (DESIGN CHOICE, assumption 42). -/
def probeCall (b : BayId) (st : Step) (points : List Int) (s : State) : State :=
  match effectiveCore points with
  | some core =>
    let t := s.setRun b (fun r => r.measure st core s.now)
    let u := if st.control = .delta then sendSetpoint b (deltaSetpoint core st.delta st.target (ceilingOf s b)) t else t
    reportEstimate b (u.setRun b (fun r => r.capture st core s.sec))
  | none =>
    let t := s.setRun b (fun r => { r with estimate := none, sample := none })
    let lost := !st.fin.isTime && (s.runs.runs[b]).any (fun r => !r.probeLost)
    let u := if lost then report b .probeLost (t.setRun b (fun r => { r with probeLost := true })) else t
    reportEstimate b u

/-- R72 (3): the end condition of a step at a record. -/
def stepOver (r : Run) (st : Step) (core : Option Int) (cabinet : Int) (now : Nat) : Bool :=
  match st.fin with
  | .time secs => (decide (st.kind = .preheat) && decide (r.setpoint - 20 ≤ cabinet)) || decide (secs * 1000 ≤ r.elapsed.read now)
  | .core target => core.any (fun c => target ≤ c)
  | .coreHold target _ credit => core.any (fun c => target ≤ c) && decide (creditUnits credit ≤ r.credit)

end Sys2Proof.Machine
end

