-- ==== Sys2Proof/Machine/Cleanings.lean ====
section
/-! DEFINITION. The Cleaning Sequencer's operations: the hygiene record (R130, R131), the start of a cleaning (R117-R119), cooling and phases
(R120, R121), the forced rinse (R124), doses (R123), and window cleanings (R132, R133). -/

namespace Sys2Proof.Machine

open Sys2Proof

/-! ## The hygiene record -/

/-- R131: the three conditions of a bay as its hygiene record stands, reported in the order of R131's table (DESIGN CHOICE, assumption 51). -/
def reportHygiene (b : BayId) (s : State) : State :=
  let h := s.clean[b].hygiene
  setCondition b .detergentLow (detergentLow h) (setCondition b .rinseOwed h.rinseOwed (setCondition b .cleanDue (cleanDue h) s))

/-- R130: the hygiene record changes, is written, and its conditions are reported. -/
def setHygiene (b : BayId) (f : Hygiene → Hygiene) (s : State) : State :=
  let h := f s.clean[b].hygiene
  reportHygiene b (storePut (.hygiene b h) (s.setClean b (fun c => { c with hygiene := h })))

/-- The highest soil count (R130). -/
def soilMax : Nat := 1250

/-- R130: the soil after a run's soil is added. -/
def Hygiene.addSoil (h : Hygiene) (n : Nat) : Hygiene := { h with soil := min (h.soil + n) soilMax }

/-- R130: the amount the soil count rises by. -/
def soilRise (h : Hygiene) (n : Nat) : Nat := (h.addSoil n).soil - h.soil

/-! ## Phases -/

/-- The phase that a state runs. -/
def CleanState.phase : CleanState → PhaseKind
  | .washing => .wash
  | .rinsing => .rinse
  | .drying => .dry
  | _ => .cool

/-- R39, R121: a CLEAN-PHASE still queued, or held, is withdrawn. -/
def withdrawPhase (b : BayId) (s : State) : State :=
  let l := s.line.bays[b]
  if l.queue.any (fun o => o.body.is .cleanPhase) || l.held.any (fun h => h.body.is .cleanPhase) then withdraw b [.cleanPhase] s else s

/-- R121: entry to WASHING, RINSING or DRYING. -/
def enterPhase (b : BayId) (st : CleanState) (s : State) : State :=
  match liveClean s b with
  | none => s
  | some c =>
    let t := (withdrawPhase b s).setCleanRec b (fun x =>
      { x with state := st, orderedId := none, accepted := false, complete := false, phaseTime := .zero, overrunAt := none })
    placeOrder b (.cleanPhase st.phase (c.program.seconds st) (if st = .washing then dosesFor s b c.program else 0)) .cleanPhase t

/-- R120: entry to COOLING, with its limit of 30 min of unpaused time. -/
def enterCooling (b : BayId) (s : State) : State :=
  placeOrder b (.cleanPhase .cool 1800 0) .cleanPhase
    (s.setCleanRec b (fun x => { x with state := .cooling, orderedId := none, accepted := false, coolTime := Stopwatch.zero.start s.now }))

/-- The first phase of a program. -/
def Program.first : Program → CleanState
  | .rinse => .rinsing
  | _ => .washing

/-- R120, R104: a cooling ends; entry to WASHING is an event of the allocation, and entry to RINSING is not. -/
def enterFirst (b : BayId) (c : CleanRec) (s : State) : State :=
  let t := enterPhase b c.program.first s
  if c.program.first = .washing then recompute t else t

/-- R119: leaving REQUESTED. -/
def leaveRequested (b : BayId) (s : State) : State :=
  match liveClean s b with
  | none => s
  | some c => if (s.clean[b].cabinet).any (fun t => 700 < t) then enterCooling b s else enterPhase b c.program.first s

/-- R117: the record at its creation. -/
def CleanRec.create (p : Program) (o : Origin) (sec : Nat) : CleanRec :=
  { program := p, origin := o, state := .requested, forced := none, orderedId := none, accepted := false, phaseTime := .zero,
    complete := false, graceDue := none, paused := false, dosesSeen := 0, dispensed := false, wakeDue := none, coolTime := .zero,
    overrunAt := none, outcome := .nothing, reason := .nothing, started := sec, ended := none }

/-- R118, R119: a cleaning whose checks have passed. -/
def startCleaning (b : BayId) (p : Program) (o : Origin) (s : State) : State :=
  let t := (s.setReg b (fun r => { r with activity := .clean })).setClean b (fun c => { c with record := some (.create p o s.sec) })
  recompute (
    if s.reg[b].power = .standby then wakeCause b (t.setCleanRec b (fun c => { c with wakeDue := some (s.sec + 60) }))
    else leaveRequested b t)

/-- R121: the acceptance of a CLEAN-PHASE. In COOLING, which has no phase of its own to count, phase elapsed stays 0 after it (DESIGN CHOICE,
assumption 56). -/
def acceptPhase (b : BayId) (id : Nat) (s : State) : State :=
  match liveClean s b with
  | none => s
  | some c =>
    if c.orderedId = some id ∧ c.accepted = false then
      s.setCleanRec b (fun x =>
        { x with accepted := true, phaseTime := if x.state.isPhase && !x.paused then x.phaseTime.start s.now else x.phaseTime })
    else s

/-- The duration of the present phase in milliseconds. -/
def CleanRec.duration (c : CleanRec) : Nat := c.program.seconds c.state * 1000

/-- R121: the two conditions of a phase's end hold, and the record is not paused. -/
def CleanRec.phaseOver (c : CleanRec) (now : Nat) : Bool :=
  c.state.isPhase && c.accepted && c.complete && !c.paused && decide (c.duration ≤ c.phaseTime.read now)

/-- R124: a forced rinse. -/
def forceRinse (b : BayId) (o : CleanOutcome) (r : CleanReason) (s : State) : State :=
  recompute (enterPhase b .rinsing (s.setCleanRec b (fun c => { c with forced := some (o, r) })))

/-- R125: rinse completion. -/
def rinseCompletion (b : BayId) (c : CleanRec) (s : State) : State :=
  setHygiene b (fun h => { h with rinseOwed := false, soil := if c.forced.isSome then h.soil else c.program.soilAfter h.soil }) s

/-! ## Doses -/

/-- R123: the growth of a dose counter since its baseline. -/
def doseGrowth (old new : Nat) : Nat := (new + 65536 - old) % 65536

/-- R123: doses seen after a growth; past the field's range a free value. -/
def dosesAfter (seen growth : Nat) : Nat := if seen + growth ≤ 65535 then seen + growth else Config.dosesBeyondRange (seen + growth)

/-- R123: the dose counter of a status record. -/
def takeDoses (b : BayId) (counter : Nat) (s : State) : State :=
  let t := s.setClean b (fun c => { c with baseline := some counter })
  match s.clean[b].baseline with
  | none => t
  | some old =>
    let g := doseGrowth old counter
    if g = 0 then t
    else
      let live := (liveClean s b).isSome
      let u := if live then
          t.setCleanRec b (fun c => { c with dosesSeen := dosesAfter c.dosesSeen g, dispensed := c.dispensed || decide (c.state = .washing) })
        else t
      setHygiene b (fun h => { h with detergent := h.detergent - g, rinseOwed := true }) u

/-! ## Window cleanings -/

/-- R132: the pending cleaning of a bay after a window found it BUSY. -/
def mergePending (old : Option PendingClean) (new : PendingClean) : PendingClean :=
  match old with
  | some o => if o.program.rank < new.program.rank then new else o
  | none => new

/-- R132: a CLEAN window opens over one bay. One found HELD, or refused DETERGENT, is reported missed. A cleaning already pending on the bay is
merged with the new one where the bay is BUSY, and stays as it was in every other row: HELD, DETERGENT, STATE and OFF, and where the new entry's
cleaning starts (DESIGN CHOICE, assumption 53). -/
def windowClean (e : Fin 24) (p : Program) (threshold : Nat) (b : BayId) (s : State) : State :=
  if s.clean[b].hygiene.soil < threshold then s
  else
    match cleanCheck s b p with
    | none => startCleaning b p (.window e) s
    | some .busy =>
      s.setClean b (fun c =>
        { c with pendingWindow := some (mergePending c.pendingWindow { program := p, entry := e, threshold := threshold }) })
    | some .held => report b .cleanWindowMissed s
    | some .detergent => report b .cleanWindowMissed s
    | some _ => s

/-- R133: a pending window cleaning is tried again. -/
def retryPending (b : BayId) (s : State) : State :=
  match s.clean[b].pendingWindow with
  | none => s
  | some p =>
    let gone := s.setClean b (fun c => { c with pendingWindow := none })
    if s.clean[b].hygiene.soil < p.threshold then gone
    else
      match cleanCheck s b p.program with
      | none => startCleaning b p.program (.window p.entry) gone
      | some _ => s

/-- R133: the last CLEAN window covering a bay closes. -/
def cleanWindowLeft (b : BayId) (s : State) : State :=
  match s.clean[b].pendingWindow with
  | none => s
  | some _ => report b .cleanWindowMissed (s.setClean b (fun c => { c with pendingWindow := none }))

end Sys2Proof.Machine
end

