-- ==== Sys2Proof/Machine/Transfers.lean ====
section
/-! DEFINITION. The Update Distributor's operations up to a transfer's end: passes and retries (R174), block flow (R176, R177) and the apply
handshake's offer (R178). -/

namespace Sys2Proof.Machine

open Sys2Proof

/-- The slot of a channel. -/
def slotOf (s : State) (c : Fin 4) : Slot := s.dist.slots[s.dist.channels[c].slot]

/-- The declared length of a channel's slot. -/
def lengthOf (s : State) (c : Fin 4) : Nat := (slotOf s c).header.length

def setProgress (c : Fin 4) (b : BayId) (p : Progress) (s : State) : State :=
  s.setChannel c (fun x => { x with progress := upd x.progress b (fun _ => p) })

/-- A TRANSFER notice of one bay's entry; its reason is NONE unless it is FAILED. -/
def transferNotice (c : Fin 4) (b : BayId) (p : Progress) (s : State) : State :=
  queueNotice .transfer ([.num (c.val + 1), bayTok b] ++ p.toks ++ (match p with | .failed _ => [] | _ => [noneTok])) s

/-- An entry takes a final value and is told to the host. -/
def settleProgress (c : Fin 4) (b : BayId) (p : Progress) (s : State) : State := transferNotice c b p (setProgress c b p s)

/-- How many entries of a channel satisfy a test. -/
def countProgress (x : Channel) (f : Progress → Bool) : Nat := (allBays.filter (fun b => f x.progress[b])).length

/-- Lowers the user count of a slot (R171). -/
def dropUser (k : Fin 4) (s : State) : State := s.setSlot k (fun x => { x with users := x.users - 1 })

/-- R180: a RUNNING channel with no current bay and only final entries becomes DONE. -/
def judgeDone (c : Fin 4) (s : State) : State :=
  let x := s.dist.channels[c]
  if x.state = .running ∧ x.current = none ∧ allBays.all (fun b => (x.progress[b]).settled) = true then
    queueNotice .transfer
      [.num (c.val + 1), .num 0, wd "DONE", .num (countProgress x (fun p => decide (p = .done))),
       .num (countProgress x (fun p => match p with | .failed _ => true | _ => false)), .num (countProgress x (fun p => decide (p = .missed)))]
      (dropUser x.slot (s.setChannel c (fun y => { y with state := .done })))
  else s

/-! ## Block flow -/

/-- The BLOCKs that stand in a bay's queue. -/
def queuedBlocks (s : State) (b : BayId) : Nat := (s.line.bays[b].queue.filter (fun o => o.body.is .block)).length

/-- R176: a BLOCK of the transfer may be placed now. -/
def mayPlace (s : State) (c : Fin 4) (b : BayId) : Bool :=
  let x := s.dist.channels[c]
  decide (x.state = .running) && decide (x.current = some b) && decide (x.progress[b] = .transferring) && x.discardTaken && !x.masked &&
    decide (x.offset < lengthOf s c) && decide (s.line.bays[b].queue.length < queueDepth) &&
    (if x.demand then decide (queuedBlocks s b < x.window) else queuedBlocks s b == 0)

/-- The bytes of a whole BLOCK. -/
def blockSize : Nat := 128

/-- R176: places one BLOCK with the next bytes of the slot. -/
def placeBlock (c : Fin 4) (b : BayId) (s : State) : State :=
  let x := s.dist.channels[c]
  let n := min blockSize (lengthOf s c - x.offset)
  placeOrder b (.block x.offset (s.store.stagingBytes x.slot x.offset n)) .plain (s.setChannel c (fun y => { y with offset := y.offset + n }))

/-- R176: places as many BLOCKs as the mode allows, at most `fuel` of them. -/
def placeBlocksUpTo (c : Fin 4) (b : BayId) : Nat → State → State
  | 0, s => s
  | fuel + 1, s => if mayPlace s c b then placeBlocksUpTo c b fuel (placeBlock c b s) else s

/-- A queue of depth 6 takes no more than six. -/
def placeBlocks (c : Fin 4) (b : BayId) (s : State) : State := placeBlocksUpTo c b queueDepth s

/-- The block flow of the transfer that a bay's queue has space for. -/
def flowBlocks (b : BayId) (s : State) : State :=
  match channelOf s b with
  | some c => placeBlocks c b s
  | none => s

/-- R35, R176: a report of space in a bay's queue: the producers that hold orders place them, and then the block flow goes on; the two
rules do not order them (DESIGN CHOICE, assumption 63). -/
def reportSpace (b : BayId) (s : State) : State := flowBlocks b (offerHeld b s)

/-- R177: the acknowledgement deadline from the oldest delivered block that is not acknowledged. -/
def Channel.reload (x : Channel) : Channel := { x with ackDue := x.delivered.head?.map (fun d => d.time + 2000) }

/-- R177: the delivery report of a BLOCK; one whose end the oven has acknowledged already has no deadline. -/
def deliverBlock (b : BayId) (offset n : Nat) (s : State) : State :=
  match channelOf s b with
  | none => s
  | some c =>
    s.setChannel c (fun x => Channel.reload
      { x with delivered := if x.acked < offset + n then x.delivered ++ [{ stop := offset + n, time := s.now }] else x.delivered,
               lastEnd := offset + n, missSince := false })

/-- R38: a BLOCK discarded by a SAFE counts as never delivered; the flow goes on from the lowest discarded offset. -/
def discardBlock (b : BayId) (offset : Nat) (s : State) : State :=
  match channelOf s b with
  | none => s
  | some c =>
    if s.dist.channels[c].progress[b] = .transferring then
      s.setChannel c (fun x => Channel.reload
        { x with offset := min x.offset offset, delivered := x.delivered.filter (fun d => d.stop ≤ offset), lastEnd := min x.lastEnd offset })
    else s

/-! ## The offer -/

/-- R178: every block acknowledged on an unmasked channel: the entry becomes APPLYING and APPLY-OFFER is placed. -/
def offerIfComplete (c : Fin 4) (b : BayId) (s : State) : State :=
  let x := s.dist.channels[c]
  if x.progress[b] = .transferring ∧ x.discardTaken = true ∧ x.masked = false ∧ x.acked = lengthOf s c then
    let t := (setProgress c b .applying s).setChannel c (fun y => { y with ackDue := none, delivered := [] })
    placeOrder b (.applyOffer (slotOf s c).header.crc (slotOf s c).header.revision) .plain (withdraw b [.block] t)
  else s

/-- R178: the acceptance of APPLY-OFFER loads the offer deadline. -/
def acceptOffer (b : BayId) (s : State) : State :=
  match channelOf s b with
  | some c =>
    if s.dist.channels[c].progress[b] = .applying then s.setChannel c (fun x => { x with offerDue := some (s.sec + 30) }) else s
  | none => s

/-- R176: the acceptance of the transfer's DISCARD-IMAGE, from which BLOCKs are placed. -/
def acceptDiscard (b : BayId) (id : Nat) (s : State) : State :=
  match channelOf s b with
  | some c =>
    if s.dist.channels[c].discardId = some id ∧ s.dist.channels[c].progress[b] = .transferring ∧ s.dist.channels[c].discardTaken = false then
      placeBlocks c b (s.setChannel c (fun x => { x with discardTaken := true }))
    else s
  | none => s

/-! ## Passes -/

/-- R176: a transfer begins in the step of its claim. -/
def beginTransfer (c : Fin 4) (b : BayId) (s : State) : State :=
  let t := (setProgress c b .transferring s).setChannel c (fun x =>
    { x with current := some b, offset := 0, acked := 0, misses := 0, discardId := none, discardTaken := false, window := 1, delivered := [],
             lastEnd := 0, missSince := false, ackDue := none, offerDue := none })
  let u := transferNotice c b .transferring (t.setReg b (fun r => { r with activity := .update }))
  recompute (placeOrder b .discardImage (.discard c) u)

/-- A waiting entry takes a final value, which may end the last hindrance to the bay's standby (R109). -/
def endWaiting (c : Fin 4) (b : BayId) (p : Progress) (s : State) : State := examineStandby b (settleProgress c b p s)

/-- R174, R20: a pass visits one bay; `released` is the bay whose release set the pass off. An entry whose bay is BUSY becomes DEFERRED by R174's table.
R20, which speaks of the bay that is released, says of an entry of that bay that fails BUSY that it stays as it was. Where the two meet, the
model follows R20 (DESIGN CHOICE, assumption 36). -/
def passVisit (released : Option BayId) (c : Fin 4) (b : BayId) (s : State) : State :=
  let x := s.dist.channels[c]
  let r := s.reg[b]
  if x.state = .running ∧ x.current = none ∧ x.masked = false ∧ (x.progress[b]).waiting = true then
    if x.windowRequired && !covered s .update b then s
    else if r.state ≠ .ready then endWaiting c b (.failed .state) s
    else if r.identity.map Identity.model ≠ some (slotOf s c).header.target then endWaiting c b (.failed .model) s
    else if s.mon.bays[b].hold ≠ .nothing then endWaiting c b (.failed .held) s
    else if r.power = .off then setProgress c b .deferred s
    else if r.activity ≠ .nothing then (if released = some b then s else setProgress c b .deferred s)
    else if r.power = .standby then wakeCause b (setProgress c b .deferred s)
    else beginTransfer c b s
  else s

/-- R174, R180: a pass of a channel, which is then judged. -/
def pass (released : Option BayId) (c : Fin 4) (s : State) : State := judgeDone c (s.each allBays (passVisit released c))

/-- R174: a retry event; `released` is the bay whose release it is, where it is one. -/
def retryPasses (released : Option BayId) (s : State) : State := s.each allFour (pass released)

/-! ## Misses -/

/-- R177: a miss below the third resends from the offset given. -/
def resend (c : Fin 4) (b : BayId) (offset : Nat) (s : State) : State :=
  let t := s.setChannel c (fun x => { x with offset := offset, delivered := [], ackDue := none })
  placeBlocks c b (withdraw b [.block] t)

/-- R175: a bay no longer covered by an UPDATE window; of several bays and channels the lower bay acts first, and of one bay the lower channel (DESIGN
CHOICE, assumption 67). -/
def windowMissed (b : BayId) (s : State) : State :=
  s.each allFour (fun c t =>
    let x := t.dist.channels[c]
    if x.state = .running ∧ x.windowRequired = true ∧ (x.progress[b]).waiting = true then
      judgeDone c (endWaiting c b .missed t)
    else t)

end Sys2Proof.Machine
end

