-- ==== Sys2Proof/Machine/Endings.lean ====
section
/-! DEFINITION. SAFE and the orders placed again behind it (R37, R38), the handing on of a release (R20), and the endings of a run (R83), of a
cleaning (R129) and of a transfer (R180), with the taking of a hold (R161, R162, R164). -/

namespace Sys2Proof.Machine

open Sys2Proof

/-! ## SAFE -/

/-- R38: the condition that produced a POWER still holds. -/
def powerWanted (s : State) (b : BayId) (toStandby : Bool) : Bool :=
  if toStandby then (standbyConditions s b).all (fun c => c.2 || c.1 == "REQUESTED") else decide (s.reg[b].power = .standby)

/-- R38: a producer is told that an order of its was discarded by a SAFE, and places it again where its work still wants it. -/
def discardReport (b : BayId) (o : Order) (s : State) : State :=
  match o.body with
  | .identify => if s.reg[b].state = .interrogating then placeOrder b .identify .plain s else s
  | .safe => s
  | .step run index mode _ _ _ =>
    if mode.isSome && (liveRun s b).any (fun r => r.id == run && r.stepIndex == index) then placeOrder b o.body .step s else s
  | .setpoint _ =>
    match liveRun s b with
    | some r => if r.accepted || r.reorder then placeOrder b (.setpoint r.setpoint) .plain s else s
    | none => s
  | .heatAllow _ => placeOrder b (.heatAllow s.heat.bays[b].allowance) .plain s
  | .power toStandby => if powerWanted s b toStandby then placeOrder b o.body .plain s else s
  | .cleanPhase phase _ _ =>
    if (liveClean s b).any (fun c => decide (c.orderedId = some o.id) && decide (c.state.phase = phase)) then
      placeOrder b o.body .cleanPhase s
    else s
  | .block offset _ => discardBlock b offset s
  | .applyOffer .. => if applying s b then placeOrder b o.body .plain s else s
  | .applyGo => if applying s b then placeOrder b o.body .applyGo s else s
  | .discardImage =>
    match channelOf s b with
    | some c =>
      if s.dist.channels[c].discardId = some o.id ∧ s.dist.channels[c].progress[b] = .transferring ∧ s.dist.channels[c].discardTaken = false then
        placeOrder b .discardImage (.discard c) s
      else s
    | none => s
  | .panelDeny _ => s

/-- R37: a SAFE empties the queue and stands alone at its head; then the discards are reported, and after them the space (DESIGN CHOICE,
assumption 46). -/
def placeSafe (b : BayId) (s : State) : State :=
  if takesOrders s b then
    let l := s.line.bays[b]
    let safe : Order := { id := l.nextId, body := .safe, delivered := false }
    let t := s.setLine b (fun x => { x with queue := [safe], nextId := nextOrderId x.nextId })
    reportSpace b (t.each l.queue (discardReport b))
  else s

/-! ## Releases -/

/-- How a release is handed on: at once; at once, but with no pass (R182); or later, by the change in whose course it is made (R20). -/
inductive HandOn where
  | now | noPass | later
deriving DecidableEq, Repr

/-- R20: a release is handed to the Allocator, the Distributor and the Sequencer. What of the bay fails BUSY then stays as it was: an entry by
`passVisit`, a pending window cleaning by `retryPending`. -/
def handOn (h : HandOn) (b : BayId) (s : State) : State :=
  match h with
  | .now => retryPending b (retryPasses (some b) (heatRelease b s))
  | .noPass => retryPending b (heatRelease b s)
  | .later => s

/-- R20: the activity becomes NONE. -/
def release (b : BayId) (s : State) : State := s.setReg b (fun r => { r with activity := .nothing })

/-! ## A run's end -/

/-- The order that an ending places. -/
inductive EndOrder where
  | idleStep | safe | nothing
deriving DecidableEq, Repr

/-- R84: the factor of a soil class. -/
def soilFactor (c : Nat) : Nat :=
  match c with
  | 0 => 0
  | 1 => 1
  | 2 => 2
  | _ => 4

/-- R84: the cook minutes are the minutes begun. -/
def cookMinutes (r : Run) : Nat :=
  match r.started, r.ended with
  | some a, some z => (z - a - r.pauseTotal + 59) / 60
  | _, _ => 0

/-- R84: the soil a run gives. -/
def runSoil (r : Run) : Nat := soilFactor r.rev.soilClass * cookMinutes r

/-- R77, R83: the time spent in PAUSED after started is added to the pause total. -/
def Run.countPause (r : Run) (sec : Nat) : Run :=
  match r.state, r.started with
  | .paused, some t => { r with pauseTotal := r.pauseTotal + (sec - max r.pausedAt t) }
  | _, _ => r

/-- R83 (1), R89: the record of a run that becomes final. Its step elapsed counts no further (DESIGN CHOICE, assumption 48). -/
def Run.close (r : Run) (st : RunState) (reason : RunReason) (now : Nat) : Run :=
  { r.countPause (now / 1000) with state := st, reason := reason, ended := some (now / 1000), elapsed := r.elapsed.stop now, wakeDue := none,
                                   graceDue := none, prompt := none, maxDue := none, runawayDue := none, sample := none, latestCore := none }

/-- The orders the Run Engine holds for a run that is aborted are dropped (R82, R83). -/
def dropHeldRun (b : BayId) (s : State) : State :=
  s.setLine b (fun l => { l with held := l.held.filter (fun h => !h.body.isRunStep && !h.body.is .setpoint) })

/-- R83 (2): the idle STEP, a SAFE, or no order at all. What is still held of a run that ends DONE, a re-ordered STEP or a SETPOINT, stays held ahead of
the idle STEP (DESIGN CHOICE, assumption 26). -/
def endOrder (e : EndOrder) (b : BayId) (runId : Nat) (s : State) : State :=
  match e with
  | .idleStep => placeOrder b (.step runId 0 none 0 0 0) .plain s
  | .safe => placeSafe b (dropHeldRun b s)
  | .nothing => dropHeldRun b s

/-- The word of a final run's outcome. -/
def outcomeWord (st : RunState) : String := st.word

/-- R83: a run becomes final. -/
def endRun (b : BayId) (st : RunState) (reason : RunReason) (e : EndOrder) (h : HandOn) (s : State) : State :=
  match liveRun s b with
  | none => s
  | some r =>
    let final := r.close st reason s.now
    let soil := runSoil final
    let rise := soilRise s.clean[b].hygiene soil
    let t := endOrder e b r.id (s.setRun b (fun _ => final))
    let u := setHygiene b (fun x => x.addSoil soil) (releasePin r.number r.rev.revision t)
    let v := handOn h b (release b (u.setRun b (fun x => { x with soilAdded := rise })))
    queueNotice .runEnd
      [bayTok b, .num r.id, wd (outcomeWord st), wd reason.word, .num r.number, .num r.rev.revision, .num r.stepIndex, .num rise] v

/-- An ending by a deadline or a request, with SAFE. -/
def abortRun (b : BayId) (reason : RunReason) (s : State) : State := endRun b .aborted reason .safe .now s

/-! ## A cleaning's end -/

/-- R129 (1): the record of a cleaning that becomes final. Its phase elapsed and its cooling time stand still from then on, and `paused` stays as it
was (DESIGN CHOICE, assumption 57). -/
def CleanRec.close (c : CleanRec) (st : CleanState) (o : CleanOutcome) (r : CleanReason) (now : Nat) : CleanRec :=
  { c with state := st, outcome := o, reason := r, ended := some (now / 1000), wakeDue := none, graceDue := none, overrunAt := none,
           phaseTime := c.phaseTime.stop now, coolTime := c.coolTime.stop now }

/-- A CLEAN-PHASE that the Sequencer holds is dropped (R129). -/
def dropHeldPhase (b : BayId) (s : State) : State :=
  s.setLine b (fun l => { l with held := l.held.filter (fun h => !h.body.is .cleanPhase) })

/-- R129: a cleaning becomes final. -/
def endClean (b : BayId) (st : CleanState) (o : CleanOutcome) (r : CleanReason) (safe : Bool) (h : HandOn) (s : State) : State :=
  match liveClean s b with
  | none => s
  | some c =>
    let t := dropHeldPhase b (s.setCleanRec b (fun x => x.close st o r s.now))
    let u := handOn h b (release b (if safe then placeSafe b t else t))
    let hy := u.clean[b].hygiene
    queueNotice .cleanEnd [bayTok b, wd st.word, wd r.word, wd c.program.word, wd o.word, .num hy.soil, .yn hy.rinseOwed] u

/-- R121: DRYING ends the record DONE, with what a forced rinse stored. -/
def endDrying (b : BayId) (c : CleanRec) (s : State) : State :=
  match c.forced with
  | some (o, r) => endClean b .done o r false .now s
  | none => endClean b .done .complete .nothing false .now s

/-- R121, R125: the end of the present phase. -/
def endPhase (b : BayId) (s : State) : State :=
  match liveClean s b with
  | none => s
  | some c =>
    match c.state with
    | .washing => recompute (enterPhase b .rinsing s)
    | .rinsing => recompute (enterPhase b .drying (rinseCompletion b c s))
    | .drying => endDrying b c s
    | _ => s

/-! ## Holds -/

/-- The bay's hold, its release-pending flag, and the record written (R45, R161). -/
def setHold (b : BayId) (k : HoldKind) (releasePending : Bool) (s : State) : State :=
  storeHold b (s.setMon b (fun m => { m with hold := k, releasePending := releasePending }))

/-- R161: a take on a bay whose job has been ended; a bay held AUTOMATION keeps its hold. -/
def takeHold (b : BayId) (s : State) : State :=
  if s.mon.bays[b].hold = .automation then s else setHold b .technician false s

/-- R162: the deferred take acts when the apply has ended. -/
def actDeferred (b : BayId) (s : State) : State :=
  let m := s.mon.bays[b]
  if m.takeDeferred then
    let t := s.setMon b (fun x => { x with takeDeferred := false })
    if m.service = some true then takeHold b t else t
  else s

/-! ## A transfer's end -/

/-- R180 (3): DISCARD-IMAGE is placed for these reasons. -/
def FailReason.discards : FailReason → Bool
  | .noAck | .image | .noOffer | .held | .cleared => true
  | _ => false

/-- R180 (4): UPDATE_FAILED is reported for these reasons. -/
def FailReason.reports : FailReason → Bool
  | .noAck | .image | .noOffer | .rolledBack => true
  | _ => false

/-- A test on the reason of a FAILED entry. -/
def Progress.failedWith (p : Progress) (f : FailReason → Bool) : Bool :=
  match p with
  | .failed r => f r
  | _ => false

/-- A DISCARD-IMAGE still held when its transfer ends is kept (R35), but no later transfer takes it for its own (assumption 39). -/
def HeldOrder.disown (h : HeldOrder) : HeldOrder :=
  match h.note with
  | .discard _ => { h with note := .plain }
  | _ => h

/-- R180: a TRANSFERRING or APPLYING entry ends. CHANNELS-CLEAR takes no judging (R182). -/
def endTransfer (c : Fin 4) (b : BayId) (p : Progress) (judge : Bool) (h : HandOn) (s : State) : State :=
  let wasApplying := decide (s.dist.channels[c].progress[b] = .applying)
  let t := (setProgress c b p s).setChannel c (fun x => { x with ackDue := none, offerDue := none, delivered := [] })
  let t := withdraw b [.block, .applyOffer, .applyGo] (t.setLine b (fun l => { l with grace := none, held := l.held.map HeldOrder.disown }))
  let t := if p.failedWith FailReason.discards then placeOrder b .discardImage .plain t else t
  let t := if p.failedWith FailReason.reports then report b .updateFailed t else t
  let t := transferNotice c b p (t.setChannel c (fun x => { x with current := none }))
  let t := release b (if judge then judgeDone c t else t)
  handOn h b (if wasApplying then actDeferred b t else t)

/-- R177: a miss; the third consecutive one ends the transfer. -/
def blockMiss (c : Fin 4) (b : BayId) (offset : Nat) (s : State) : State :=
  let t := s.setChannel c (fun x => { x with misses := x.misses + 1, missSince := true })
  if t.dist.channels[c].misses < 3 then resend c b offset t else endTransfer c b (.failed .noAck) true .now t

/-- Ends the job of a bay that a hold is placed on (R161, R164). A transfer that is APPLYING is left alone. -/
def endJobHeld (b : BayId) (s : State) : State :=
  match s.reg[b].activity with
  | .nothing => s
  | .cook => endRun b .aborted .held .safe .later s
  | .clean => endClean b .interrupted .nothing .held ((liveClean s b).any (fun c => decide (c.state ≠ .requested))) .later s
  | .update =>
    match channelOf s b with
    | some c => if s.dist.channels[c].progress[b] = .transferring then endTransfer c b (.failed .held) true .later s else s
    | none => s

/-- R20: the release owed by a job that was ended in the placing of a hold is handed on once the hold is set. -/
def handOnIfEnded (before : Activity) (b : BayId) (s : State) : State :=
  if before ≠ .nothing ∧ s.reg[b].activity = .nothing then handOn .now b s else s

end Sys2Proof.Machine
end

