-- ==== Sys2Proof/Machine/Registry.lean ====
section
/-! DEFINITION. The Bay Registry's operations: bay states (R2), teardown (R21), LOST (R11), presence (R3-R6), interrogation (R7, R8), the power
state (R18), and the commissioning sequence's ends (R14, R15). -/

namespace Sys2Proof.Machine

open Sys2Proof

/-! ## Bay states -/

/-- R149, R162, R123: what entry to EMPTY, SETTLING or LOST ends. -/
def ovenSilent (b : BayId) (s : State) : State :=
  ((setCondition b .ovenFault false s).setMon b (fun m => { m with service := none })).setClean b (fun c => { c with baseline := none })

/-- R7, R18, R105: entry to INTERROGATING. The IDENTIFY is placed before the power state becomes OFF and the HEAT-ALLOW follows (DESIGN CHOICE,
assumption 76). -/
def enterInterrogating (b : BayId) (s : State) : State :=
  let t := placeOrder b .identify .plain (s.setReg b (fun r => { r with pollCount := 0, stepCheck := true, power := .off }))
  let u := t.setHeat b (fun h => { h with sent := none })
  sendAllowance b (if s.reg[b].power = .off then u else heatPower b u)

/-- What entry to a bay state brings with it. -/
def enterState (b : BayId) (st old : BayState) (s : State) : State :=
  match st with
  | .empty | .settling => heatGone b (emptyQueue b (ovenSilent b s))
  | .lost => (setCondition b .lineExpired true (ovenSilent b s)).setLine b (fun l => { l with lostFrom := s.now, lostDue := false })
  | .interrogating => enterInterrogating b s
  | .ready => heatReady b s
  | .refused => setCondition b .supplyMismatch true s
  | .commissioning => if old = .ready then recompute (clearStarvation b s) else s
  | .uncommissioned => s

/-- What leaving a bay state ends (R10, R11). -/
def leaveState (b : BayId) (old : BayState) (s : State) : State :=
  match old with
  | .lost => setCondition b .lineExpired false s
  | .refused => setCondition b .supplyMismatch false s
  | _ => s

/-- R2: a change of a bay's state. Its BAY notice is queued first, then comes what leaving the old state ends, and then what entry to the new one brings
(DESIGN CHOICE, assumption 76). -/
def setBayState (b : BayId) (st : BayState) (cause : BayCause) (s : State) : State :=
  let old := s.reg[b].state
  if old = st then s
  else
    enterState b st old (leaveState b old
      (queueNotice .bay [bayTok b, wd st.word, wd cause.word] (s.setReg b (fun r => { r with state := st }))))

/-! ## Teardown -/

/-- R15: the sequence is closed and its abandonment reported. -/
def abandonContext (b : BayId) (s : State) : State :=
  match s.reg[b].context with
  | some _ => report b .commissionAbandoned (s.setReg b (fun r => { r with context := none }))
  | none => s

/-- R21 (2): the job holding the bay is ended by its owner; no order is queued. -/
def endJobTorn (b : BayId) (lost : Bool) (s : State) : State :=
  match s.reg[b].activity with
  | .nothing => s
  | .cook => endRun b .aborted (if lost then .ovenLost else .ovenRemoved) .nothing .later s
  | .clean => endClean b .interrupted .nothing (if lost then .ovenLost else .ovenRemoved) false .later s
  | .update =>
    match channelOf s b with
    | some c => endTransfer c b (.failed .removed) true .later s
    | none => s

/-- R21: the four steps of a teardown. -/
def teardown (b : BayId) (lost : Bool) (s : State) : State :=
  let t := emptyQueue b (endJobTorn b lost (abandonContext b s))
  let u := (t.setLine b (fun l => { l with misses := 0, grace := none })).setReg b (fun r => { r with pollCount := 0, stepCheck := false })
  recomputeBut (some b) (clearStarvation b u)

/-- R21, R20: a teardown, the new state, and then the release it owes, which sets the idle reference by R108, though R113 keeps it (DESIGN CHOICE,
assumption 49). -/
def tearDownTo (b : BayId) (lost owed : Bool) (st : BayState) (cause : BayCause) (s : State) : State :=
  let t := setBayState b st cause (teardown b lost s)
  if owed || decide (s.reg[b].activity ≠ .nothing) then handOn .now b t else t

/-- R11: a bay goes to LOST. -/
def goLost (b : BayId) (owed : Bool) (s : State) : State := tearDownTo b true owed .lost .expired s

/-! ## Presence -/

/-- R4: presence becomes PRESENT. -/
def becomePresent (b : BayId) (s : State) : State :=
  let t := s.setReg b (fun r => { r with presence := .present, settleDue := some (s.now + 2000), partialDue := none, settled := false })
  setCondition b .presencePartial false (setBayState b .settling .present t)

/-- R5: presence becomes PARTIAL. -/
def becomePartial (b : BayId) (s : State) : State :=
  let r := s.reg[b]
  let t := s.setReg b (fun x => { x with presence := .partly })
  let u := if r.presence = .present ∧ r.state ≠ .settling then tearDownTo b false false .settling .partly t
           else setBayState b .settling .partly t
  u.setReg b (fun x => { x with identity := none, partialDue := some (s.now + 2000), settleDue := none, settled := false })

/-- R6: presence becomes ABSENT. -/
def becomeAbsent (b : BayId) (s : State) : State :=
  let r := s.reg[b]
  let t := s.setReg b (fun x => { x with presence := .absent })
  let u := if r.state ≠ .empty ∧ r.state ≠ .settling then tearDownTo b false false .empty .absent t
           else setBayState b .empty .absent t
  let v := u.setReg b (fun x =>
    { x with identity := none, power := .off, settleDue := none, partialDue := none, settled := false, pollCount := 0, stepCheck := false })
  setCondition b .presencePartial false (if r.power = .off then v else heatPower b v)

/-- R3: the contacts of a bay as they are read. -/
def readContacts (b : BayId) (s : State) : State :=
  let p := (s.pins[b]).classify
  if s.reg[b].presence = p then s
  else match p with
    | .present => becomePresent b s
    | .partly => becomePartial b s
    | .absent => becomeAbsent b s

/-! ## Interrogation -/

/-- R7: a poll of an INTERROGATING bay has ended. -/
def countPoll (b : BayId) (s : State) : State :=
  if s.reg[b].state = .interrogating then
    let t := s.setReg b (fun r => { r with pollCount := r.pollCount + 1 })
    if 3 ≤ s.reg[b].pollCount + 1 then goLost b false t else t
  else s

/-- R10: the supply check decides between READY and REFUSED. -/
def supplyOutcome (b : BayId) (i : Identity) (supply circuitMax : Nat) (pass : BayCause) (s : State) : State :=
  if supplyFits i supply circuitMax then setBayState b .ready pass s else setBayState b .refused .supply s

/-- R45: the removal of a bay's commission record. -/
def dropCommission (b : BayId) (s : State) : State :=
  storeRecord .profile (commissionPos b) none (s.setReg b (fun r => { r with commission := none }))

/-- R8: an identity record is taken for an INTERROGATING bay. -/
def takeIdentity (b : BayId) (i : Identity) (s : State) : State :=
  let t := s.setReg b (fun r => { r with identity := some i })
  match s.reg[b].commission with
  | none => setBayState b .uncommissioned .new t
  | some c =>
    if c.serial = i.serial then supplyOutcome b i c.prov.supply c.prov.circuitMax .matched t
    else setBayState b .uncommissioned .new (dropCommission b t)

/-! ## The power state -/

/-- R18, R119, R133: a change to ON as the Sequencer takes it. -/
def cleanPowerOn (b : BayId) (s : State) : State :=
  let t := match liveClean s b with
    | some c =>
      if c.state = .requested ∧ c.wakeDue.isSome = true then
        let u := leaveRequested b (s.setCleanRec b (fun x => { x with wakeDue := none }))
        if (liveClean u b).any (fun x => decide (x.state = .washing)) then recompute u else u
      else s
    | none => s
  retryPending b t

/-- R18: the power state of a status record. -/
def takePower (b : BayId) (p : Power) (s : State) : State :=
  if s.reg[b].power = p then s
  else
    let t := heatPower b (s.setReg b (fun r => { r with power := p }))
    if p = .on then cleanPowerOn b (retryPasses none (runPowerOn b t)) else t

/-! ## Commissioning -/

/-- R45: the COMMISSION record as the bay holds it. -/
def storeCommission (b : BayId) (c : Commission) (s : State) : State := storePut (.commission b c) s

/-- R14: the commission record that a completed sequence builds. -/
def CommContext.build (c : CommContext) (serial : Txt) : Commission :=
  let lim := c.limits.getD (3000, true)
  let opt := c.options.getD ({ base := 1, limit := 999 }, { base := 0, limit := 0 }, true)
  { serial := serial,
    prov := { supply := c.supply, circuitMax := c.circuitMax, water := c.water, ceiling := lim.1, standby := lim.2, detergent := opt.2.2 },
    win1 := opt.1, win2 := opt.2.1 }

/-- R14: the supply check of a completion passes. -/
def completionPasses (s : State) (b : BayId) (c : CommContext) : Bool :=
  (s.reg[b].identity).any (fun i => supplyFits i c.supply c.circuitMax)

/-- R14: the sequence completes. -/
def completeContext (b : BayId) (c : CommContext) (s : State) : State :=
  let t := s.setReg b (fun r => { r with context := none })
  match s.reg[b].identity with
  | some i =>
    if supplyFits i c.supply c.circuitMax then
      let rec' := c.build i.serial
      setBayState b .ready .commissioned (storeCommission b rec' (t.setReg b (fun r => { r with commission := some rec' })))
    else setBayState b .refused .supply t
  | none => setBayState b .refused .supply t

/-- R15: an expiry or a SEQUENCE refusal abandons the sequence; the bay returns to its state before it. -/
def abandonTo (b : BayId) (s : State) : State :=
  match s.reg[b].context with
  | some c => setBayState b c.before .abandoned (abandonContext b s)
  | none => s

end Sys2Proof.Machine
end

