-- ==== Sys2Proof/Machine/Records.lean ====
section
/-! DEFINITION. What each block makes of its parts of a status record (R33): the Service Monitor, the Run Engine (R68-R80), the Cleaning
Sequencer (R120-R127), the Update Distributor (R176-R179) and the panel's quick table (R58). -/

namespace Sys2Proof.Machine

open Sys2Proof

/-- A status record after the corrections of R30. -/
structure Report where
  doorOpen : Bool
  service : Bool
  demand : Bool
  complete : Bool
  power : Power
  cabinet : Int
  humidity : Nat
  cores : List Int
  fault : Nat
  dose : Nat
  stepId : Nat
  freeBlocks : Nat
  acknowledged : Nat
  image : Nat
  panel : Option Nat
deriving DecidableEq, Repr

/-- The power states of R196. -/
def powerOf (n : Nat) : Power :=
  match n with
  | 0 => .off
  | 1 => .on
  | _ => .standby

/-- R30: the corrections of a record that is not malformed; points beyond the count are not read. -/
def correct (r : StatusBody) : Report :=
  { doorOpen := r.doorOpen, service := r.service, demand := r.demand, complete := r.complete, power := powerOf r.power,
    cabinet := clampInt (-200) r.cabinet 3200, humidity := min r.humidity 100, cores := r.cores.take r.coreCount, fault := r.fault,
    dose := r.dose, stepId := r.stepId, freeBlocks := min r.freeBlocks 8, acknowledged := r.acknowledged, image := r.image,
    panel := if r.panel = 255 then none else some r.panel }

/-! ## Service Monitor -/

/-- R162: entry to local SERVICE acts as a forced take, or is deferred during an apply. -/
def serviceTake (b : BayId) (s : State) : State :=
  if s.mon.bays[b].hold = .automation then s
  else if applying s b then s.setMon b (fun m => { m with takeDeferred := true })
  else handOnIfEnded s.reg[b].activity b (takeHold b (endJobHeld b s))

/-- R162: leaving local SERVICE. -/
def serviceLeave (b : BayId) (s : State) : State :=
  let t := s.setMon b (fun m => { m with takeDeferred := false })
  if s.mon.bays[b].hold = .technician then setHold b .technician true t else t

/-- R162: the local mode of a status record. -/
def takeMode (b : BayId) (service : Bool) (s : State) : State :=
  let prev := s.mon.bays[b].service
  let t := if service then (if prev = some true then s else serviceTake b s) else (if prev = some true then serviceLeave b s else s)
  t.setMon b (fun m => { m with service := some service })

/-! ## Run Engine -/

/-- R74, R75: the run goes on after a step's end or a prompt's completion. -/
def advanceRun (b : BayId) (s : State) : State :=
  match liveRun s b with
  | none => s
  | some r =>
    if r.stepIndex < r.rev.steps.length then
      orderStep b (s.setRun b (fun x => { x with state := .running, prompt := none, stepIndex := x.stepIndex + 1 }))
    else endRun b .done .nothing .idleStep .now (s.setRun b (fun x => { x with prompt := none }))

/-- R74, R75: a step's end condition is met. -/
def endStep (b : BayId) (st : Step) (s : State) : State :=
  let t := runStep b "END" (s.setRun b (fun x => { x with maxDue := none }))
  if st.prompt then
    recompute (runStep b "PROMPT" (t.setRun b (fun x => { x with state := .prompting, prompt := some (false, s.sec + 900) })))
  else advanceRun b t

/-- R72: a record of a RUNNING run with its step accepted and the door CLOSED. -/
def useRecord (b : BayId) (st : Step) (rec' : Report) (s : State) : State :=
  let t := if st.probeCall then probeCall b st rec'.cores s else s
  match liveRun t b with
  | some r => if stepOver r st (effectiveCore rec'.cores) rec'.cabinet s.now then endStep b st t else t
  | none => t

/-- R71, R72: a door-CLOSED record of a RUNNING run. -/
def runningRecord (b : BayId) (rec' : Report) (s : State) : State :=
  match liveRun s b with
  | none => s
  | some r =>
    if !r.accepted then s
    else if rec'.stepId ≠ r.id then reorderStep b r s
    else match r.step with
      | some st => useRecord b st rec' s
      | none => s

/-- R76: the door pauses the run. -/
def pauseRun (b : BayId) (s : State) : State :=
  recompute (runStep b "PAUSE" (s.setRun b (fun x =>
    { x with state := .paused, resume := x.state, graceDue := some (s.sec + s.runs.doorGrace), pausedAt := s.sec, elapsed := x.elapsed.stop s.now })))

/-- R77: the door resumes the run. -/
def resumeRun (b : BayId) (s : State) : State :=
  recompute (runStep b "RESUME" (s.setRun b (fun x =>
    { x.countPause s.sec with state := x.resume, graceDue := none, sample := none,
                              elapsed := if x.accepted then x.elapsed.start s.now else x.elapsed })))

/-- R75: a record in PROMPTING. One that shows another step id (R71) and completes the prompt first places the ended step again and then goes on, so
two STEP orders are placed (DESIGN CHOICE, assumption 41). -/
def promptingRecord (b : BayId) (r : Run) (rec' : Report) (s : State) : State :=
  if rec'.doorOpen then s.setRun b (fun x => { x with prompt := x.prompt.map (fun p => (true, p.2)) })
  else
    let t := if r.accepted && rec'.stepId != r.id then reorderStep b r s else s
    if r.prompt.any (fun p => p.1) then advanceRun b t else t

/-- R79: the runaway watch. -/
def runawayWatch (cabinet : Int) (sec : Nat) (r : Run) : Run :=
  if r.state ≠ .starting ∧ r.started.isSome = true then
    if r.setpoint + 300 < cabinet then
      (match r.runawaySince with
       | none => { r with runawaySince := some sec, runawayDue := some (sec + 60) }
       | some _ => r)
    else { r with runawaySince := none, runawayDue := none }
  else r

/-- R68: a record of a run's bay that reports STANDBY while no wake is awaited. -/
def runStandby (b : BayId) (r : Run) (s : State) : State :=
  if r.wakeDue.isNone then wakeCause b (s.setRun b (fun x => { x with wakeDue := some (s.sec + 60) })) else s

/-- R71, R72, R75-R77: the door and what the run's state makes of the record. -/
def runDoor (b : BayId) (r : Run) (rec' : Report) (s : State) : State :=
  match r.state with
  | .starting => if rec'.doorOpen then pauseRun b s else s
  | .running => if rec'.doorOpen then pauseRun b s else runningRecord b rec' s
  | .prompting => promptingRecord b r rec' s
  | .paused =>
    if rec'.doorOpen then s
    else
      let t := resumeRun b s
      if r.resume = .running then runningRecord b rec' t else t
  | .done => s
  | .aborted => s

/-- The Run Engine's use of a status record. No rule orders its parts: power OFF ends the run before any other use, and the runaway watch and a STANDBY
record's WAKE come before what the door, the step's end or a prompt does (DESIGN CHOICE, assumption 64). -/
def runRecord (b : BayId) (rec' : Report) (s : State) : State :=
  match liveRun s b with
  | none => s
  | some r =>
    if rec'.power = .off then abortRun b .powerOff s
    else
      let t := if rec'.power = .standby then runStandby b r s else s
      runDoor b r rec' (t.setRun b (runawayWatch rec'.cabinet s.sec))

/-! ## Cleaning Sequencer -/

/-- R126: the door pauses a cleaning. -/
def CleanRec.pause (c : CleanRec) (now due : Nat) : CleanRec :=
  { c with paused := true, graceDue := some due, phaseTime := c.phaseTime.stop now, coolTime := c.coolTime.stop now }

/-- R126: the door resumes a cleaning; the counts go on. -/
def CleanRec.unpause (c : CleanRec) (now : Nat) : CleanRec :=
  { c with paused := false, graceDue := none,
           phaseTime := if c.state.isPhase && c.accepted then c.phaseTime.start now else c.phaseTime,
           coolTime := if c.state = .cooling then c.coolTime.start now else c.coolTime }

/-- R126: the door of a status record, for a cleaning past REQUESTED. -/
def CleanRec.door (c : CleanRec) (doorOpen : Bool) (now due : Nat) : CleanRec :=
  if doorOpen then (if c.paused then c else c.pause now due) else (if c.paused then c.unpause now else c)

/-- R121: a record that reports the phase complete. -/
def CleanRec.note (c : CleanRec) (complete : Bool) : CleanRec :=
  if complete && c.state.isPhase && c.accepted then { c with complete := true } else c

/-- R120, R121: what a record ends: a cooling whose temperature is reached, or a phase whose two conditions hold. -/
def cleanProgress (b : BayId) (cabinet : Int) (s : State) : State :=
  match liveClean s b with
  | none => s
  | some c =>
    if c.state = .cooling then
      if !c.paused && c.accepted && decide (cabinet ≤ 700) then enterFirst b c s else s
    else if c.phaseOver s.now then endPhase b s
    else s

/-- R127: a record that reports power OFF for a bay being cleaned. -/
def cleanOff (b : BayId) (c : CleanRec) (s : State) : State :=
  if c.state = .requested then
    if c.wakeDue.isSome then report b .cleanFailed (endClean b .failed .nothing .noWake false .now s) else s
  else endClean b .interrupted .nothing .powerOff true .now s

/-- R124: a fault in WASHING. -/
def cleanFault (b : BayId) (fault : Nat) (c : CleanRec) (s : State) : State :=
  if c.state = .washing ∧ fault ≠ 0 then forceRinse b .failed .doseFailure (report b .cleanFailed s) else s

/-- The Sequencer's use of a status record: doses first, for every bay, so before power OFF and before a rinse completion of the same record, which
then clears RINSE_OWED (DESIGN CHOICE, assumption 71). Of the uses for a live cleaning, power OFF goes before a fault, and a fault before the end of
the phase (DESIGN CHOICE, assumption 44). A record in STANDBY asks for the WAKE before the order of a forced rinse or of the next phase is placed
(DESIGN CHOICE, assumption 72). The record that resumes a paused cooling is tested for its temperature too (DESIGN CHOICE, assumption 52). -/
def cleanRecord (b : BayId) (rec' : Report) (s : State) : State :=
  let t := takeDoses b rec'.dose s
  match liveClean t b with
  | none => t
  | some c =>
    if rec'.power = .off then cleanOff b c t
    else if c.state = .requested then t
    else
      let u := if rec'.power = .standby then wakeCause b t else t
      let v := cleanFault b rec'.fault c u
      cleanProgress b rec'.cabinet
        (v.setCleanRec b (fun x => (x.note rec'.complete).door rec'.doorOpen s.now (s.sec + s.runs.doorGrace)))

/-! ## Update Distributor -/

/-- R177: the acknowledged offset of a record that moves the transfer on. -/
def Channel.advance (x : Channel) (ack : Nat) : Channel :=
  Channel.reload { x with acked := ack, misses := 0, delivered := x.delivered.filter (fun d => ack < d.stop) }

/-- R177: the first two rows of its table. -/
def takeAck (c : Fin 4) (b : BayId) (ack : Nat) (s : State) : State :=
  let x := s.dist.channels[c]
  if x.acked < ack then (if ack ≤ x.lastEnd then s.setChannel c (fun y => y.advance ack) else s)
  else if ack < x.acked then blockMiss c b ack s
  else s

/-- R177: the third row. Before any BLOCK of the transfer has been delivered, no miss counts as counted since the last delivery, so that REJECTED is a
miss (DESIGN CHOICE, assumption 66). -/
def takeRejected (c : Fin 4) (b : BayId) (image : Nat) (s : State) : State :=
  let x := s.dist.channels[c]
  if image = 4 ∧ x.missSince = false ∧ x.current = some b ∧ x.progress[b] = .transferring then blockMiss c b x.acked s else s

/-- R176-R178: a record used by a transfer whose DISCARD-IMAGE has been accepted. -/
def useBlocks (c : Fin 4) (b : BayId) (rec' : Report) (s : State) : State :=
  let t := s.setChannel c (fun x => { x with window := rec'.freeBlocks })
  let u := takeRejected c b rec'.image (takeAck c b rec'.acknowledged t)
  if u.dist.channels[c].current = some b then placeBlocks c b (offerIfComplete c b u) else u

/-- R178: the image state while the offer deadline runs. -/
def useImage (c : Fin 4) (b : BayId) (image : Nat) (s : State) : State :=
  if (s.dist.channels[c].offerDue).isSome then
    if image = 3 then placeOrder b .applyGo .applyGo (s.setChannel c (fun x => { x with offerDue := none }))
    else if image = 4 then endTransfer c b (.failed .image) true .now s
    else s
  else s

/-- The Distributor's use of a status record. One that reports STANDBY wakes the bay during the whole of its transfer (R176), so while its entry is
APPLYING too, until its APPLY-GO is placed and the grace of R179 stands (DESIGN CHOICE, assumption 59). The WAKE is asked for before the record's
block fields or image state are used, so it stands ahead of what they place (DESIGN CHOICE, assumption 73). -/
def transferRecord (b : BayId) (rec' : Report) (s : State) : State :=
  match channelOf s b with
  | none => s
  | some c =>
    let x := s.dist.channels[c]
    let t := if rec'.power = .standby ∧ s.line.bays[b].grace = none then wakeCause b s else s
    match x.progress[b] with
    | .transferring => if x.discardTaken then useBlocks c b rec' t else t
    | .applying => useImage c b rec'.image t
    | _ => t

/-! ## The panel (R58, R67) -/

/-- A refused panel cook request. -/
def denyRun (b : BayId) (index : Nat) (r : Reason) (s : State) : State :=
  queueNotice .runEnd [bayTok b, .num 0, wd "REFUSED", wd r.word, .num index] (placeOrder b (.panelDeny r) .plain s)

/-- A refused panel rinse request. -/
def denyRinse (b : BayId) (r : Reason) (s : State) : State :=
  queueNotice .cleanEnd [bayTok b, wd "REFUSED", wd r.word, .num 0] (placeOrder b (.panelDeny r) .plain s)

/-- The recipe number of a quick index 1-15. -/
def quickNumber (s : State) (index : Nat) : Nat := (s.lib.quick.toList[index - 1]?).getD 0

/-- R58: a panel request is served as though the host had asked. The Allocator is told of it before the serving block acts, so a POWER WAKE stands
ahead of a PANEL-DENY (DESIGN CHOICE, assumption 40). -/
def servePanel (b : BayId) (index : Nat) (s : State) : State :=
  let t := wakeCause b s
  if index = 0 then
    match cleanCheck t b .rinse with
    | none => startCleaning b .rinse .panel t
    | some r => denyRinse b r t
  else
    match runCheck t b (quickNumber t index) with
    | .ok e => startRun b e t
    | .error r => denyRun b index r t

end Sys2Proof.Machine
end

