-- ==== Sys2Proof/Machine/Line.lean ====
section
/-! DEFINITION. The Oven Line Controller's polls and answers (R23-R34): cycles, sending, missed polls, acceptance, and the taking of status and
identity records. -/

namespace Sys2Proof.Machine

open Sys2Proof

/-! ## Polls -/

/-- R24, R25: the bay is polled when the cycle reaches it. -/
def pollDue (s : State) (b : BayId) : Bool :=
  match s.reg[b].state with
  | .empty | .settling => false
  | .lost => s.line.bays[b].lostDue
  | _ => true

/-- The next bay that the cycle polls. -/
def nextPoll (s : State) : Option BayId := allBays.find? (fun b => decide (s.line.cursor ≤ b.val) && pollDue s b)

/-- The cycle passes over the bays that are not due, up to the next one that is. -/
def skipBays (s : State) : State :=
  { s with line := { s.line with cursor := match nextPoll s with
      | some b => b.val
      | none => 12 } }

/-- An exchange whose answer window is open: its answer awaited, or spoilt. The window counts as closed once a valid answer has been taken, so the
next poll may begin before the 20 ms are over (DESIGN CHOICE, assumption 37). -/
def windowIsOpen (s : State) : Bool := s.line.exchange.any (fun x => decide (x.answer ≠ .taken))

/-- R27: the first carrying of an order is reported; the Distributor alone acts on it. -/
def deliveryReport (b : BayId) (o : Order) (s : State) : State :=
  match o.body with
  | .block offset data => if o.delivered then s else deliverBlock b offset data.length s
  | _ => s

/-- R23: the moment the answer limit of a poll sent now ends, in microseconds: 20 ms after the last byte of the poll. -/
def answerEnds (s : State) (b : BayId) : Nat :=
  s.now * 1000 + frameTime (pollFrame b (s.line.bays[b].queue.take 2)) + answerLimit

/-- R27: a poll is sent with up to two orders from the head of the queue. -/
def sendPoll (b : BayId) (s : State) : State :=
  let carried := s.line.bays[b].queue.take 2
  let x : Exchange :=
    { bay := b, carried := carried, wasLost := decide (s.reg[b].state = .lost), limit := answerEnds s b, answer := .awaited }
  let t := s.setLine b (fun l =>
    { l with queue := (l.queue.take 2).map (fun o => { o with delivered := true }) ++ l.queue.drop 2, lostFrom := s.now, lostDue := false })
  let u : State := { t with line := { t.line with exchange := some x } }
  u.each carried (deliveryReport b)

/-- R26: the bay is eligible for an extra poll. -/
def extraEligible (s : State) (b : BayId) : Bool :=
  decide (s.reg[b].state = .ready) &&
    allFour.any (fun c =>
      let x := s.dist.channels[c]
      decide (x.state = .running) && x.demand && decide (x.progress[b] = .transferring))

/-- R26: the rotation starts after the bay that had the last extra poll. -/
def extraOrder (last : Option BayId) : List BayId :=
  match last with
  | some p => allBays.filter (fun b => p < b) ++ allBays.filter (fun b => b ≤ p)
  | none => allBays

/-- R26: the poll and the full answer limit end before the next boundary, in microseconds. -/
def extraFits (s : State) (b : BayId) : Bool :=
  answerEnds s b < s.line.boundary * 1000

/-- R26: an extra poll, where one is due and fits. -/
def sendExtra (s : State) : State :=
  if s.line.extraOver then s
  else
    match (extraOrder s.line.extraAfter).find? (extraEligible s) with
    | none => s
    | some b =>
      if extraFits s b then sendPoll b { s with line := { s.line with extraAfter := some b } }
      else { s with line := { s.line with extraOver := true } }

/-- R24, R26: the next poll of the cycle. -/
def sendNext (s : State) : State :=
  if windowIsOpen s then s
  else
    match nextPoll s with
    | some b => sendPoll b { s with line := { s.line with cursor := b.val + 1 } }
    | none => sendExtra { s with line := { s.line with cursor := 12 } }

/-- R24, R26: a cycle starts. Where an extra poll's answer that began before its limit is still arriving at the boundary, the cycle starts when that
window closes, and the next boundary is counted from that start (DESIGN CHOICE, assumption 78). -/
def startCycle (s : State) : State :=
  if s.line.boundary ≤ s.now ∧ s.line.cursor = 12 ∧ windowIsOpen s = false then
    skipBays { s with line := { s.line with cursor := 0, boundary := s.now + 1000, extraOver := false } }
  else s

/-! ## Misses -/

/-- R27, R28, R7: a poll of bay `b` that had no valid answer; `wasLost` says that it was a poll of a LOST bay, which has no effect (R25). An
expiry that finds the bay LOST already has none either (R28). -/
def missPoll (b : BayId) (wasLost : Bool) (s : State) : State :=
  if wasLost then s
  else
    let m := min (s.line.bays[b].misses + 1) 3
    let t := s.setLine b (fun l => { l with misses := m })
    countPoll b (if m = 3 ∧ s.line.bays[b].grace = none ∧ s.reg[b].state ≠ .lost then goLost b false t else t)

/-- R23, R27: the answer window closes, once the answer limit has ended. -/
def closeWindow (s : State) : State :=
  match s.line.exchange with
  | none => s
  | some x =>
    if x.limit ≤ s.now * 1000 then
      let t : State := { s with line := { s.line with exchange := none } }
      skipBays (if x.answer = .taken then t else missPoll x.bay x.wasLost t)
    else s

/-- R23: the last byte of the poll has gone, so the answer window has begun: its limit ends 20 ms after that byte. -/
def Exchange.begun (x : Exchange) (now : Nat) : Bool := decide (x.limit ≤ now * 1000 + answerLimit)

/-- R23: a frame that is no valid answer counts as none, within the window; bytes received before it are discarded. -/
def Exchange.spoil (x : Exchange) (now : Nat) : Exchange :=
  if x.answer = .awaited ∧ x.begun now = true then { x with answer := .spoilt } else x

/-- The answer counts as none. -/
def spoil (s : State) : State := { s with line := { s.line with exchange := s.line.exchange.map (fun x => x.spoil s.now) } }

/-! ## Acceptance -/

/-- R23: an answer that is complete now, and took `time` microseconds on the line, the gaps between its bytes among them, is awaited and began within the answer window: not before the
last byte of the poll, and not after the answer limit (assumption 37). -/
def Exchange.inTime (x : Exchange) (time now : Nat) : Bool :=
  decide (x.answer = .awaited) && decide (x.limit + time ≤ now * 1000 + answerLimit) && decide (now * 1000 ≤ x.limit + time)

/-- R31: an accepted order that is still in the queue leaves it, and the space is reported. -/
def removeOrder (b : BayId) (id : Nat) (s : State) : State :=
  if s.line.bays[b].queue.any (fun o => o.id = id) then
    reportSpace b (s.setLine b (fun l => { l with queue := l.queue.filter (fun o => o.id ≠ id) }))
  else s

/-- R31: the report of an acceptance to the order's producer. -/
def acceptReport (b : BayId) (o : Order) (s : State) : State :=
  match o.body with
  | .step .. => acceptStep b o.id s
  | .cleanPhase .. => acceptPhase b o.id s
  | .discardImage => acceptDiscard b o.id s
  | .block .. => flowBlocks b s
  | .applyOffer .. => acceptOffer b s
  | _ => s

/-- R31: the orders that an echo accepts. -/
def acceptedBy (carried : List Order) (echo : Nat) : List Order :=
  match carried with
  | o :: rest =>
    if o.id = echo then [o]
    else match rest with
      | p :: _ => if p.id = echo then [o, p] else []
      | [] => []
  | [] => []

/-- R31: the accepted orders leave the queue, and each acceptance is reported. Where two are accepted, both leave, with the space reported, before
the first acceptance is (DESIGN CHOICE, assumption 47). -/
def acceptOrders (b : BayId) (l : List Order) (s : State) : State :=
  (s.each l (fun o t => removeOrder b o.id t)).each l (acceptReport b)

/-! ## Answers -/

/-- R27: a valid answer settles the miss count; the exchange is over. -/
def takeAnswer (b : BayId) (s : State) : State :=
  let t := s.setLine b (fun l => { l with misses := 0 })
  { t with line := { t.line with exchange := t.line.exchange.map (fun x => { x with answer := .taken }) } }

/-- R9: the step check. -/
def stepCheck (b : BayId) (stepId : Nat) (s : State) : State :=
  if s.reg[b].stepCheck then
    let t := s.setReg b (fun r => { r with stepCheck := false })
    if stepId = 0 then t else placeSafe b t
  else s

/-- What the record leaves as the most recent core and cabinet temperature of the bay (R69, R91, R119). -/
def keepLatest (b : BayId) (r : Report) (s : State) : State :=
  (s.setClean b (fun c => { c with cabinet := some r.cabinet })).setRun b
    (fun x => if x.state.final then x else { x with latestCore := effectiveCore r.cores })

/-- The Registry's use of a status record (R11, R9, R18): the step check is made before the power state can let a job claim the bay. -/
def registryRecord (b : BayId) (r : Report) (s : State) : State :=
  let t := if s.reg[b].state = .lost then setBayState b .interrogating .answered s else s
  takePower b r.power (stepCheck b r.stepId t)

/-- R33: the parts of a record handed to the blocks. The Service Monitor takes the local mode before the fault code (DESIGN CHOICE, assumption
55), and the Allocator the heater demand before the door (DESIGN CHOICE, assumption 75). -/
def handParts (b : BayId) (r : Report) (s : State) : State :=
  let t := registryRecord b r (keepLatest b r s)
  let t := takeFault b r.fault (takeMode b r.service t)
  let t := takeDoor b r.doorOpen (takeDemand b r.demand (runRecord b r t))
  let t := transferRecord b r (cleanRecord b r t)
  match r.panel with
  | some i => servePanel b i t
  | none => t

/-- R30-R34: a status record is taken; one whose gaps cannot all have been within 1 ms counts as none (R194). The interrogation count of R7 is made
after every part has been handed, the panel request included (DESIGN CHOICE, assumption 17). -/
def takeStatus (body : StatusBody) (s : State) : State :=
  match s.line.exchange with
  | some x =>
    if x.inTime (statusTime + body.gaps) s.now = false then s
    else if body.malformed = true ∨ statusGaps < body.gaps then spoil s
    else
      let wasLost := decide (s.reg[x.bay].state = .lost)
      let t := handParts x.bay (correct body) (acceptOrders x.bay (acceptedBy x.carried body.echo) (takeAnswer x.bay s))
      if wasLost then t else countPoll x.bay t
  | none => s

/-- R179: the return of an apply. -/
def takeReturn (b : BayId) (i : Identity) (s : State) : State :=
  match channelOf s b with
  | some c =>
    if s.dist.channels[c].progress[b] = .applying ∧ (s.line.bays[b].grace).isSome = true then
      let t := (s.setLine b (fun l => { l with grace := none })).setReg b (fun r =>
        { r with identity := r.identity.map (fun x => { x with firmware := i.firmware }) })
      endTransfer c b (if i.firmware = (slotOf s c).header.revision then .done else .failed .rolledBack) true .now t
    else s
  | none => s

/-- R32: an identity record handed on by the bay's state. One whose bay has become EMPTY or SETTLING since its poll is handed to no block
(DESIGN CHOICE, assumption 79). -/
def handIdentity (b : BayId) (body : IdentityBody) (s : State) : State :=
  match s.reg[b].state with
  | .interrogating => if identityOk body then takeIdentity b (identityOf body) s else countPoll b s
  | .lost => setBayState b .interrogating .answered s
  | .empty => s
  | .settling => s
  | _ => if identityOk body then takeReturn b (identityOf body) s else s

/-- R32: an identity record is taken; one whose gaps cannot all have been within 1 ms counts as none (R194). -/
def takeIdentityRecord (body : IdentityBody) (s : State) : State :=
  match s.line.exchange with
  | some x =>
    if x.inTime (identityTime + body.gaps) s.now = false then s
    else if identityGaps < body.gaps then spoil s
    else
      let t := takeAnswer x.bay s
      handIdentity x.bay body (if x.carried.any (fun o => o.body.is .identify) then acceptOrders x.bay x.carried t else t)
  | none => s

/-- R29, R179: the apply-grace deadline expires. -/
def graceExpires (b : BayId) (s : State) : State :=
  let t := s.setLine b (fun l => { l with grace := none })
  match channelOf s b with
  | some c =>
    if s.dist.channels[c].progress[b] = .applying then goLost b true (endTransfer c b (.failed .noReturn) true .later t) else t
  | none => t

end Sys2Proof.Machine
end

