-- ==== Sys2Proof/Machine/Windows.lean ====
section
/-! DEFINITION. The Schedule Table's windows (R144-R146) and the Site Clock's updates (R135, R137). -/

namespace Sys2Proof.Machine

open Sys2Proof

/-- R145, R111: the effects of an opening. -/
def openEffects (n : Fin 24) (e : SchedEntry) (s : State) : State :=
  match e.kind with
  | .clean =>
    let t := s.each e.mask wakeCause
    match e.program with
    | some p => t.each e.mask (windowClean n p e.threshold)
    | none => t
  | .update => retryPasses none s
  | .prestart => s.each e.mask wakeCause

/-- R145: a window opens. -/
def openWindow (n : Fin 24) (e : SchedEntry) (s : State) : State :=
  let closes := s.sec + e.duration * 60
  let w : OpenWindow := { entry := n, kind := e.kind, mask := e.mask, program := e.program, threshold := e.threshold, opened := s.sec, closes := closes }
  openEffects n e
    (queueNotice .windowOpen [.num (n.val + 1), wd e.kind.word, .num closes]
      { s with sched := { s.sched with windows := s.sched.windows ++ [w] } })

/-- R146: the effect of a closing on one bay no longer covered. At the closing of a CLEAN window CLEAN_WINDOW_MISSED is reported first, and standby
is examined after it, bay by bay (DESIGN CHOICE, assumption 58). -/
def closeEffect (k : WindowKind) (b : BayId) (s : State) : State :=
  match k with
  | .clean => examineStandby b (cleanWindowLeft b s)
  | .update => windowMissed b s
  | .prestart => examineStandby b s

/-- The window of an entry. -/
def windowOf (s : State) (n : Fin 24) : Option OpenWindow := s.sched.windows.find? (fun x => x.entry = n)

/-- R146: the window of an entry closes, where it has one; the bays no longer covered follow in ascending order (DESIGN CHOICE, assumptions 58
and 67). -/
def closeEntryWindow (n : Fin 24) (cause : String) (s : State) : State :=
  match windowOf s n with
  | none => s
  | some w =>
    let t := queueNotice .windowClose [.num (n.val + 1), wd w.kind.word, wd cause]
      { s with sched := { s.sched with windows := s.sched.windows.filter (fun x => x.entry ≠ n) } }
    t.each (w.mask.filter (fun b => !covered t w.kind b)) (closeEffect w.kind)

/-- R144: one entry at a boundary. -/
def matchEntry (c : Calendar) (n : Fin 24) (s : State) : State :=
  match s.sched.entries[n] with
  | some e => if e.enabled && !windowOpen s n && e.names c then openWindow n e s else s
  | none => s

/-- R144: a minute boundary at the Schedule Table. -/
def matchBoundary (s : State) : State :=
  if s.clock.valid && !s.clock.secondPass then s.each (List.finRange 24) (matchEntry s.clock.cal) else s

/-- R135: a minute boundary is handed to the Schedule Table and to the Allocator. -/
def minuteBoundary (s : State) : State := lookAheadAll (matchBoundary s)

/-- R135: one update of the calendar; boundaries are handed to no one until the load has ended (R137, R147). -/
def updateClock (s : State) : State :=
  let t : State := { s with clock := s.clock.update }
  if s.phase = .running ∧ t.clock.cal.second = 0 then minuteBoundary t else t

/-- R137: VBAK has fallen too low; what the domain holds from then on is a free value. -/
def loseBackup (c : Backup) : Backup :=
  let v (field : Nat) : Nat := Config.lostBackupItem c.losses field
  let f (field : Nat) : Bool := v field % 2 == 1
  { cal := { year := v 0, month := v 1, day := v 2, hour := v 3, minute := v 4, second := v 5, weekday := v 6 },
    valid := f 7, inDst := f 8, secondPass := f 9,
    rule := { enabled := f 10, startMonth := v 11, startNth := v 12, startHour := v 13, endMonth := v 14, endNth := v 15, endHour := v 16 },
    divider := v 17, lossSeen := true, losses := c.losses + 1 }

/-- R137: the power-on check. -/
def checkBackup (c : Backup) : Backup := if c.lossSeen then { Backup.initial with losses := c.losses } else c

end Sys2Proof.Machine
end

