-- ==== Sys2Proof/Machine/Startup.lean ====
section
/-! DEFINITION. Start-ups and the loss of power (R22, R192), and the start-up load (R46, R47). -/

namespace Sys2Proof.Machine

open Sys2Proof

/-! ## Start-ups -/

/-- Every volatile record of every block cleared, the write queue with them (R47); the flash, the backup domain, the contacts and the
commands that wait are kept. -/
def clearVolatile (s : State) : State :=
  { State.reset with
    pending := s.pending, phase := .off, pins := s.pins, store := { s.store with performing := none, waiting := [] }, clock := s.clock,
    host := { HostLink.initial with sent := s.host.sent } }

/-- R192: a start-up: the lone LF is sent, the load begins, and the Registry reads all contacts at once (R22). The presence changes of several bays
are taken in ascending bay order (DESIGN CHOICE, assumption 69). -/
def startUp (c : Cause) (s : State) : State :=
  let t := clearVolatile s
  ({ t with phase := .loading c, host := { t.host with sent := .lineFeed :: t.host.sent } } : State).each allBays readContacts

/-- R47: the write being performed is cut off. -/
def cutStore (c : Cut) (s : State) : State := { s with store := s.store.cut c }

/-! ## Which records the owners accept (R46) -/

/-- The ranges of the DST rule (R138). -/
def dstOk (r : DstRule) : Bool :=
  within 1 r.startMonth 12 && within 1 r.startNth 5 && within 1 r.startHour 22 && within 1 r.endMonth 12 && within 1 r.endNth 5 &&
    within 1 r.endHour 22 && r.startMonth != r.endMonth

/-- An optional field within its range; ANY is in range. -/
def anyWithin (lo : Nat) (f : Option Nat) (hi : Nat) : Bool :=
  match f with
  | some n => within lo n hi
  | none => true

/-- The ranges of a schedule entry (R142). -/
def entryOk (e : SchedEntry) : Bool :=
  !e.mask.isEmpty && anyWithin 1 e.weekday 7 && anyWithin 0 e.hour 23 && anyWithin 0 e.minute 59 && within 1 e.duration 480 &&
    (if e.kind = .clean then e.program.isSome && e.threshold ≤ 1250 else e.program.isNone && e.threshold == 0)

/-- The ranges of a provision (the bay record). -/
def provisionOk (p : Provision) : Bool :=
  within 1 p.supply 2 && within 30 p.circuitMax 400 && withinT 1500 p.ceiling 3000

/-- The ranges of a commission record. -/
def commissionOk (c : Commission) : Bool :=
  c.serial.length == 8 && c.serial.all printable && provisionOk c.prov && c.win1.base ≤ 999 && c.win1.limit ≤ 999 &&
    c.win2.base ≤ 999 && c.win2.limit ≤ 999

/-- The ranges of a slot header (the staging slots' table). SEALING is never stored (R167); FREE is not either, since R171 removes the record, and
is taken as out of range (DESIGN CHOICE, assumption 80). -/
def headerRangeOk (h : Header) : Bool :=
  (h.state = .filling || h.state = .verified || h.state = .corrupt) && within 1 h.length 524288 && h.crc < 4294967296 &&
    (match h.kind with
     | .firmware => within 1 h.target 4 && h.revision ≤ 9999
     | .recipes => h.target == 0 && within 1 h.revision 65535)

/-- R46: the contents lie in the ranges that the kind's owner accepts. A HOLD record of kind NONE, which is never written, is taken as out of range
(DESIGN CHOICE, assumption 80). -/
def StoreRec.ok : StoreRec → Bool
  | .site limit grace idle => within 50 limit 4000 && within 30 grace 900 && within 5 idle 240
  | .quick v => v.toList.all (fun n => n ≤ 999)
  | .event _ e => within 1 e.severity 3
  | .dst r => dstOk r
  | .sched _ e => entryOk e
  | .commission _ c => commissionOk c
  | .hold _ k _ => k ≠ .nothing
  | .hygiene _ h => h.soil ≤ 1250 && h.detergent ≤ 250
  | .recipe n r => revisionOk n r
  | .header _ h => headerRangeOk h

/-! ## Reading a list -/

/-- The records that a list's load reads before it stops: each in range, of its partition, and after the one before it. -/
def loadable (p : Partition) (last : Option Nat) : List StoreRec → List StoreRec
  | [] => []
  | r :: rest =>
    if decide (r.home = p) && last.all (fun n => n < r.pos) && r.ok then r :: loadable p (some r.pos) rest else []

/-- The LIBRARY records that find room in the index and the step pool. -/
def loadableRecipes (count slots : Nat) : List StoreRec → List StoreRec
  | .recipe n r :: rest =>
    if count < indexRoom && slots + r.size ≤ poolSlots then .recipe n r :: loadableRecipes (count + 1) (slots + r.size) rest else []
  | _ => []

/-- What a partition's load reads. -/
def readPartition (p : Partition) (l : RecordList) : List StoreRec :=
  let good := loadable p none l.recs
  if p = .library then loadableRecipes 0 0 good else good

/-- R46: the result of a load. -/
inductive LoadResult where
  | ok (count : Nat)
  | truncated (index : Nat)
deriving DecidableEq, Repr

/-- R46: OK where the end marker stopped the load, TRUNCATED where a record did. -/
def loadResult (p : Partition) (l : RecordList) : LoadResult :=
  let n := (readPartition p l).length
  if n = l.recs.length ∧ l.faulty = false then .ok n else .truncated (n + 1)

def LoadResult.toks : LoadResult → List Tok
  | .ok n => [.word "OK", .num n]
  | .truncated n => [.word "TRUNCATED", .num n]

/-! ## Handing the records over -/

/-- A header as the Distributor takes it (R167). -/
def slotOfHeader (h : Header) : Slot :=
  if h.state = .filling then .initial else { header := h, fill := h.length, computed := none, users := 0 }

/-- R46: one loaded record is handed to its owner. -/
def takeRecord (r : StoreRec) (s : State) : State :=
  match r with
  | .site limit grace idle =>
    { s with heat := { s.heat with limit := limit, idleTime := idle }, runs := { s.runs with doorGrace := grace } }
  | .quick v => { s with lib := { s.lib with quick := v } }
  | .event k e => { s with mon := { s.mon with settings := upd s.mon.settings k (fun _ => e) } }
  | .dst d => { s with clock := { s.clock with rule := d } }
  | .sched n e => { s with sched := { s.sched with entries := upd s.sched.entries n (fun _ => some e) } }
  | .commission b c => s.setReg b (fun x => { x with commission := some c })
  | .hold b k rp => s.setMon b (fun m => { m with hold := k, releasePending := rp })
  | .hygiene b h => s.setClean b (fun c => { c with hygiene := h })
  | .recipe n x =>
    { s with lib := { s.lib with index := s.lib.index ++ [{ number := n, cur := x, pins := 0, retired := none, withdrawn := false }],
                                 free := s.lib.free - x.size } }
  | .header k h =>
    let t := s.setSlot k (fun _ => slotOfHeader h)
    if h.state = .filling then storeRecord .headers k.val none t else t

/-- R138: a rule copy that is disabled at the end of the PROFILE load clears in-DST and second-pass. -/
def settleDst (c : Backup) : Backup := if c.rule.enabled then c else { c with inDst := false, secondPass := false }

/-- R46, R138: the PROFILE load; the rule copy starts from its default. -/
def loadProfile (s : State) : State :=
  let t := ({ s with clock := { s.clock with rule := .initial } } : State).each (readPartition .profile s.store.profile) takeRecord
  { t with clock := settleDst t.clock }

/-- R46: the four lists, in their order. -/
def loadStore (s : State) : State :=
  let t := (loadProfile s).each (readPartition .hygiene s.store.hygiene) takeRecord
  let u := t.each (readPartition .library s.store.library) takeRecord
  u.each (readPartition .headers s.store.headers) takeRecord

/-- R4: a bay whose settle timer expired during the load goes to INTERROGATING. -/
def releaseSettled (b : BayId) (s : State) : State :=
  if s.reg[b].settled then setBayState b .interrogating .settled (s.setReg b (fun r => { r with settled := false })) else s

/-- R192: the STARTUP notice. -/
def startupNotice (c : Cause) (s : State) : Notice :=
  { kind := .startup, time := s.sec,
    fields := [wd c.word, wd "PROFILE"] ++ (loadResult .profile s.store.profile).toks ++ [wd "HYGIENE"] ++
      (loadResult .hygiene s.store.hygiene).toks ++ [wd "LIBRARY"] ++ (loadResult .library s.store.library).toks ++
      [wd "SLOT-HEADERS"] ++ (loadResult .headers s.store.headers).toks ++ [wd "CLOCK-VALID", .yn s.clock.valid] }

/-- R47: the load has ended. R4's release of the settled bays comes first, then R134's report of the hygiene conditions (DESIGN CHOICE, assumption 70),
each in ascending bay order (DESIGN CHOICE, assumption 69). STARTUP stands ahead of the notices of both (R192). -/
def endLoad (s : State) : State :=
  match s.phase with
  | .loading c =>
    let t := ((loadStore s).each allBays releaseSettled).each allBays reportHygiene
    beginWrite { t with phase := .running, host := { t.host with notices := startupNotice c t :: t.host.notices } }
  | _ => s

end Sys2Proof.Machine
end

