-- ==== Sys2Proof/Machine/Link.lean ====
section
/-! DEFINITION. The Host Link (R185-R193): the transmitter, the request in hand, the waiting line and the lost lines; and the forms of an
owner's answer. -/

namespace Sys2Proof.Machine

open Sys2Proof

/-! ## The transmitter -/

/-- R189: a free transmitter begins the reply in hand, or else the oldest notice once the load has ended. -/
def pump (s : State) : State :=
  match s.host.tx, s.host.inHand, s.phase, s.host.notices with
  | .idle, some r, _, _ => { s with host := { s.host with tx := .reply, sent := .reply r :: s.host.sent } }
  | .idle, none, .running, n :: _ => { s with host := { s.host with tx := .notice, sent := .notice n :: s.host.sent } }
  | _, _, _, _ => s

/-! ## Owners' answers -/

/-- What a request comes to: the state after it, and its reply. -/
abbrev Served := State × Reply

/-- The request is taken. -/
def okay (v : Verb) (fields : List Tok) (s : State) : Served := (s, .ok v fields)

/-- The request is refused, with the effect the owner's rule states, if any. -/
def refuse (v : Verb) (r : Reason) (s : State) : Served := (s, .no (.verb v) r [])

/-- R187 (3): an owner receives the request when its field count and every field's form are right. -/
def withFields {α : Type} (v : Verb) (parse : List Txt → Option α) (owner : α → State → Served) (f : List Txt) (s : State) : Served :=
  match parse f with
  | some a => owner a s
  | none => refuse v .syntaxError s

/-- A field that names a bay; outside 1-12 the owner refuses RANGE. -/
def onBay (v : Verb) (n : Nat) (k : BayId → State → Served) (s : State) : Served :=
  match bayOf n with
  | some b => k b s
  | none => refuse v .range s

/-- Groups of fields with the separator between them (R191). -/
def groups (l : List (List Tok)) : List Tok := (l.intersperse [.sep]).flatten

/-! ## Taking a line -/

/-- R187 (1): the head of a refusal while the load runs. -/
def firstWordOf (l : InLine) : Head :=
  match l with
  | .request v _ => .verb v
  | .unknown (w :: _) => .firstWord w
  | _ => .unjudged

/-- R187 (2, 3), R191: an unknown verb; SHOW with no object word, or with one that is not of a word's form; and SHOW with an unknown one. -/
def unknownReply (words : List Txt) : Reply :=
  match words with
  | [w] => if w == "SHOW".toList then .no .show .syntaxError [] else .no .unjudged .unknown []
  | w :: x :: _ =>
    if w == "SHOW".toList then .no .show (if isWord x then .range else .syntaxError) [] else .no .unjudged .unknown []
  | [] => .no .unjudged .unknown []

/-- The load runs. -/
def State.loading (s : State) : Bool :=
  match s.phase with
  | .loading _ => true
  | _ => false

/-- R185-R187, R192: a line is served; `owners` is what each verb's owner does, and `early` says that the line was received before the load had
ended. -/
def serveLine (owners : Verb → List Txt → State → Served) (early : Bool) (l : InLine) (s : State) : Served :=
  match l with
  | .bad => (s, .no .unjudged .syntaxError [])
  | .unknown words => if early then (s, .no (firstWordOf l) .starting []) else (s, unknownReply words)
  | .request v f => if early then (s, .no (firstWordOf l) .starting []) else owners v f s

/-- R186: a line is taken as the request in hand. -/
def takeLine (owners : Verb → List Txt → State → Served) (early : Bool) (l : InLine) (s : State) : State :=
  let t := serveLine owners early l s
  { t.1 with host := { t.1.host with inHand := some t.2 } }

/-- R186: a line lost because a complete line waits. -/
def loseLine (s : State) : State := { s with host := { s.host with lost := min (s.host.lost + 1) 255 } }

/-- R193: the Host Link takes no request lines any more. -/
def deaf (s : State) : Bool :=
  match s.phase, s.host.restarting with
  | .off, _ => true
  | _, .waiting _ => true
  | _, _ => false

/-- R186: a complete line arrives. It counts as received when it is complete, so one that is complete before the load has ended is refused STARTING
(R192), also where it waits beyond the load's end (DEDUCED, assumption 61). -/
def receive (owners : Verb → List Txt → State → Served) (l : InLine) (s : State) : State :=
  if deaf s then s
  else if s.host.waiting.isSome then loseLine s
  else if s.host.inHand.isSome then { s with host := { s.host with waiting := some l, early := s.loading, lostFirst := s.host.lost } }
  else takeLine owners s.loading l s

/-- R186: the input line buffer no longer holds a waiting line. -/
def freeBuffer (s : State) : State := { s with host := { s.host with waiting := none, early := false } }

/-- R186: `NO ? BUSY` for one lost line. -/
def answerLost (s : State) : State :=
  { s with host := { s.host with inHand := some (.no .unjudged .busy []), lost := s.host.lost - 1, lostFirst := s.host.lostFirst - 1 } }

/-- R186, R192: what the Host Link takes up when a reply has been sent. -/
def takeNext (owners : Verb → List Txt → State → Served) (s : State) : State :=
  match s.host.waiting with
  | some l =>
    if s.host.lostFirst = 0 then takeLine owners (s.host.early || s.loading) l (freeBuffer s) else answerLost s
  | none => if s.host.lost = 0 then s else answerLost s

/-- The last character of the reply in hand has left the transmitter. -/
def replyGone (owners : Verb → List Txt → State → Served) (s : State) : State :=
  if s.host.tx = .reply then
    let t : State := { s with host := { s.host with tx := .idle, inHand := none } }
    match s.host.restarting with
    | .replying => freeBuffer { t with host := { t.host with restarting := .waiting (s.now + 10000) } }
    | _ => takeNext owners t
  else s

/-- R190: a notice has been sent; OVERFLOW takes the place just freed. -/
def noticeGone (s : State) : State :=
  if s.host.tx = .notice then
    let t : State := { s with host := { s.host with tx := .idle, notices := s.host.notices.tail } }
    match s.host.overflow with
    | some (count, first) =>
      queueNotice .overflow [.num count, .num first] { t with host := { t.host with overflow := none } }
    | none => t
  else s

/-- A line that is empty or holds spaces alone is ignored (R185); one that arrives while a complete line waits is lost and counted like any other
(R186; DESIGN CHOICE, assumption 62). -/
def emptyArrives (s : State) : State := if deaf s || s.host.waiting.isNone then s else loseLine s

end Sys2Proof.Machine
end

