-- ==== Sys2Proof/Machine/BayRequests.lean ====
section
/-! DEFINITION. The host's requests to the Bay Registry (R1, R12-R17). -/

namespace Sys2Proof.Machine

open Sys2Proof

/-- The words of the water classes. -/
def waters : List Water := [.soft, .medium, .hard]

/-! ## SHOW BAY (R1) -/

def identityToks : Option Identity → List Tok
  | none => [noneTok]
  | some i => [.txt i.serial, .num i.model, .num i.supply, .tenths i.rated, .num i.firmware, .num i.points, .yn i.steam]

def provisionToks : Option Provision → List Tok
  | none => [noneTok]
  | some p => [.num p.supply, .tenths p.circuitMax, wd p.water.word, .tenths p.ceiling, .yn p.standby, .yn p.detergent]

def windowToks : Option MenuWindow → List Tok
  | none => [noneTok]
  | some m => [.num m.base, .num m.limit]

/-- The fields of a bay record as SHOW BAY gives them. -/
def bayToks (s : State) (b : BayId) : List Tok :=
  let r := s.reg[b]
  let m := s.mon.bays[b]
  [wd r.presence.word, wd r.state.word] ++ identityToks r.identity ++ provisionToks (r.commission.map Commission.prov) ++
    windowToks (r.commission.map Commission.win1) ++ windowToks (r.commission.map Commission.win2) ++
    [wd r.activity.word, wd r.power.word, wd m.hold.word, .yn m.releasePending, wd (if r.context.isSome then "OPEN" else "CLOSED")]

/-- R1. -/
def serveShowBay : List Txt → State → Served :=
  withFields .showBay (fld number fun n => fin n) fun n =>
    onBay .showBay n fun b s => okay .showBay (bayTok b :: bayToks s b) s

/-! ## The commissioning sequence (R12-R14) -/

/-- The fields of COMMISSION-BEGIN, in their ranges. -/
structure BeginFields where
  bay : BayId
  supply : Nat
  circuitMax : Nat
  water : Water
  limits : Bool
  options : Bool
deriving DecidableEq, Repr

/-- The form of COMMISSION-BEGIN; the value is absent where a field is out of range. -/
def parseBegin : List Txt → Option (Option BeginFields) :=
  fld number fun n => fld number fun su => fld powerField fun mx => fld (wordField waters Water.word) fun w =>
  fld ynField fun l => fld ynField fun o => fin (
    match bayOf n, w, l, o with
    | some b, some w, some l, some o =>
      if within 1 su 2 && within 30 mx 400 then
        some { bay := b, supply := su, circuitMax := mx, water := w, limits := l, options := o }
      else none
    | _, _, _, _ => none)

/-- R12: the context that a COMMISSION-BEGIN opens. -/
def openContext (s : State) (p : BeginFields) (before : BayState) : CommContext :=
  { supply := p.supply, circuitMax := p.circuitMax, water := p.water, limitsFollow := p.limits, optionsFollow := p.options, limits := none,
    options := none, next := if p.limits then .limits else .options, before := before, deadline := s.sec + 30 }

/-- R14: a completion and its reply. -/
def completeReply (v : Verb) (b : BayId) (c : CommContext) (s : State) : Served :=
  okay v [bayTok b, wd (if completionPasses s b c then "READY" else "REFUSED")] (completeContext b c s)

/-- R12: the request is taken. -/
def beginSequence (p : BeginFields) (before : BayState) (s : State) : Served :=
  let c := openContext s p before
  let t := setBayState p.bay .commissioning .begin (s.setReg p.bay (fun r => { r with context := some c }))
  if !p.limits && !p.options then completeReply .commissionBegin p.bay c t
  else okay .commissionBegin [bayTok p.bay, wd "OPEN", wd c.next.word] t

/-- R12. -/
def serveCommissionBegin : List Txt → State → Served :=
  withFields .commissionBegin parseBegin fun o s =>
    match o with
    | none => refuse .commissionBegin .range s
    | some p =>
      let r := s.reg[p.bay]
      match r.state with
      | .uncommissioned => beginSequence p .uncommissioned s
      | .refused => beginSequence p .refused s
      | .ready => if r.activity = .nothing then beginSequence p .ready s else refuse .commissionBegin .busy s
      | .commissioning => beginSequence p ((r.context.map CommContext.before).getD .uncommissioned) s
      | _ => refuse .commissionBegin .state s

/-- R13: a message that is not the expected one abandons the sequence. -/
def outOfTurn (v : Verb) (b : BayId) (s : State) : Served := refuse v .sequence (abandonTo b s)

/-- R13. -/
def serveCommissionLimits : List Txt → State → Served :=
  withFields .commissionLimits (fld number fun n => fld tempField fun t => fld ynField fun y => fin (n, t, y)) fun p =>
    onBay .commissionLimits p.1 fun b s =>
      match s.reg[b].context with
      | none => refuse .commissionLimits .sequence s
      | some c =>
        if c.next ≠ .limits then outOfTurn .commissionLimits b s
        else
          match p.2.2 with
          | some y =>
            if withinT 1500 p.2.1 3000 then
              let d := { c with limits := some (p.2.1, y), next := .options }
              if c.optionsFollow then
                okay .commissionLimits [bayTok b, wd "OPEN", wd "OPTIONS"] (s.setReg b (fun r => { r with context := some d }))
              else completeReply .commissionLimits b d s
            else refuse .commissionLimits .range s
          | none => refuse .commissionLimits .range s

/-- R13. -/
def serveCommissionOptions : List Txt → State → Served :=
  withFields .commissionOptions
    (fld number fun n => fld number fun b1 => fld number fun l1 => fld number fun b2 => fld number fun l2 => fld ynField fun y =>
      fin (n, (⟨b1, l1⟩ : MenuWindow), (⟨b2, l2⟩ : MenuWindow), y)) fun p =>
    onBay .commissionOptions p.1 fun b s =>
      match s.reg[b].context with
      | none => refuse .commissionOptions .sequence s
      | some c =>
        if c.next ≠ .options then outOfTurn .commissionOptions b s
        else
          let w1 := p.2.1
          let w2 := p.2.2.1
          match p.2.2.2 with
          | some y =>
            if w1.base ≤ 999 && w1.limit ≤ 999 && w2.base ≤ 999 && w2.limit ≤ 999 then
              completeReply .commissionOptions b { c with options := some (w1, w2, y) } s
            else refuse .commissionOptions .range s
          | none => refuse .commissionOptions .range s

/-! ## Other bay requests -/

/-- R16. -/
def serveDecommission : List Txt → State → Served :=
  withFields .decommission (fld number fun n => fin n) fun n =>
    onBay .decommission n fun b s =>
      let r := s.reg[b]
      if (r.state = .ready ∨ r.state = .refused) ∧ r.activity = .nothing then
        okay .decommission [] (setBayState b .uncommissioned .decommissioned (dropCommission b (teardown b false s)))
      else refuse .decommission .busy s

/-- R17: one menu window replaced. -/
def Commission.setWindow (c : Commission) (window : Nat) (m : MenuWindow) : Commission :=
  if window = 1 then { c with win1 := m } else { c with win2 := m }

/-- R17. -/
def serveSetMenu : List Txt → State → Served :=
  withFields .setMenu (fld number fun n => fld number fun w => fld number fun lo => fld number fun hi => fin (n, w, lo, hi)) fun p =>
    onBay .setMenu p.1 fun b s =>
      let w := p.2.1
      let m : MenuWindow := { base := p.2.2.1, limit := p.2.2.2 }
      if within 1 w 2 && m.base ≤ 999 && m.limit ≤ 999 then
        if s.reg[b].state = .ready then
          let reply (t : State) : Served := okay .setMenu [bayTok b, .num w, wd (if m.isOpen then "OPEN" else "CLOSED")] t
          match s.reg[b].commission with
          | some c => reply (storeCommission b (c.setWindow w m) (s.setReg b (fun r => { r with commission := some (c.setWindow w m) })))
          | none => reply s
        else refuse .setMenu .state s
      else refuse .setMenu .range s

end Sys2Proof.Machine
end

