-- ==== Sys2Proof/Machine/CleanRequests.lean ====
section
/-! DEFINITION. The host's requests to the Cleaning Sequencer (R117, R118, R128, R130) and the expiries of its deadlines. -/

namespace Sys2Proof.Machine

open Sys2Proof

def programs : List Program := [.rinse, .light, .medium, .strong]

/-- R118. -/
def serveCleanStart : List Txt → State → Served :=
  withFields .cleanStart (fld number fun n => fld (wordField programs Program.word) fun p => fin (n, p)) fun q =>
    onBay .cleanStart q.1 fun b s =>
      match q.2 with
      | none => refuse .cleanStart .range s
      | some p =>
        match cleanCheck s b p with
        | some r => refuse .cleanStart r s
        | none =>
          okay .cleanStart [bayTok b, wd p.word, wd (if s.reg[b].power = .standby then "WAKING" else "ON")] (startCleaning b p .host s)

/-- R128: what an abort does in each state, and the word of its reply. -/
def abortClean (b : BayId) (st : CleanState) (s : State) : State × String :=
  match st with
  | .requested => (endClean b .cancelled .nothing .host false .now s, "CANCELLED")
  | .cooling => (endClean b .cancelled .nothing .host true .now s, "CANCELLED")
  | .washing => (forceRinse b .aborted .host s, "RINSING")
  | _ => (endClean b .interrupted .nothing .host true .now s, "INTERRUPTED")

/-- R128. -/
def serveCleanAbort : List Txt → State → Served :=
  withFields .cleanAbort (fld number fun n => fin n) fun n =>
    onBay .cleanAbort n fun b s =>
      match liveClean s b with
      | some c => okay .cleanAbort [bayTok b, wd (abortClean b c.state s).2] (abortClean b c.state s).1
      | none => refuse .cleanAbort .state s

/-- R130. -/
def serveSetDetergent : List Txt → State → Served :=
  withFields .setDetergent (fld number fun n => fld number fun d => fin (n, d)) fun p =>
    onBay .setDetergent p.1 fun b s =>
      if p.2 ≤ 250 then okay .setDetergent [bayTok b, .num p.2] (setHygiene b (fun h => { h with detergent := p.2 }) s)
      else refuse .setDetergent .range s

/-! ## Reading -/

def originToks : Origin → List Tok
  | .host => [wd "HOST"]
  | .panel => [wd "PANEL"]
  | .window e => [wd "WINDOW", .num (e.val + 1)]

/-- R120: the limit of COOLING in milliseconds of unpaused time. -/
def coolingLimit : Nat := 1800000

/-- R122: the overrun in milliseconds of unpaused phase time. -/
def overrunTime : Nat := 600000

/-- The fields of a cleaning record as SHOW CLEANING gives them. The cooling and the overrun deadlines are given as the seconds of their own
counts that are left (assumption 12). -/
def cleanToks (c : CleanRec) (now : Nat) : List Tok :=
  [wd c.program.word] ++ originToks c.origin ++
  [wd c.state.word, .yn c.forced.isSome, optNum c.orderedId, .yn c.accepted, .num (c.phaseTime.read now / 1000), .yn c.complete, .yn c.paused,
   optNum c.graceDue, .num c.dosesSeen, .yn c.dispensed, optNum c.wakeDue,
   optNum (if c.state = .cooling then some ((coolingLimit - c.coolTime.read now) / 1000) else none),
   optNum (c.overrunAt.map (fun t => (t - c.phaseTime.read now) / 1000)), wd c.outcome.word, wd c.reason.word, .num c.started, optNum c.ended]

def pendingToks : Option PendingClean → List Tok
  | some p => [wd p.program.word, .num (p.entry.val + 1), .num p.threshold]
  | none => [noneTok]

/-- R117. An absent cleaning record beside a pending window cleaning is one NONE (DESIGN CHOICE, assumption 22). -/
def serveShowCleaning : List Txt → State → Served :=
  withFields .showCleaning (fld number fun n => fin n) fun n =>
    onBay .showCleaning n fun b s =>
      let x := s.clean[b]
      match x.record with
      | none =>
        if x.pendingWindow.isNone then refuse .showCleaning .absent s
        else okay .showCleaning ([bayTok b, noneTok] ++ pendingToks x.pendingWindow) s
      | some c => okay .showCleaning (bayTok b :: (cleanToks c s.now ++ pendingToks x.pendingWindow)) s

/-- The words DUE and BLOCKED of SHOW HYGIENE (R130). -/
def hygieneWords (h : Hygiene) : List Tok :=
  let l := (if cleanDue h then [wd "DUE"] else []) ++ (if hygieneBlocks h then [wd "BLOCKED"] else [])
  if l.isEmpty then [noneTok] else l

/-- R130. -/
def serveShowHygiene : List Txt → State → Served :=
  withFields .showHygiene (fld number fun n => fin n) fun n =>
    onBay .showHygiene n fun b s =>
      let h := s.clean[b].hygiene
      okay .showHygiene ([bayTok b, .num h.soil, .yn h.rinseOwed, .num h.detergent] ++ hygieneWords h) s

/-! ## Deadlines -/

/-- R121, R122: the duration of the present phase runs out. -/
def phaseDurationEnds (b : BayId) (s : State) : State :=
  match liveClean s b with
  | some c =>
    if c.state.isPhase ∧ c.accepted = true ∧ c.paused = false ∧ c.overrunAt = none ∧ c.duration ≤ c.phaseTime.read s.now then
      if c.complete then endPhase b s else s.setCleanRec b (fun x => { x with overrunAt := some (c.duration + overrunTime) })
    else s
  | none => s

/-- R122. In DRYING the SAFE of R122 is placed, though R129 (2) says that a DONE record places none (DESIGN CHOICE, assumption 50). -/
def overrunExpires (b : BayId) (s : State) : State :=
  match liveClean s b with
  | some c =>
    if reached c.overrunAt (c.phaseTime.read s.now) then
      let t := report b .cleanFailed s
      match c.state with
      | .washing => forceRinse b .failed .phaseTimeout t
      | .rinsing => endClean b .interrupted .nothing .phaseTimeout true .now t
      | .drying => endClean b .done .failed .phaseTimeout true .now t
      | _ => s
    else s
  | none => s

/-- R119. -/
def cleanWakeExpires (b : BayId) (s : State) : State :=
  match liveClean s b with
  | some c => if reached c.wakeDue s.sec then report b .cleanFailed (endClean b .failed .nothing .noWake false .now s) else s
  | none => s

/-- R120. -/
def coolingExpires (b : BayId) (s : State) : State :=
  match liveClean s b with
  | some c =>
    if c.state = .cooling ∧ coolingLimit ≤ c.coolTime.read s.now then
      report b .cleanFailed (endClean b .failed .nothing .coolTimeout true .now s)
    else s
  | none => s

/-- R126. -/
def cleanDoorExpires (b : BayId) (s : State) : State :=
  match liveClean s b with
  | some c =>
    if reached c.graceDue s.sec then endClean b .interrupted .nothing .doorTimeout true .now (report b .doorTimeout s) else s
  | none => s

end Sys2Proof.Machine
end

