-- ==== Sys2Proof/Machine/ClockRequests.lean ====
section
/-! DEFINITION. The host's requests to the Site Clock and the Schedule Table (R136, R138, R141-R143, R191) and the close deadline (R146). -/

namespace Sys2Proof.Machine

open Sys2Proof

/-! ## The clock -/

/-- R136: the calendar's fields lie in their ranges and the weekday is the date's. -/
def calendarOk (c : Calendar) : Bool :=
  within 2000 c.year 2099 && within 1 c.month 12 && within 1 c.day (daysIn c.year c.month) && c.hour ≤ 23 && c.minute ≤ 59 &&
    c.second ≤ 59 && within 1 c.weekday 7 && c.weekday == weekdayOf c.year c.month c.day

/-- The form of SET-CLOCK. -/
def parseClock : List Txt → Option (Calendar × Option Bool) :=
  fld number fun y => fld number fun mo => fld number fun d => fld number fun h => fld number fun mi => fld number fun se =>
  fld number fun w => fld ynField fun dst =>
    fin ({ year := y, month := mo, day := d, hour := h, minute := mi, second := se, weekday := w }, dst)

def calendarToks (c : Calendar) : List Tok :=
  [.num c.year, .num c.month, .num c.day, .num c.hour, .num c.minute, .num c.second, .num c.weekday]

/-- R136: the calendar is set, in one step; the change is handed to the look-ahead. -/
def setCalendar (c : Calendar) (dst : Bool) (s : State) : State :=
  lookAheadAll { s with clock := { s.clock with cal := c, inDst := dst, secondPass := false, valid := true, divider := 0 } }

/-- R136. -/
def serveSetClock : List Txt → State → Served :=
  withFields .setClock parseClock fun p s =>
    match p.2 with
    | some dst =>
      if calendarOk p.1 then okay .setClock (calendarToks p.1 ++ [.yn dst]) (setCalendar p.1 dst s) else refuse .setClock .range s
    | none => refuse .setClock .range s

def dstToks (r : DstRule) : List Tok :=
  [.yn r.enabled, .num r.startMonth, .num r.startNth, .num r.startHour, .num r.endMonth, .num r.endNth, .num r.endHour]

/-- The form of SET-DST. -/
def parseDst : List Txt → Option (Option DstRule) :=
  fld ynField fun e => fld number fun sm => fld number fun sn => fld number fun sh => fld number fun em => fld number fun en =>
  fld number fun eh => fin (e.map (fun e =>
    { enabled := e, startMonth := sm, startNth := sn, startHour := sh, endMonth := em, endNth := en, endHour := eh }))

/-- R138: the rule is set; the DST record is written and the change handed to the look-ahead. -/
def setRule (r : DstRule) (s : State) : State :=
  lookAheadAll (storePut (.dst r) { s with clock := settleDst { s.clock with rule := r } })

/-- R138. -/
def serveSetDst : List Txt → State → Served :=
  withFields .setDst parseDst fun o s =>
    match o with
    | some r => if dstOk r then okay .setDst (dstToks r) (setRule r s) else refuse .setDst .range s
    | none => refuse .setDst .range s

/-- R141. -/
def serveShowClock : List Txt → State → Served :=
  withFields .showClock (fin ()) fun _ s =>
    okay .showClock
      (calendarToks s.clock.cal ++ [.yn s.clock.valid, .yn s.clock.inDst, .yn s.clock.secondPass] ++ dstToks s.clock.rule ++ [.num s.sec]) s

/-! ## The schedule -/

/-- The word of an entry's program field. -/
def programWord : Option Program → String
  | some p => p.word
  | none => "NONE"

/-- The form of SCHEDULE-SET: the entry number, and the entry where its words and its bays are in range. -/
def parseSchedule : List Txt → Option (Nat × Option SchedEntry) :=
  fld number fun n => fld (wordField [WindowKind.clean, .update, .prestart] WindowKind.word) fun k => fld bayListField fun l =>
  fld anyField fun w => fld anyField fun h => fld anyField fun m => fld number fun d =>
  fld (wordField (none :: programs'.map some) programWord) fun p => fld number fun th => fld ynField fun e => fin (n,
    match k, bayMask l, w, h, m, p, e with
    | some k, some mask, some w, some h, some m, some p, some e =>
      some { kind := k, mask := mask, weekday := w, hour := h, minute := m, duration := d, program := p, threshold := th, enabled := e }
    | _, _, _, _, _, _, _ => none)
where
  /-- The programs by name. -/
  programs' : List Program := [.rinse, .light, .medium, .strong]

/-- Replaces an entry. -/
def setEntry (n : Fin 24) (e : Option SchedEntry) (s : State) : State :=
  { s with sched := { s.sched with entries := upd s.sched.entries n (fun _ => e) } }

/-- The word CLOSED where the entry had an open window. -/
def closedToks (s : State) (n : Fin 24) : List Tok := if windowOpen s n then [wd "CLOSED"] else []

/-- R110: a changed entry is handed to the look-ahead. -/
def entryChanged (n : Fin 24) (s : State) : State := lookAheadAll (dropDue n s)

/-- R142: an entry is rewritten. -/
def rewriteEntry (n : Fin 24) (e : SchedEntry) (s : State) : State :=
  entryChanged n (storePut (.sched n e) (setEntry n (some e) (closeEntryWindow n "REWRITTEN" s)))

/-- R142. -/
def serveScheduleSet : List Txt → State → Served :=
  withFields .scheduleSet parseSchedule fun p s =>
    match entryOf p.1, p.2 with
    | some n, some e =>
      if entryOk e then okay .scheduleSet (.num p.1 :: closedToks s n) (rewriteEntry n e s) else refuse .scheduleSet .range s
    | _, _ => refuse .scheduleSet .range s

/-- R143: an entry is emptied. -/
def clearEntry (n : Fin 24) (s : State) : State :=
  entryChanged n (storeRecord .profile (schedPos n) none (setEntry n none (closeEntryWindow n "CLEARED" s)))

/-- R143. -/
def serveScheduleClear : List Txt → State → Served :=
  withFields .scheduleClear (fld number fun n => fin n) fun n s =>
    match entryOf n with
    | some e => okay .scheduleClear (.num n :: closedToks s e) (clearEntry e s)
    | none => refuse .scheduleClear .range s

def schedToks (s : State) (n : Fin 24) : List Tok :=
  .num (n.val + 1) ::
    ((match s.sched.entries[n] with
      | some e =>
        [wd e.kind.word, .bays e.mask, anyNum e.weekday, anyNum e.hour, anyNum e.minute, .num e.duration, optProgram e.program,
         .num e.threshold, .yn e.enabled]
      | none => [wd "EMPTY"]) ++ [.yn (windowOpen s n)])

/-- R142. -/
def serveShowSchedule : List Txt → State → Served :=
  withFields .showSchedule (optFld number) fun o s =>
    match o with
    | none => okay .showSchedule (groups ((List.finRange 24).map (schedToks s))) s
    | some n =>
      match entryOf n with
      | some e => okay .showSchedule (schedToks s e) s
      | none => refuse .showSchedule .range s

/-- R191. -/
def serveShowWindows : List Txt → State → Served :=
  withFields .showWindows (fin ()) fun _ s =>
    okay .showWindows
      (if s.sched.windows.isEmpty then [noneTok]
       else groups (s.sched.windows.map (fun w =>
         [.num (w.entry.val + 1), wd w.kind.word, .bays w.mask, optProgram w.program, .num w.threshold, .num w.opened, .num w.closes]))) s

/-- R146. -/
def windowExpires (n : Fin 24) (s : State) : State :=
  if reached ((windowOf s n).map OpenWindow.closes) s.sec then closeEntryWindow n "EXPIRED" s else s

end Sys2Proof.Machine
end

