-- ==== Sys2Proof/Machine/RunRequests.lean ====
section
/-! DEFINITION. The host's requests to the Run Engine (R66, R75, R78, R81, R86) and the expiries of its deadlines. -/

namespace Sys2Proof.Machine

open Sys2Proof

/-- R66. -/
def serveRunStart : List Txt → State → Served :=
  withFields .runStart (fld number fun n => fld number fun k => fin (n, k)) fun p =>
    onBay .runStart p.1 fun b s =>
      if within 1 p.2 999 then
        match runCheck s b p.2 with
        | .error r => refuse .runStart r s
        | .ok e =>
          okay .runStart
            [bayTok b, .num (takeRunId s), .num p.2, .num e.cur.revision, wd (if s.reg[b].power = .standby then "WAKING" else "ON")]
            (startRun b e s)
      else refuse .runStart .range s

/-- R75. -/
def servePromptDone : List Txt → State → Served :=
  withFields .promptDone (fld number fun n => fin n) fun n =>
    onBay .promptDone n fun b s =>
      match liveRun s b with
      | some r => if r.state = .prompting then okay .promptDone [bayTok b, .num r.id] (advanceRun b s) else refuse .promptDone .state s
      | none => refuse .promptDone .state s

/-- R81. -/
def serveRunAbort : List Txt → State → Served :=
  withFields .runAbort (fld number fun n => fin n) fun n =>
    onBay .runAbort n fun b s =>
      match liveRun s b with
      | some r => okay .runAbort [bayTok b, .num r.id] (abortRun b .host s)
      | none => refuse .runAbort .state s

/-- R86. -/
def serveRunClear : List Txt → State → Served :=
  withFields .runClear (fld number fun n => fin n) fun n =>
    onBay .runClear n fun b s =>
      match s.runs.runs[b] with
      | none => refuse .runClear .absent s
      | some r =>
        if r.state.final then
          okay .runClear [bayTok b, .num r.id] { s with runs := { s.runs with runs := upd s.runs.runs b (fun _ => none) } }
        else refuse .runClear .state s

/-- The fields of a run record as SHOW RUN gives them (R86). -/
def runToks (r : Run) (now : Nat) : List Tok :=
  [.num r.id, .num r.number, .num r.rev.revision, wd r.state.word, if r.state = .paused then wd r.resume.word else noneTok,
   .num r.stepIndex, .yn r.accepted, .tenths r.setpoint, .yn r.clamped, .num (r.elapsed.read now / 1000), .num r.pauseTotal,
   optNum r.coreReached, .num r.credit, optInt r.rate, optNum r.estimate] ++
  (if r.state.final then [wd r.state.word, wd r.reason.word] else [noneTok]) ++
  [.num r.admitted, optNum r.started, optNum r.ended, .num r.soilAdded]

/-- R86. -/
def serveShowRun : List Txt → State → Served :=
  withFields .showRun (fld number fun n => fin n) fun n =>
    onBay .showRun n fun b s =>
      match s.runs.runs[b] with
      | none => refuse .showRun .absent s
      | some r => okay .showRun (bayTok b :: runToks r s.now) s

/-- R45: the SITE record as the settings stand. -/
def storeSite (s : State) : State := storePut (.site s.heat.limit s.runs.doorGrace s.heat.idleTime) s

/-- R78. -/
def serveSetDoorGrace : List Txt → State → Served :=
  withFields .setDoorGrace (fld number fun n => fin n) fun n s =>
    let v := clampTo 30 n 900
    okay .setDoorGrace [.num v] (storeSite { s with runs := { s.runs with doorGrace := v } })

/-! ## Deadlines -/

/-- R68. -/
def runWakeExpires (b : BayId) (s : State) : State :=
  match liveRun s b with
  | some r => if reached r.wakeDue s.sec then abortRun b .noWake s else s
  | none => s

/-- R73: the deadline is a point of the step's elapsed time, in milliseconds. -/
def maximumTimeExpires (b : BayId) (s : State) : State :=
  match liveRun s b with
  | some r =>
    if r.state = .running ∧ reached r.maxDue (r.elapsed.read s.now) = true then
      abortRun b .coreNotReached (report b .coreNotReached s)
    else s
  | none => s

/-- R75. -/
def promptExpires (b : BayId) (s : State) : State :=
  match liveRun s b with
  | some r => if reached (r.prompt.map Prod.snd) s.sec then abortRun b .promptTimeout s else s
  | none => s

/-- R77. -/
def runDoorExpires (b : BayId) (s : State) : State :=
  match liveRun s b with
  | some r => if reached r.graceDue s.sec then abortRun b .doorTimeout (report b .doorTimeout s) else s
  | none => s

/-- R79. -/
def runawayExpires (b : BayId) (s : State) : State :=
  match liveRun s b with
  | some r => if reached r.runawayDue s.sec then abortRun b .runaway (report b .tempRunaway s) else s
  | none => s

end Sys2Proof.Machine
end

