-- ==== Sys2Proof/Machine/HeatRequests.lean ====
section
/-! DEFINITION. The host's requests to the Heat Share Allocator (R101, R107, R112, R114) and the expiries of its deadlines. -/

namespace Sys2Proof.Machine

open Sys2Proof

/-- R101. -/
def serveSetLimit : List Txt → State → Served :=
  withFields .setLimit (fld powerField fun n => fin n) fun n s =>
    let v := clampTo 50 n 4000
    okay .setLimit [.tenths v] (recompute (storeSite { s with heat := { s.heat with limit := v } }))

/-- R107. -/
def serveSetStandbyIdle : List Txt → State → Served :=
  withFields .setStandbyIdle (fld number fun n => fin n) fun n s =>
    let v := clampTo 5 n 240
    okay .setStandbyIdle [.num v] ((storeSite { s with heat := { s.heat with idleTime := v } }).each allBays examineStandby)

/-- R112: the word of WAKE's reply; a WAKE that the full queue leaves only held is answered SENT too (DESIGN CHOICE, assumption 43). -/
def wakeWord (s : State) (b : BayId) : String :=
  if wakes s b then "SENT" else if s.reg[b].power = .off then "OFF" else "ON"

/-- R112. -/
def serveWake : List Txt → State → Served :=
  withFields .wake (fld number fun n => fin n) fun n =>
    onBay .wake n fun b s =>
      if s.reg[b].state = .ready then okay .wake [bayTok b, wd (wakeWord s b)] (wakeCause b s) else refuse .wake .state s

/-- The budget used, in sixteenths of tenths (R114). -/
def budgetUsed (s : State) : Nat := (allBays.map (fun b => ratedOf s b * s.heat.bays[b].allowance)).sum

/-- A class, or NONE. -/
def classTok : Option HeatClass → Tok
  | some c => wd c.word
  | none => noneTok

/-- The whole allocation as SHOW HEAT gives it. -/
def heatToks (s : State) : List Tok :=
  let p := s.heat.ptr
  [.tenths s.heat.limit, .num s.heat.idleTime, .num (budgetUsed s), .num (s.heat.limit * 16 - budgetUsed s), bayTok p.core, bayTok p.cook,
   bayTok p.clean, bayTok p.idle] ++
  (allBays.map (fun b => [.sep, .num s.heat.bays[b].allowance, classTok s.heat.bays[b].cls])).flatten

/-- A bay's allocation record as SHOW HEAT gives it. -/
def heatBayToks (s : State) (b : BayId) : List Tok :=
  let h := s.heat.bays[b]
  [bayTok b, .num h.allowance, classTok h.cls, .yn h.demand, optNum h.sent, optNum h.zeroSince, .yn h.starvedReported, optNum h.idleRef,
   optNum (idleDeadline s b), .yn h.standbyRequested, wd ((standbyFails s b).getD "NONE")]

/-- R114. -/
def serveShowHeat : List Txt → State → Served :=
  withFields .showHeat (optFld number) fun o s =>
    match o with
    | none => okay .showHeat (heatToks s) s
    | some n => onBay .showHeat n (fun b t => okay .showHeat (heatBayToks t b) t) s

/-- R106. -/
def starvationExpires (b : BayId) (s : State) : State :=
  if reached s.heat.bays[b].starveDue s.sec then
    (report b .starved s).setHeat b (fun h => { h with starvedReported := true, starveDue := none })
  else s

/-- R109. -/
def idleExpires (b : BayId) (s : State) : State := if reached (idleDeadline s b) s.sec then examineStandby b s else s

end Sys2Proof.Machine
end

