-- ==== Sys2Proof/Machine/RecipeRequests.lean ====
section
/-! DEFINITION. The host's requests to the Recipe Library (R48-R57) and the passes of an import (R60-R62). -/

namespace Sys2Proof.Machine

open Sys2Proof

/-! ## Loading (R54-R56) -/

/-- The form of RECIPE-BEGIN: the number, the header, whose probe field may be out of range, and the step count. -/
def parseRecipeBegin : List Txt → Option (Nat × Option Revision × Nat) :=
  fld number fun n => fld number fun rv => fld nameField fun nm => fld number fun sc => fld number fun fw => fld ynField fun p =>
  fld number fun k => fin (n, p.map (fun p => { revision := rv, name := nm, soilClass := sc, minFirmware := fw, probe := p, steps := [] }), k)

/-- R54: the checks of an opening, in their order, for a header in range. -/
def beginCheck (l : Library) (number revision count : Nat) : Option Reason :=
  if l.load.isSome || l.job.isSome then some .busy
  else
    match entryFor l.index number with
    | some e =>
      if revision ≤ e.cur.revision then some .stale
      else if 0 < e.pins && e.retired.isSome then some .busy
      else if l.free < count then some .full
      else none
    | none => if indexRoom ≤ l.index.length || l.free < count then some .full else none

/-- R54: the load opens. -/
def openLoad (number count : Nat) (r : Revision) (s : State) : State :=
  { s with lib := { s.lib with
    load := some { number := number, head := r, count := count, next := 1, deadline := s.sec + 60 },
    free := s.lib.free - count, reserved := s.lib.reserved + count } }

/-- R54. -/
def serveRecipeBegin : List Txt → State → Served :=
  withFields .recipeBegin parseRecipeBegin fun p s =>
    match p.2.1 with
    | none => refuse .recipeBegin .range s
    | some r =>
      if headerOk p.1 r.revision r.name r.soilClass r.minFirmware p.2.2 then
        match beginCheck s.lib p.1 r.revision p.2.2 with
        | some x => refuse .recipeBegin x s
        | none => okay .recipeBegin [.num p.1, wd "NEXT", .num 1] (openLoad p.1 p.2.2 r s)
      else refuse .recipeBegin .range s

/-- The end words of a step. -/
inductive EndWord where
  | time | core | coreHold
deriving DecidableEq, Repr

def EndWord.word : EndWord → String
  | .time => "TIME"
  | .core => "CORE"
  | .coreHold => "CORE_HOLD"

/-- The end fields and the maximum step time, by the end word (R49). -/
def parseEnd (e : EndWord) (k : StepEnd → Nat → List Txt → Option (Option Step)) : List Txt → Option (Option Step) :=
  match e with
  | .time => fld number fun t => k (.time t) t
  | .core => fld tempField fun z => fld number fun m => k (.core z) m
  | .coreHold => fld tempField fun z => fld tempField fun base => fld number fun c => fld number fun m => k (.coreHold z base c) m

/-- The form of RECIPE-STEP: k, and the step where every word is one of its field's words. With an unknown end word the fields after it have
no form to be judged by, and the owner refuses RANGE. -/
def parseRecipeStep : List Txt → Option (Nat × Option Step) :=
  fld number fun k rest =>
    ((fld (wordField [StepKind.preheat, .hotAir, .steam, .combi] StepKind.word) fun kind =>
      fld (wordField [Control.fixed, .delta] Control.word) fun control =>
      fld tempField fun target => fld tempField fun delta => fld number fun hum => fld number fun fan =>
      fld (wordField [EndWord.time, .core, .coreHold] EndWord.word) fun e after =>
        match e with
        | none => some none
        | some e => parseEnd e (fun en mx => fld ynField fun y => fin (
            match kind, control, y with
            | some kd, some ct, some pr =>
              some { kind := kd, control := ct, target := target, delta := delta, humidity := hum, fan := fan, fin := en, maximum := mx, prompt := pr }
            | _, _, _ => none)) after) rest).map (fun st => (k, st))

/-- R55: the reply to the last step. -/
def installReply (k number revision : Nat) (i : Installed) (s : State) : Served :=
  match i with
  | .new => okay .recipeStep [.num k, wd "INSTALLED", .num number, .num revision, wd "NEW"] s
  | .replaced => okay .recipeStep [.num k, wd "INSTALLED", .num number, .num revision, wd "REPLACED"] s
  | .retired old => okay .recipeStep [.num k, wd "INSTALLED", .num number, .num revision, wd "RETIRED", .num old] s
  | .busy => refuse .recipeStep .busy s
  | .stale => refuse .recipeStep .stale s

/-- R55: a step in range, with k expected. -/
def takeStep (l : Load) (st : Step) (s : State) : Served :=
  let r : Revision := { l.head with steps := l.head.steps ++ [st] }
  if l.next < l.count then
    okay .recipeStep [.num l.next, wd "NEXT", .num (l.next + 1)]
      { s with lib := { s.lib with load := some { l with head := r, next := l.next + 1 } } }
  else
    installReply l.next l.number r.revision (judgeInstall s.lib.index l.number r)
      (install l.number r { s with lib := { s.lib with load := none } })

/-- R55. -/
def serveRecipeStep : List Txt → State → Served :=
  withFields .recipeStep parseRecipeStep fun p s =>
    match s.lib.load with
    | none => refuse .recipeStep .sequence s
    | some l =>
      if p.1 ≠ l.next then refuse .recipeStep .sequence (abandonLoad s)
      else
        match p.2 with
        | some st => if stepOk l.head.probe st then takeStep l st s else refuse .recipeStep .range s
        | none => refuse .recipeStep .range s

/-- R56. -/
def serveRecipeCancel : List Txt → State → Served :=
  withFields .recipeCancel (fin ()) fun _ s =>
    match s.lib.load with
    | some l => okay .recipeCancel [.num l.number] (abandonLoad s)
    | none => refuse .recipeCancel .state s

/-- R53: the withdrawal of an entry that is not withdrawn; the LIBRARY removal is handed over. -/
def withdrawEntry (e : Entry) (s : State) : State := storeRecord .library e.number none (settleEntry { e with withdrawn := true } s)

/-- R53. -/
def serveRecipeWithdraw : List Txt → State → Served :=
  withFields .recipeWithdraw (fld number fun n => fin n) fun n s =>
    if within 1 n 999 then
      match (entryFor s.lib.index n).filter (fun e => !e.withdrawn) with
      | none => refuse .recipeWithdraw .absent s
      | some e =>
        okay .recipeWithdraw (if e.allPins = 0 then [.num n, wd "REMOVED"] else [.num n, wd "PENDING", .num e.allPins]) (withdrawEntry e s)
    else refuse .recipeWithdraw .range s

/-- R57. -/
def serveSetQuick : List Txt → State → Served :=
  withFields .setQuick (fld number fun i => fld number fun n => fin (i, n)) fun p s =>
    if h : 1 ≤ p.1 ∧ p.1 ≤ 15 ∧ p.2 ≤ 999 then
      let q := upd s.lib.quick ⟨p.1 - 1, by omega⟩ (fun _ => p.2)
      okay .setQuick [.num p.1, .num p.2] (storePut (.quick q) { s with lib := { s.lib with quick := q } })
    else refuse .setQuick .range s

/-! ## Reading -/

def endToks : StepEnd → List Tok
  | .time t => [wd "TIME", .num t]
  | .core z => [wd "CORE", .tenths z]
  | .coreHold z base c => [wd "CORE_HOLD", .tenths z, .tenths base, .num c]

/-- R50: the fields of a step; a TIME step too gives its maximum step time (DESIGN CHOICE, assumption 22). -/
def stepToks (st : Step) : List Tok :=
  [wd st.kind.word, wd st.control.word, .tenths st.target, .tenths st.delta, .num st.humidity, .num st.fan] ++ endToks st.fin ++
    [.num st.maximum, .yn st.prompt]

def entryToks (e : Entry) : List Tok :=
  let r := e.cur
  [.num r.revision, .txt r.name, .num r.soilClass, .num r.minFirmware, .yn r.probe, .num r.size, .num e.pins] ++
    (match e.retired with
     | some x => [.num x.rev.revision, .num x.pins]
     | none => [noneTok]) ++ [.yn e.withdrawn]

/-- R50. -/
def serveShowRecipe : List Txt → State → Served :=
  withFields .showRecipe (fld number fun n rest => (optFld number rest).map (fun k => (n, k))) fun p s =>
    if !(within 1 p.1 999 && p.2.all (fun k => within 1 k 12)) then refuse .showRecipe .range s
    else
      match entryFor s.lib.index p.1 with
      | none => refuse .showRecipe .absent s
      | some e =>
        match p.2 with
        | none => okay .showRecipe (.num p.1 :: entryToks e) s
        | some k =>
          match (if k = 0 then none else e.cur.steps[k - 1]?) with
          | some st => okay .showRecipe (.num p.1 :: .num k :: stepToks st) s
          | none => refuse .showRecipe .range s

/-- R50. -/
def serveShowLibrary : List Txt → State → Served :=
  withFields .showLibrary (fin ()) fun _ s =>
    okay .showLibrary
      ([.num s.lib.index.length, .num s.lib.free, .num s.lib.reserved] ++
        (match s.lib.load with
         | some l => [.num l.number, .num l.head.revision, .num l.next]
         | none => [noneTok]) ++
        [optNum (s.lib.job.map (fun j => j.slot.val + 1))]) s

/-- R57. -/
def serveShowQuick : List Txt → State → Served :=
  withFields .showQuick (fin ()) fun _ s => okay .showQuick (s.lib.quick.toList.map Tok.num) s

/-! ## Importing (R60-R62) -/

/-- R60. -/
def serveLibraryImport : List Txt → State → Served :=
  withFields .libraryImport (fld number fun n => fin n) fun n s =>
    match fourOf n with
    | none => refuse .libraryImport .range s
    | some k =>
      let x := s.dist.slots[k]
      if x.header.state = .sealing then refuse .libraryImport .busy s
      else if x.header.state ≠ .verified ∨ x.header.kind ≠ .recipes then refuse .libraryImport .state s
      else if s.lib.load.isSome || s.lib.job.isSome then refuse .libraryImport .busy s
      else
        okay .libraryImport [.num n]
          (({ s with lib := { s.lib with job := some { slot := k, rest := none, installed := 0, stale := 0, busy := 0 } } } : State).setSlot k
            (fun y => { y with users := y.users + 1 }))

/-- The import of a slot ends with its IMPORT-RESULT (R60). -/
def endImport (k : Fin 4) (fields : List Tok) (s : State) : State :=
  queueNotice .importResult (.num (k.val + 1) :: fields) (dropUser k { s with lib := { s.lib with job := none } })

/-- R61: the walk of the reservation: the slots and new entries of the records so far; the first record that does not fit is answered by its
index. -/
def reserveWalk (l : Library) (i slots entries : Nat) : List BundleRecord → Except Nat Nat
  | [] => .ok slots
  | r :: rest =>
    let n := slots + r.rev.size
    let m := if (entryFor l.index r.number).isSome then entries else entries + 1
    if l.free < n || indexRoom < l.index.length + m then .error i else reserveWalk l (i + 1) n m rest

def BadRecord.word : BadRecord → String
  | .range => "RANGE"
  | .duplicate => "DUPLICATE"

/-- R61: the validation pass and the reservation. -/
def validateImport (s : State) : State :=
  match s.lib.job with
  | some { slot := k, rest := none, .. } =>
    match readSet (s.store.stagingBytes k 0 s.dist.slots[k].header.length) with
    | .error (i, why) => endImport k [wd "FAILED", .num i, wd why.word] s
    | .ok recs =>
      match reserveWalk s.lib 1 0 0 recs with
      | .error i => endImport k [wd "FAILED", .num i, wd "FULL"] s
      | .ok n =>
        { s with lib := { s.lib with free := s.lib.free - n, reserved := s.lib.reserved + n,
                                     job := s.lib.job.map (fun j => { j with rest := some recs }) } }
  | _ => s

/-- R62: one record of the install pass. -/
def installRecord (j : Import) (r : BundleRecord) (s : State) : State × Import :=
  match judgeInstall s.lib.index r.number r.rev with
  | .stale => (s, { j with stale := j.stale + 1 })
  | .busy => (s, { j with busy := j.busy + 1 })
  | _ => (install r.number r.rev s, { j with installed := j.installed + 1 })

/-- R62: when the last record has been taken, the slots left over become free. -/
def finishImport (j : Import) (s : State) : State :=
  endImport j.slot [wd "DONE", .num j.installed, .num j.stale, .num j.busy]
    { s with lib := { s.lib with free := s.lib.free + s.lib.reserved, reserved := 0 } }

/-- R62. -/
def importNext (s : State) : State :=
  match s.lib.job with
  | some { slot := k, rest := some (r :: rest), installed := i, stale := st, busy := bu } =>
    let t := installRecord { slot := k, rest := some rest, installed := i, stale := st, busy := bu } r s
    if rest.isEmpty then finishImport t.2 t.1 else { t.1 with lib := { t.1.lib with job := some t.2 } }
  | _ => s

end Sys2Proof.Machine
end

