-- ==== Sys2Proof/Machine/ServiceRequests.lean ====
section
/-! DEFINITION. The host's requests to the Service Monitor (R148, R151-R153, R156, R158, R160, R161, R163, R165), the lane timers (R157) and
escalation (R159, R164). -/

namespace Sys2Proof.Machine

open Sys2Proof

/-! ## Settings and latches -/

/-- The field that names an event kind. -/
def kindField : Txt → Option (Option EventKind) := wordField EventKind.all EventKind.word

/-- R153: a kind is enabled; each set latch of it is acted on. -/
def enabledNow (k : EventKind) (s : State) : State :=
  s.each allBays (fun b t => if t.mon.bays[b].latches[k.slot].set then announce b k t else t)

/-- R148: a change of severity to or from 3 is handed to the Allocator, bay by bay. -/
def severityChanged (k : EventKind) (s : State) : State :=
  s.each allBays (fun b t => if t.mon.bays[b].latches[k.slot].set then examineStandby b t else t)

/-- R148: the settings of a kind change. -/
def setEvent (k : EventKind) (e : EventSetting) (s : State) : State :=
  let old := settingOf s k
  let t := storePut (.event k.slot e) { s with mon := { s.mon with settings := upd s.mon.settings k.slot (fun _ => e) } }
  let u := if e.enabled && !old.enabled then enabledNow k t else t
  if old.severity ≠ e.severity ∧ (old.severity = 3 ∨ e.severity = 3) then severityChanged k u else u

/-- R148. -/
def serveSetEvent : List Txt → State → Served :=
  withFields .setEvent
    (fld kindField fun k => fld number fun sv => fld (wordField [CallRoute.notice, .call] CallRoute.word) fun rt => fld ynField fun en =>
      fin (k, sv, rt, en)) fun p s =>
    match p with
    | (some k, sv, some rt, some en) =>
      if within 1 sv 3 then
        okay .setEvent [wd k.word, .num sv, wd rt.word, .yn en] (setEvent k { severity := sv, route := rt, enabled := en } s)
      else refuse .setEvent .range s
    | _ => refuse .setEvent .range s

/-- What ACK-EVENT names. -/
inductive AckTarget where
  | one (k : EventKind)
  | all
deriving DecidableEq, Repr

/-- The second field of ACK-EVENT. -/
def ackField (t : Txt) : Option (Option AckTarget) :=
  (kindField t).map (fun o => match o with
    | some k => some (.one k)
    | none => if t == "ALL".toList then some .all else none)

/-- The kinds of a bay whose latches persist (R151). -/
def persisting (s : State) (b : BayId) : List EventKind := EventKind.all.filter (latchPersists s b)

/-- R151. -/
def serveAckEvent : List Txt → State → Served :=
  withFields .ackEvent (fld number fun n => fld ackField fun k => fin (n, k)) fun p =>
    onBay .ackEvent p.1 fun b s =>
      match p.2 with
      | none => refuse .ackEvent .range s
      | some (.one k) =>
        okay .ackEvent [bayTok b, wd k.word, wd (if latchPersists s b k then "PERSISTS" else "CLEARED")] (acknowledge b k s)
      | some .all =>
        let l := persisting s b
        okay .ackEvent
          (if l.isEmpty then [bayTok b, wd "ALL", wd "CLEARED"] else [bayTok b, wd "ALL", wd "PERSISTS"] ++ l.map (fun k => wd k.word))
          (s.each EventKind.all (acknowledge b))

/-- R152. -/
def serveForceEvent : List Txt → State → Served :=
  withFields .forceEvent (fld number fun n => fld kindField fun k => fin (n, k)) fun p =>
    onBay .forceEvent p.1 fun b s =>
      match p.2 with
      | none => refuse .forceEvent .range s
      | some k =>
        okay .forceEvent [bayTok b, wd k.word, wd (if s.mon.bays[b].latches[k.slot].set then "ALREADY" else "SET")] (latch b k true s)

/-! ## Dispatch (R156, R157) -/

/-- R156: the dispatched call that an answer names. -/
def dispatched (s : State) (id number : Nat) : Option Call :=
  (callOf s id).filter (fun c => decide (c.state = .dispatched) && c.number == number)

/-- R156, R158: a technician has taken the call. -/
def acceptCall (c : Call) (s : State) : State :=
  arbiter (freeCallLane c.id (s.setCall c.id (fun x =>
    { x with state := .acknowledged, lane := none, deadline := some (s.sec + escalationTime x.severity) })))

/-- R156: the service desk has turned the call down. -/
def refuseCall (c : Call) (s : State) : State :=
  arbiter (freeCallLane c.id (s.setCall c.id (fun x => { x with state := .waiting, lane := none })))

/-- The form and the ranges of an answer to a dispatch. -/
def withDispatch (v : Verb) (act : Call → State → State) : List Txt → State → Served :=
  withFields v (fld number fun id => fld number fun n => fin (id, n)) fun p s =>
    if within 1 p.1 65535 && within 1 p.2 255 then
      match dispatched s p.1 p.2 with
      | some c => okay v [.num p.1] (act c s)
      | none => refuse v .stale s
    else refuse v .range s

/-- R156. -/
def serveCallAccepted : List Txt → State → Served := withDispatch .callAccepted acceptCall

/-- R156. -/
def serveCallRefused : List Txt → State → Served := withDispatch .callRefused refuseCall

/-- R157: the call of an expired lane timer. -/
def Call.timeOut (c : Call) : Call :=
  if c.timeouts + 1 = 3 then { c with state := .waiting, lane := none, timeouts := 0, severity := min (c.severity + 1) 3 }
  else { c with state := .waiting, lane := none, timeouts := c.timeouts + 1 }

/-- R157. -/
def laneExpires (l : Fin 2) (s : State) : State :=
  match s.mon.lanes[l] with
  | some x => if x.due ≤ s.sec then arbiter (freeCallLane x.call (s.setCall x.call Call.timeOut)) else s
  | none => s

/-! ## Progress, escalation and close -/

/-- R158. -/
def serveCallProgress : List Txt → State → Served :=
  withFields .callProgress (fld number fun id => fld ynField fun y => fin (id, y)) fun p s =>
    match p.2 with
    | none => refuse .callProgress .range s
    | some site =>
      if within 1 p.1 65535 then
        match (callOf s p.1).filter (fun c => decide (c.state = .acknowledged)) with
        | none => refuse .callProgress .stale s
        | some _ =>
          if site then
            okay .callProgress [.num p.1, wd "ON_SITE"] (s.setCall p.1 (fun x => { x with state := .onSite, deadline := none }))
          else
            okay .callProgress [.num p.1, wd "ACKNOWLEDGED"]
              (s.setCall p.1 (fun x => if x.level = 2 then x else { x with deadline := some (s.sec + escalationTime x.severity) }))
      else refuse .callProgress .range s

/-- R164: an automation hold is placed on a bay for a call. -/
def automationHold (b : BayId) (id : Nat) (s : State) : State :=
  if s.mon.bays[b].hold = .automation then s.setMon b (fun m => { m with causes := m.causes ++ [id] })
  else
    let t := if s.reg[b].activity = .nothing then placeSafe b s else endJobHeld b s
    let u := setHold b .automation false (t.setMon b (fun m => { m with takeDeferred := false, causes := m.causes ++ [id] }))
    handOnIfEnded s.reg[b].activity b u

/-- The ESCALATED notice (R159). -/
def escalatedNotice (c : Call) (action : String) (s : State) : State :=
  queueNotice .escalated [.num c.id, bayTok c.bay, wd c.kind.word, .num (c.level + 1), wd action] s

/-- R159: the escalation of a call whose deadline has expired. -/
def escalate (c : Call) (s : State) : State :=
  let t := s.setCall c.id (fun x => { x with level := x.level + 1, deadline := none })
  if c.level = 0 then arbiter (escalatedNotice c "REDISPATCH" (t.setCall c.id (fun x => { x with state := .waiting })))
  else if c.kind = .tempRunaway ∨ c.kind = .supplyMismatch then escalatedNotice c "HOLD" (automationHold c.bay c.id t)
  else escalatedNotice c "NOTICE" t

/-- R159. -/
def escalationExpires (id : Nat) (s : State) : State :=
  match callOf s id with
  | some c => if reached c.deadline s.sec then escalate c s else s
  | none => s

/-- R160: a call is closed. -/
def closeCall (c : Call) (s : State) : State :=
  let t := freeCallLane c.id s
  let u := if latchPersists t c.bay c.kind then t else clearLatch c.bay c.kind t
  let v : State := { u with mon := { u.mon with calls := u.mon.calls.filter (fun x => x.id ≠ c.id) } }
  let w := queueNotice .callEnd [.num c.id, bayTok c.bay, wd c.kind.word, wd c.state.word]
    (v.setMon c.bay (fun m => { m with causes := m.causes.filter (fun i => i ≠ c.id) }))
  arbiter (rescan w)

/-- R160. -/
def serveCallClose : List Txt → State → Served :=
  withFields .callClose (fld number fun id => fin id) fun id s =>
    if within 1 id 65535 then
      match callOf s id with
      | some c => okay .callClose [.num id] (closeCall c s)
      | none => refuse .callClose .stale s
    else refuse .callClose .range s

/-! ## Holds (R161, R163) -/

/-- R161: a forced take, and what the reply says of the job it ended. -/
def forcedTake (b : BayId) (s : State) : State := handOnIfEnded s.reg[b].activity b (takeHold b (endJobHeld b s))

/-- R161: the word for the ended job. -/
def endedWord (a : Activity) : List Tok :=
  match a with
  | .nothing => []
  | .cook => [wd "ABORTED"]
  | .clean => [wd "INTERRUPTED"]
  | .update => [wd "FAILED"]

/-- R161. -/
def serveTechTake : List Txt → State → Served :=
  withFields .techTake (fld number fun n => fld ynField fun y => fin (n, y)) fun p =>
    onBay .techTake p.1 fun b s =>
      match p.2 with
      | none => refuse .techTake .range s
      | some force =>
        let a := s.reg[b].activity
        if s.mon.bays[b].hold = .automation then refuse .techTake .state s
        else if a ≠ .nothing ∧ (force = false ∨ applying s b = true) then refuse .techTake .busy s
        else okay .techTake ([bayTok b, wd "TECHNICIAN"] ++ endedWord a) (forcedTake b s)

/-- R163. -/
def serveTechRelease : List Txt → State → Served :=
  withFields .techRelease (fld number fun n => fin n) fun n =>
    onBay .techRelease n fun b s =>
      if s.mon.bays[b].hold = .technician then okay .techRelease [bayTok b, wd "PENDING"] (setHold b .technician true s)
      else refuse .techRelease .state s

/-- R163: the hold may be cleared. -/
def clearable (s : State) (b : BayId) : Bool :=
  let m := s.mon.bays[b]
  match m.hold with
  | .nothing => false
  | .technician => m.releasePending
  | .automation => !m.causes.any (fun id => (callOf s id).isSome)

/-- R163: a bay returns to production; its hold is one of the standby conditions (R109). -/
def clearHold (b : BayId) (s : State) : State :=
  examineStandby b (setHold b .nothing false (s.setMon b (fun m => { m with causes := [] })))

/-- R163. -/
def serveHoldClear : List Txt → State → Served :=
  withFields .holdClear (fld number fun n => fin n) fun n =>
    onBay .holdClear n fun b s =>
      if clearable s b then okay .holdClear [bayTok b] (clearHold b s) else refuse .holdClear .state s

/-! ## Reading (R165) -/

/-- R165: one kind of SHOW EVENTS of a bay. The latest code for OVEN_FAULT is that of its latch (DESIGN CHOICE, assumption 65). -/
def latchToks (s : State) (b : BayId) (k : EventKind) : List Tok :=
  let x := s.mon.bays[b].latches[k.slot]
  [wd (if x.set then "SET" else "CLEAR"), .num x.time, wd (if x.forced then "FORCED" else "DETECTED"), .yn x.owed] ++
    (if k.level then [.yn (condition s b k)] else []) ++ (if k = .ovenFault then [.num x.code] else [])

def eventsToks (s : State) (b : BayId) : List Tok :=
  let m := s.mon.bays[b]
  bayTok b :: groups (EventKind.all.map (latchToks s b) ++
    [[wd m.hold.word, .yn m.releasePending, .yn m.takeDeferred] ++ (if m.causes.isEmpty then [noneTok] else m.causes.map Tok.num)])

/-- R165. -/
def serveShowEvents : List Txt → State → Served :=
  withFields .showEvents (optFld number) fun o s =>
    match o with
    | none =>
      okay .showEvents
        (groups (EventKind.all.map (fun k =>
            let e := settingOf s k
            [.num e.severity, wd e.route.word, .yn e.enabled]))) s
    | some n => onBay .showEvents n (fun b t => okay .showEvents (eventsToks t b) t) s

def callToks (c : Call) : List Tok :=
  [.num c.id, bayTok c.bay, wd c.kind.word, .num c.severity, optNum c.raisedCode, optNum c.latestCode, .num c.raised, wd c.state.word,
   optNum (c.lane.map (fun l => l.val + 1)), .num c.number, .num c.timeouts, .num c.level, optNum c.deadline, .sep]

def laneToks : Option Lane → List Tok
  | some l => [.num l.call, .num l.due, .sep]
  | none => [wd "FREE", .sep]

/-- R165. -/
def serveShowCalls : List Txt → State → Served :=
  withFields .showCalls (fin ()) fun _ s =>
    okay .showCalls
      ((s.mon.calls.map callToks).flatten ++ (s.mon.lanes.toList.map laneToks).flatten ++ [bayTok s.mon.lastBay, .num s.mon.nextCall]) s

end Sys2Proof.Machine
end

