-- ==== Sys2Proof/Machine/UpdateRequests.lean ====
section
/-! DEFINITION. The host's requests to the Update Distributor (R167-R173, R181, R182), the end of a seal (R170) and the expiries of its
deadlines. -/

namespace Sys2Proof.Machine

open Sys2Proof

/-- A field that names one of the four slots or channels. -/
def onFour (v : Verb) (n : Nat) (k : Fin 4 → State → Served) (s : State) : Served :=
  match fourOf n with
  | some c => k c s
  | none => refuse v .range s

/-! ## Slots -/

/-- The form of BUNDLE-OPEN: the slot and, where the kind is known, the header. -/
def parseOpen : List Txt → Option (Nat × Option Header) :=
  fld number fun n => fld (wordField [BundleKind.firmware, .recipes] BundleKind.word) fun k => fld number fun t => fld number fun r =>
  fld number fun l => fld crcField fun c => fin (n, k.map (fun k =>
    { state := .filling, kind := k, target := t, revision := r, length := l, crc := c }))

/-- R168: the slot is prepared: its region erased, its header written. -/
def openSlot (k : Fin 4) (h : Header) (s : State) : State :=
  storePut (.header k h) (storeStaging (.erase k) (s.setSlot k (fun x => { x with header := h, fill := 0, computed := none })))

/-- R168. -/
def serveBundleOpen : List Txt → State → Served :=
  withFields .bundleOpen parseOpen fun p =>
    onFour .bundleOpen p.1 fun k s =>
      match p.2 with
      | none => refuse .bundleOpen .range s
      | some h =>
        if headerRangeOk h then
          match s.dist.slots[k].header.state with
          | .sealing => refuse .bundleOpen .busy s
          | .filling => refuse .bundleOpen .inUse s
          | .verified => refuse .bundleOpen .inUse s
          | _ => if s.store.stagingFull then refuse .bundleOpen .busy s else okay .bundleOpen [.num (k.val + 1), .num 0] (openSlot k h s)
        else refuse .bundleOpen .range s

/-- R169: the checks of a chunk, in their order; a SEQUENCE refusal gives the fill. -/
def chunkCheck (s : State) (k : Fin 4) (offset n : Nat) : Option (Reason × List Tok) :=
  let x := s.dist.slots[k]
  if x.header.state = .sealing then some (.busy, [])
  else if x.header.state ≠ .filling then some (.state, [])
  else if offset ≠ x.fill then some (.sequence, [.num x.fill])
  else if x.header.length < x.fill + n then some (.range, [])
  else if s.store.stagingFull then some (.busy, [])
  else none

/-- R169: the bytes are handed to the write queue. -/
def takeChunk (k : Fin 4) (offset : Nat) (data : List Byte) (s : State) : State :=
  storeStaging (.bytes k offset data) (s.setSlot k (fun x => { x with fill := x.fill + data.length }))

/-- R169. -/
def serveBundleChunk : List Txt → State → Served :=
  withFields .bundleChunk (fld number fun n => fld number fun o => fld hexBytes fun d => fin (n, o, d)) fun p =>
    onFour .bundleChunk p.1 fun k s =>
      let data := p.2.2
      if within 1 data.length 200 then
        match chunkCheck s k p.2.1 data.length with
        | some (r, f) => (s, .no (.verb .bundleChunk) r f)
        | none => okay .bundleChunk [.num (k.val + 1), .num (s.dist.slots[k].fill + data.length)] (takeChunk k p.2.1 data s)
      else refuse .bundleChunk .range s

/-- A slot takes a state. -/
def setSlotState (k : Fin 4) (st : SlotState) (s : State) : State := s.setSlot k (fun x => { x with header := { x.header with state := st } })

/-- R170. -/
def serveBundleSeal : List Txt → State → Served :=
  withFields .bundleSeal (fld number fun n => fin n) fun n =>
    onFour .bundleSeal n fun k s =>
      let x := s.dist.slots[k]
      if x.header.state = .sealing then refuse .bundleSeal .busy s
      else if x.header.state = .filling ∧ x.header.length ≤ x.fill then okay .bundleSeal [.num n] (setSlotState k .sealing s)
      else refuse .bundleSeal .state s

/-- R170: the CRC-32 of a slot, read through the write service. -/
def slotCrc (s : State) (k : Fin 4) : Nat := crc32 (s.store.stagingBytes k 0 s.dist.slots[k].header.length)

/-- R170: the computation completes. -/
def sealDone (k : Fin 4) (s : State) : State :=
  let x := s.dist.slots[k]
  if x.header.state = .sealing then
    let c := slotCrc s k
    let st : SlotState := if c = x.header.crc then .verified else .corrupt
    let t := (setSlotState k st s).setSlot k (fun y => { y with computed := some c })
    queueNotice .bundleResult [.num (k.val + 1), wd st.word, .hex8 c] (storeSealHeader k { x.header with state := st } t)
  else s

/-- R171. -/
def serveBundleDiscard : List Txt → State → Served :=
  withFields .bundleDiscard (fld number fun n => fin n) fun n =>
    onFour .bundleDiscard n fun k s =>
      let x := s.dist.slots[k]
      if x.header.state = .sealing then refuse .bundleDiscard .busy s
      else if 0 < x.users then refuse .bundleDiscard .inUse s
      else okay .bundleDiscard [.num n] (storeRecord .headers k.val none (s.setSlot k (fun _ => .initial)))

/-- R167. -/
def serveShowSlot : List Txt → State → Served :=
  withFields .showSlot (fld number fun n => fin n) fun n =>
    onFour .showSlot n fun k s =>
      let x := s.dist.slots[k]
      let h := x.header
      okay .showSlot
        [.num n, wd h.state.word, wd h.kind.word, if h.kind = .firmware then .num h.target else noneTok, .num h.revision, .num h.length,
         .hex8 h.crc, .num x.fill, (x.computed.map Tok.hex8).getD noneTok, .num x.users] s

/-! ## Channels -/

/-- The words of a channel's mode; yes is DEMAND. -/
def modeWord (demand : Bool) : String := if demand then "DEMAND" else "PACED"

/-- R172: the channel is armed. Its current offset and acknowledged offset become 0 (DESIGN CHOICE, assumption 74). -/
def armChannel (c k : Fin 4) (group : List BayId) (demand window : Bool) (s : State) : State :=
  (s.setChannel c (fun _ => { Channel.initial with state := .armed, slot := k, group := group, demand := demand, windowRequired := window })).setSlot k
    (fun x => { x with users := x.users + 1 })

/-- R172. -/
def serveChannelSet : List Txt → State → Served :=
  withFields .channelSet
    (fld number fun c => fld number fun k => fld bayListField fun l => fld (wordField [true, false] modeWord) fun m => fld ynField fun w =>
      fin (c, k, l, m, w)) fun p s =>
    match fourOf p.1, fourOf p.2.1, bayMask p.2.2.1, p.2.2.2.1, p.2.2.2.2 with
    | some c, some k, some g, some m, some w =>
      let h := s.dist.slots[k].header
      if h.state = .sealing then refuse .channelSet .busy s
      else if h.state ≠ .verified ∨ h.kind = .recipes then refuse .channelSet .state s
      else
        match s.dist.channels[c].state with
        | .armed => refuse .channelSet .state s
        | .running => refuse .channelSet .state s
        | _ => okay .channelSet [.num p.1, wd "ARMED"] (armChannel c k g m w s)
    | _, _, _, _, _ => refuse .channelSet .range s

/-- R173: a bay of the group is judged as it stands. -/
def judgeBay (s : State) (c : Fin 4) (b : BayId) : Progress :=
  let r := s.reg[b]
  if r.state ≠ .ready then .failed .state
  else if r.identity.map Identity.model ≠ some (slotOf s c).header.target then .failed .model
  else .pending

/-- R173: the bay's entry is set, and a failure told to the host. -/
def startBay (c : Fin 4) (b : BayId) (s : State) : State :=
  match judgeBay s c b with
  | .pending => setProgress c b .pending s
  | p => settleProgress c b p s

/-- R173: the bays of the group that become PENDING. -/
def pendingCount (s : State) (c : Fin 4) : Nat :=
  (s.dist.channels[c].group.filter (fun b => decide (judgeBay s c b = .pending))).length

/-- R173: the channel runs; its bays are judged in ascending order (DESIGN CHOICE, assumption 77); a pass follows, and R180 judges it. -/
def startChannel (c : Fin 4) (s : State) : State :=
  let t := (s.setChannel c (fun x => { x with state := .running })).each s.dist.channels[c].group (startBay c)
  pass none c t

/-- R173. -/
def serveChannelStart : List Txt → State → Served :=
  withFields .channelStart (fld number fun n => fin n) fun n =>
    onFour .channelStart n fun c s =>
      if s.dist.channels[c].state = .armed then okay .channelStart [.num n, .num (pendingCount s c)] (startChannel c s)
      else refuse .channelStart .state s

/-- A channel that may be masked (R181). -/
def maskable (s : State) (c : Fin 4) : Bool :=
  match s.dist.channels[c].state with
  | .armed => true
  | .running => true
  | _ => false

/-- R181. -/
def serveChannelMask : List Txt → State → Served :=
  withFields .channelMask (fld number fun n => fin n) fun n =>
    onFour .channelMask n fun c s =>
      if maskable s c then okay .channelMask [] (s.setChannel c (fun x => { x with masked := true })) else refuse .channelMask .state s

/-- R181: unmasking places blocks, offers, and runs a pass where the channel has no current bay. -/
def unmaskChannel (c : Fin 4) (s : State) : State :=
  let t := s.setChannel c (fun x => { x with masked := false })
  match s.dist.channels[c].current with
  | some b => placeBlocks c b (offerIfComplete c b t)
  | none => pass none c t

/-- R181. -/
def serveChannelUnmask : List Txt → State → Served :=
  withFields .channelUnmask (fld number fun n => fin n) fun n =>
    onFour .channelUnmask n fun c s =>
      if maskable s c then okay .channelUnmask [] (unmaskChannel c s) else refuse .channelUnmask .state s

/-- R182: some entry of some channel is APPLYING. -/
def anyApplying (s : State) : Bool := allBays.any (applying s)

/-- R182: the channels whose transfers are ended. -/
def transferring (s : State) : List (Fin 4) := allFour.filter (fun c => (s.dist.channels[c].current).isSome)

/-- R182: a transfer is ended. -/
def clearTransfer (c : Fin 4) (s : State) : State :=
  match s.dist.channels[c].current with
  | some b => endTransfer c b (.failed .cleared) false .noPass s
  | none => s

/-- R182: a channel goes to IDLE; its slot loses a user where the channel was ARMED or RUNNING. -/
def idleChannel (c : Fin 4) (s : State) : State :=
  (if maskable s c then dropUser s.dist.channels[c].slot s else s).setChannel c (fun _ => .initial)

/-- R182: every channel is cleared; a bay whose transfer waited may now be put in standby (R109). -/
def clearChannels (s : State) : State :=
  let t := (s.each allFour clearTransfer).each allFour idleChannel
  t.each (allBays.filter (transferWaits s)) examineStandby

/-- R182. -/
def serveChannelsClear : List Txt → State → Served :=
  withFields .channelsClear (fin ()) fun _ s =>
    if anyApplying s then refuse .channelsClear .busy s else okay .channelsClear [.num (transferring s).length] (clearChannels s)

/-- The fields of a channel as SHOW CHANNEL gives them, and its table. `remaining` is reckoned from the present header of the channel's slot, of an
IDLE and of a DONE channel too (DESIGN CHOICE, assumption 60). -/
def channelToks (s : State) (c : Fin 4) : List Tok :=
  let x := s.dist.channels[c]
  [wd x.state.word, .yn x.masked, .num (x.slot.val + 1), if x.group.isEmpty then noneTok else .bays x.group, wd (modeWord x.demand),
   .yn x.windowRequired, optNum (x.current.map bayNo), .num x.offset, .num x.acked, .num (lengthOf s c - x.offset), .num x.misses] ++
  (allBays.map (fun b => [.sep, bayTok b] ++ (x.progress[b]).toks)).flatten

/-- R172. -/
def serveShowChannel : List Txt → State → Served :=
  withFields .showChannel (fld number fun n => fin n) fun n =>
    onFour .showChannel n fun c s => okay .showChannel (.num n :: channelToks s c) s

/-! ## Deadlines -/

/-- R177: the acknowledgement deadline expires. -/
def ackExpires (c : Fin 4) (s : State) : State :=
  let x := s.dist.channels[c]
  match x.current with
  | some b => if reached x.ackDue s.now then blockMiss c b x.acked s else s
  | none => s

/-- R178: the offer deadline expires. -/
def offerExpires (c : Fin 4) (s : State) : State :=
  let x := s.dist.channels[c]
  match x.current with
  | some b => if reached x.offerDue s.sec then endTransfer c b (.failed .noOffer) true .now s else s
  | none => s

end Sys2Proof.Machine
end

