-- ==== Sys2Proof/Machine/Serve.lean ====
section
/-! DEFINITION. The owner of every verb (R187, R191, R193), and the frame that every command's meaning shares: what the Host Link transmits after
it, and what a part without supply does. -/

namespace Sys2Proof.Machine

open Sys2Proof

/-- R193: the request is taken; the wait begins when its reply has been sent. -/
def serveRestart : List Txt → State → Served :=
  withFields .restart (fin ()) fun _ s => okay .restart [] { s with host := { s.host with restarting := .replying } }

/-- What the owner of each verb does with a request. -/
def serveVerb : Verb → List Txt → State → Served
  | .commissionBegin => serveCommissionBegin
  | .commissionLimits => serveCommissionLimits
  | .commissionOptions => serveCommissionOptions
  | .decommission => serveDecommission
  | .setMenu => serveSetMenu
  | .showBay => serveShowBay
  | .recipeBegin => serveRecipeBegin
  | .recipeStep => serveRecipeStep
  | .recipeCancel => serveRecipeCancel
  | .recipeWithdraw => serveRecipeWithdraw
  | .setQuick => serveSetQuick
  | .libraryImport => serveLibraryImport
  | .showRecipe => serveShowRecipe
  | .showLibrary => serveShowLibrary
  | .showQuick => serveShowQuick
  | .runStart => serveRunStart
  | .promptDone => servePromptDone
  | .runAbort => serveRunAbort
  | .runClear => serveRunClear
  | .showRun => serveShowRun
  | .setDoorGrace => serveSetDoorGrace
  | .setLimit => serveSetLimit
  | .setStandbyIdle => serveSetStandbyIdle
  | .wake => serveWake
  | .showHeat => serveShowHeat
  | .cleanStart => serveCleanStart
  | .cleanAbort => serveCleanAbort
  | .setDetergent => serveSetDetergent
  | .showCleaning => serveShowCleaning
  | .showHygiene => serveShowHygiene
  | .setClock => serveSetClock
  | .setDst => serveSetDst
  | .showClock => serveShowClock
  | .scheduleSet => serveScheduleSet
  | .scheduleClear => serveScheduleClear
  | .showSchedule => serveShowSchedule
  | .showWindows => serveShowWindows
  | .setEvent => serveSetEvent
  | .ackEvent => serveAckEvent
  | .forceEvent => serveForceEvent
  | .callAccepted => serveCallAccepted
  | .callRefused => serveCallRefused
  | .callProgress => serveCallProgress
  | .callClose => serveCallClose
  | .techTake => serveTechTake
  | .techRelease => serveTechRelease
  | .holdClear => serveHoldClear
  | .showEvents => serveShowEvents
  | .showCalls => serveShowCalls
  | .bundleOpen => serveBundleOpen
  | .bundleChunk => serveBundleChunk
  | .bundleSeal => serveBundleSeal
  | .bundleDiscard => serveBundleDiscard
  | .showSlot => serveShowSlot
  | .channelSet => serveChannelSet
  | .channelStart => serveChannelStart
  | .channelMask => serveChannelMask
  | .channelUnmask => serveChannelUnmask
  | .channelsClear => serveChannelsClear
  | .showChannel => serveShowChannel
  | .restart => serveRestart

/-- A request line of a verb arrives (R186); the transmitter then begins what it has to send (R189). -/
def request (v : Verb) (f : List Txt) (s : State) : State := pump (receive serveVerb (.request v f) s)

/-- An event of a supplied part, after which the transmitter begins what it has to send (R189). Without supply nothing happens. -/
def whileOn (f : State → State) (s : State) : State := if s.phase = .off then s else pump (f s)

/-- A command's outcome: every command of this block has a next state. -/
abbrev Result := Host.Outcome State Fault Refusal

end Sys2Proof.Machine
end

