-- ==== Sys2Proof/Machine/ExecBays.lean ====
section
/-! DEFINITION. The meanings of the Bay Registry's commands (R1-R17). -/

namespace Sys2Proof.Machine

open Sys2Proof

/-- R3: the contacts of a bay take a value; a supplied part classifies them. -/
def contactsRead (b : BayId) (c : Contacts) (s : State) : State :=
  whileOn (readContacts b) { s with pins := upd s.pins b (fun _ => c) }

/-- R4: the settle timer expires; the bay waits in SETTLING while the load runs. -/
def settleExpires (b : BayId) (s : State) : State :=
  if reached s.reg[b].settleDue s.now then
    let t := s.setReg b (fun r => { r with settleDue := none })
    if s.loading then t.setReg b (fun r => { r with settled := true }) else setBayState b .interrogating .settled t
  else s

/-- R5: the partial timer expires. -/
def partialExpires (b : BayId) (s : State) : State :=
  if reached s.reg[b].partialDue s.now then
    setCondition b .presencePartial true (s.setReg b (fun r => { r with partialDue := none }))
  else s

/-- R15: the sequence deadline expires. -/
def commissionExpires (b : BayId) (s : State) : State :=
  if reached (s.reg[b].context.map CommContext.deadline) s.sec then abandonTo b s else s

/-- PRESENCE_PRESENT (R4). Both contacts closed. -/
def execPresencePresent (b : BayId) (s : State) : Result := .next (contactsRead b { lead := true, seat := true } s)

/-- PRESENCE_PARTIAL (R5). One contact closed: the lead contact where `lead`, else the seat contact. -/
def execPresencePartial (b : BayId) (lead : Bool) (s : State) : Result := .next (contactsRead b { lead := lead, seat := !lead } s)

/-- PRESENCE_ABSENT (R6). Both contacts open. -/
def execPresenceAbsent (b : BayId) (s : State) : Result := .next (contactsRead b { lead := false, seat := false } s)

/-- SETTLE_TIMER_EXPIRY (R4). -/
def execSettleTimerExpiry (b : BayId) (s : State) : Result := .next (whileOn (settleExpires b) s)

/-- PARTIAL_TIMER_EXPIRY (R5). -/
def execPartialTimerExpiry (b : BayId) (s : State) : Result := .next (whileOn (partialExpires b) s)

/-- COMMISSION_BEGIN (R12). -/
def execCommissionBegin (f : List Txt) (s : State) : Result := .next (request .commissionBegin f s)

/-- COMMISSION_LIMITS (R13). -/
def execCommissionLimits (f : List Txt) (s : State) : Result := .next (request .commissionLimits f s)

/-- COMMISSION_OPTIONS (R13). -/
def execCommissionOptions (f : List Txt) (s : State) : Result := .next (request .commissionOptions f s)

/-- COMMISSION_DEADLINE_EXPIRY (R15). -/
def execCommissionDeadlineExpiry (b : BayId) (s : State) : Result := .next (whileOn (commissionExpires b) s)

/-- DECOMMISSION (R16). -/
def execDecommission (f : List Txt) (s : State) : Result := .next (request .decommission f s)

/-- SET_MENU (R17). -/
def execSetMenu (f : List Txt) (s : State) : Result := .next (request .setMenu f s)

/-- SHOW_BAY (R1). -/
def execShowBay (f : List Txt) (s : State) : Result := .next (request .showBay f s)

end Sys2Proof.Machine
end

