-- ==== Sys2Proof/Machine/ExecClean.lean ====
section
/-! DEFINITION. The meanings of the Cleaning Sequencer's commands (R117-R130). -/

namespace Sys2Proof.Machine

open Sys2Proof

/-- CLEAN_START (R118). -/
def execCleanStart (f : List Txt) (s : State) : Result := .next (request .cleanStart f s)

/-- PHASE_DURATION_END (R121). -/
def execPhaseDurationEnd (b : BayId) (s : State) : Result := .next (whileOn (phaseDurationEnds b) s)

/-- OVERRUN_DEADLINE_EXPIRY (R122). -/
def execOverrunDeadlineExpiry (b : BayId) (s : State) : Result := .next (whileOn (overrunExpires b) s)

/-- CLEAN_WAKE_DEADLINE_EXPIRY (R119). -/
def execCleanWakeDeadlineExpiry (b : BayId) (s : State) : Result := .next (whileOn (cleanWakeExpires b) s)

/-- COOLING_DEADLINE_EXPIRY (R120). -/
def execCoolingDeadlineExpiry (b : BayId) (s : State) : Result := .next (whileOn (coolingExpires b) s)

/-- CLEAN_DOOR_GRACE_EXPIRY (R126). -/
def execCleanDoorGraceExpiry (b : BayId) (s : State) : Result := .next (whileOn (cleanDoorExpires b) s)

/-- CLEAN_ABORT (R128). -/
def execCleanAbort (f : List Txt) (s : State) : Result := .next (request .cleanAbort f s)

/-- SET_DETERGENT (R130). -/
def execSetDetergent (f : List Txt) (s : State) : Result := .next (request .setDetergent f s)

/-- SHOW_CLEANING (R117). -/
def execShowCleaning (f : List Txt) (s : State) : Result := .next (request .showCleaning f s)

/-- SHOW_HYGIENE (R130). -/
def execShowHygiene (f : List Txt) (s : State) : Result := .next (request .showHygiene f s)

end Sys2Proof.Machine
end

