-- ==== Sys2Proof/Machine/ExecClock.lean ====
section
/-! DEFINITION. The meanings of the commands of the Site Clock and the Schedule Table (R135-R146). -/

namespace Sys2Proof.Machine

open Sys2Proof

/-- CLOCK_UPDATE (R135). The backup domain counts on without the core's supply. -/
def execClockUpdate (s : State) : Result := .next (pump (updateClock s))

/-- SET_CLOCK (R136). -/
def execSetClock (f : List Txt) (s : State) : Result := .next (request .setClock f s)

/-- SET_DST (R138). -/
def execSetDst (f : List Txt) (s : State) : Result := .next (request .setDst f s)

/-- SHOW_CLOCK (R141). -/
def execShowClock (f : List Txt) (s : State) : Result := .next (request .showClock f s)

/-- SCHEDULE_SET (R142). -/
def execScheduleSet (f : List Txt) (s : State) : Result := .next (request .scheduleSet f s)

/-- SCHEDULE_CLEAR (R143). -/
def execScheduleClear (f : List Txt) (s : State) : Result := .next (request .scheduleClear f s)

/-- SHOW_SCHEDULE (R142). -/
def execShowSchedule (f : List Txt) (s : State) : Result := .next (request .showSchedule f s)

/-- SHOW_WINDOWS (R191). -/
def execShowWindows (f : List Txt) (s : State) : Result := .next (request .showWindows f s)

/-- CLOSE_DEADLINE_EXPIRY (R146). -/
def execCloseDeadlineExpiry (e : Fin 24) (s : State) : Result := .next (whileOn (windowExpires e) s)

end Sys2Proof.Machine
end

