-- ==== Sys2Proof/Machine/ExecHeat.lean ====
section
/-! DEFINITION. The meanings of the Heat Share Allocator's commands (R101-R114). -/

namespace Sys2Proof.Machine

open Sys2Proof

/-- SET_LIMIT (R101). -/
def execSetLimit (f : List Txt) (s : State) : Result := .next (request .setLimit f s)

/-- STARVATION_DEADLINE_EXPIRY (R106). -/
def execStarvationDeadlineExpiry (b : BayId) (s : State) : Result := .next (whileOn (starvationExpires b) s)

/-- SET_STANDBY_IDLE (R107). -/
def execSetStandbyIdle (f : List Txt) (s : State) : Result := .next (request .setStandbyIdle f s)

/-- IDLE_DEADLINE_EXPIRY (R109). -/
def execIdleDeadlineExpiry (b : BayId) (s : State) : Result := .next (whileOn (idleExpires b) s)

/-- WAKE (R112). -/
def execWake (f : List Txt) (s : State) : Result := .next (request .wake f s)

/-- SHOW_HEAT (R114). -/
def execShowHeat (f : List Txt) (s : State) : Result := .next (request .showHeat f s)

end Sys2Proof.Machine
end

