-- ==== Sys2Proof/Machine/ExecHost.lean ====
section
/-! DEFINITION. The meanings of the Host Link's own commands (R185-R190). -/

namespace Sys2Proof.Machine

open Sys2Proof

/-- R186: a line that arrives while a complete line waits is lost. -/
def lineArrivesLate (s : State) : State := if deaf s || s.host.waiting.isNone then s else loseLine s

/-- MALFORMED_LINE (R185). -/
def execMalformedLine (s : State) : Result := .next (pump (receive serveVerb .bad s))

/-- OVERLONG_LINE (R185). -/
def execOverlongLine (s : State) : Result := .next (pump (receive serveVerb .bad s))

/-- EMPTY_LINE (R185). -/
def execEmptyLine (s : State) : Result := .next (whileOn emptyArrives s)

/-- LOST_LINE (R186). A line that arrives while a complete line waits. -/
def execLostLine (s : State) : Result := .next (whileOn lineArrivesLate s)

/-- UNKNOWN_VERB (R187). -/
def execUnknownVerb (words : List Txt) (s : State) : Result := .next (pump (receive serveVerb (.unknown words) s))

/-- REPLY_SENT (R186). -/
def execReplySent (s : State) : Result := .next (whileOn (replyGone serveVerb) s)

/-- NOTICE_SENT (R190). -/
def execNoticeSent (s : State) : Result := .next (whileOn noticeGone s)

end Sys2Proof.Machine
end

