-- ==== Sys2Proof/Machine/ExecLibrary.lean ====
section
/-! DEFINITION. The meanings of the Recipe Library's commands (R50-R62). -/

namespace Sys2Proof.Machine

open Sys2Proof

/-- R56: the load deadline expires. -/
def loadExpires (s : State) : State := if reached (s.lib.load.map Load.deadline) s.sec then abandonLoad s else s

/-- RECIPE_BEGIN (R54). -/
def execRecipeBegin (f : List Txt) (s : State) : Result := .next (request .recipeBegin f s)

/-- RECIPE_STEP (R55). -/
def execRecipeStep (f : List Txt) (s : State) : Result := .next (request .recipeStep f s)

/-- RECIPE_CANCEL (R56). -/
def execRecipeCancel (f : List Txt) (s : State) : Result := .next (request .recipeCancel f s)

/-- LOAD_DEADLINE_EXPIRY (R56). -/
def execLoadDeadlineExpiry (s : State) : Result := .next (whileOn loadExpires s)

/-- RECIPE_WITHDRAW (R53). -/
def execRecipeWithdraw (f : List Txt) (s : State) : Result := .next (request .recipeWithdraw f s)

/-- SET_QUICK (R57). -/
def execSetQuick (f : List Txt) (s : State) : Result := .next (request .setQuick f s)

/-- LIBRARY_IMPORT (R60). -/
def execLibraryImport (f : List Txt) (s : State) : Result := .next (request .libraryImport f s)

/-- IMPORT_VALIDATION (R61). -/
def execImportValidation (s : State) : Result := .next (whileOn validateImport s)

/-- IMPORT_RECORD (R62). -/
def execImportRecord (s : State) : Result := .next (whileOn importNext s)

/-- SHOW_RECIPE (R50). -/
def execShowRecipe (f : List Txt) (s : State) : Result := .next (request .showRecipe f s)

/-- SHOW_LIBRARY (R50). -/
def execShowLibrary (f : List Txt) (s : State) : Result := .next (request .showLibrary f s)

/-- SHOW_QUICK (R57). -/
def execShowQuick (f : List Txt) (s : State) : Result := .next (request .showQuick f s)

end Sys2Proof.Machine
end

