-- ==== Sys2Proof/Machine/ExecLine.lean ====
section
/-! DEFINITION. The meanings of the Oven Line Controller's commands (R24-R34, R194). -/

namespace Sys2Proof.Machine

open Sys2Proof

/-- R25: ten seconds have passed since the previous poll of a LOST bay, or since its entry to LOST. -/
def lostPoll (b : BayId) (s : State) : State :=
  if s.reg[b].state = .lost ∧ s.line.bays[b].lostFrom + 10000 ≤ s.now then s.setLine b (fun l => { l with lostDue := true }) else s

/-- R29: the apply-grace deadline expires. -/
def applyGrace (b : BayId) (s : State) : State := if reached s.line.bays[b].grace s.sec then graceExpires b s else s

/-- POLL_CYCLE_START (R24). -/
def execPollCycleStart (s : State) : Result := .next (whileOn startCycle s)

/-- POLL_SEND (R27). -/
def execPollSend (s : State) : Result := .next (whileOn sendNext s)

/-- LOST_POLL_DUE (R25). -/
def execLostPollDue (b : BayId) (s : State) : Result := .next (whileOn (lostPoll b) s)

/-- ANSWER_WINDOW_CLOSE (R27). -/
def execAnswerWindowClose (s : State) : Result := .next (whileOn closeWindow s)

/-- ANSWER_BYTE_GAP (R194). The bytes so far are discarded. -/
def execAnswerByteGap (s : State) : Result := .next (whileOn spoil s)

/-- ANSWER_FRAME_INVALID (R194). The answer counts as none. -/
def execAnswerFrameInvalid (s : State) : Result := .next (whileOn spoil s)

/-- STATUS_RECORD (R33). -/
def execStatusRecord (r : StatusBody) (s : State) : Result := .next (whileOn (takeStatus r) s)

/-- IDENTITY_RECORD (R32). -/
def execIdentityRecord (r : IdentityBody) (s : State) : Result := .next (whileOn (takeIdentityRecord r) s)

/-- APPLY_GRACE_EXPIRY (R29). -/
def execApplyGraceExpiry (b : BayId) (s : State) : Result := .next (whileOn (applyGrace b) s)

end Sys2Proof.Machine
end

