-- ==== Sys2Proof/Machine/ExecRuns.lean ====
section
/-! DEFINITION. The meanings of the Run Engine's commands (R66-R86). -/

namespace Sys2Proof.Machine

open Sys2Proof

/-- RUN_START (R66). -/
def execRunStart (f : List Txt) (s : State) : Result := .next (request .runStart f s)

/-- PROMPT_DONE (R75). -/
def execPromptDone (f : List Txt) (s : State) : Result := .next (request .promptDone f s)

/-- RUN_WAKE_DEADLINE_EXPIRY (R68). -/
def execRunWakeDeadlineExpiry (b : BayId) (s : State) : Result := .next (whileOn (runWakeExpires b) s)

/-- MAXIMUM_TIME_DEADLINE_EXPIRY (R73). -/
def execMaximumTimeDeadlineExpiry (b : BayId) (s : State) : Result := .next (whileOn (maximumTimeExpires b) s)

/-- PROMPT_DEADLINE_EXPIRY (R75). -/
def execPromptDeadlineExpiry (b : BayId) (s : State) : Result := .next (whileOn (promptExpires b) s)

/-- RUN_DOOR_GRACE_EXPIRY (R77). -/
def execRunDoorGraceExpiry (b : BayId) (s : State) : Result := .next (whileOn (runDoorExpires b) s)

/-- RUNAWAY_DEADLINE_EXPIRY (R79). -/
def execRunawayDeadlineExpiry (b : BayId) (s : State) : Result := .next (whileOn (runawayExpires b) s)

/-- RUN_ABORT (R81). -/
def execRunAbort (f : List Txt) (s : State) : Result := .next (request .runAbort f s)

/-- RUN_CLEAR (R86). -/
def execRunClear (f : List Txt) (s : State) : Result := .next (request .runClear f s)

/-- SHOW_RUN (R86). -/
def execShowRun (f : List Txt) (s : State) : Result := .next (request .showRun f s)

/-- SET_DOOR_GRACE (R78). -/
def execSetDoorGrace (f : List Txt) (s : State) : Result := .next (request .setDoorGrace f s)

end Sys2Proof.Machine
end

