-- ==== Sys2Proof/Machine/ExecService.lean ====
section
/-! DEFINITION. The meanings of the Service Monitor's commands (R148-R165). -/

namespace Sys2Proof.Machine

open Sys2Proof

/-- SET_EVENT (R148). -/
def execSetEvent (f : List Txt) (s : State) : Result := .next (request .setEvent f s)

/-- ACK_EVENT (R151). -/
def execAckEvent (f : List Txt) (s : State) : Result := .next (request .ackEvent f s)

/-- FORCE_EVENT (R152). -/
def execForceEvent (f : List Txt) (s : State) : Result := .next (request .forceEvent f s)

/-- CALL_ACCEPTED (R156). -/
def execCallAccepted (f : List Txt) (s : State) : Result := .next (request .callAccepted f s)

/-- CALL_REFUSED (R156). -/
def execCallRefused (f : List Txt) (s : State) : Result := .next (request .callRefused f s)

/-- LANE_TIMER_EXPIRY (R157). -/
def execLaneTimerExpiry (l : Fin 2) (s : State) : Result := .next (whileOn (laneExpires l) s)

/-- CALL_PROGRESS (R158). -/
def execCallProgress (f : List Txt) (s : State) : Result := .next (request .callProgress f s)

/-- ESCALATION_DEADLINE_EXPIRY (R159). -/
def execEscalationDeadlineExpiry (call : Nat) (s : State) : Result := .next (whileOn (escalationExpires call) s)

/-- CALL_CLOSE (R160). -/
def execCallClose (f : List Txt) (s : State) : Result := .next (request .callClose f s)

/-- TECH_TAKE (R161). -/
def execTechTake (f : List Txt) (s : State) : Result := .next (request .techTake f s)

/-- TECH_RELEASE (R163). -/
def execTechRelease (f : List Txt) (s : State) : Result := .next (request .techRelease f s)

/-- HOLD_CLEAR (R163). -/
def execHoldClear (f : List Txt) (s : State) : Result := .next (request .holdClear f s)

/-- SHOW_EVENTS (R165). -/
def execShowEvents (f : List Txt) (s : State) : Result := .next (request .showEvents f s)

/-- SHOW_CALLS (R165). -/
def execShowCalls (f : List Txt) (s : State) : Result := .next (request .showCalls f s)

end Sys2Proof.Machine
end

