-- ==== Sys2Proof/Machine/ExecStart.lean ====
section
/-! DEFINITION. The meanings of the supply, the start-ups, the write service and the backup domain (R47, R44, R137, R192, R193). -/

namespace Sys2Proof.Machine

open Sys2Proof

/-- R193: the part waits for its write queue, and the queue is empty. -/
def restartDrained (s : State) : State :=
  match s.host.restarting with
  | .waiting _ => if s.store.performing = none ∧ s.store.waiting = [] then startUp .request s else s
  | _ => s

/-- R193: the wait has lasted ten seconds. -/
def restartExpires (c : Cut) (s : State) : State :=
  match s.host.restarting with
  | .waiting due => if due ≤ s.now then startUp .request (cutStore c s) else s
  | _ => s

/-- R44: the write being performed completes, and the next one begins. -/
def writeDone (s : State) : State :=
  match s.store.performing with
  | some w => beginWrite { s with store := { s.store.perform w with performing := none } }
  | none => s

/-- POWER_ON (R137). The supply comes up, whatever stood before; the Site Clock's check of the backup domain comes first (R137). -/
def execPowerOn (s : State) : Result := .next (pump (startUp .powerOn { s with clock := checkBackup s.clock }))

/-- RESET_PIN (R193). RESET held low: the write being performed is cut off and the part starts up with cause PIN. -/
def execResetPin (cut : Cut) (s : State) : Result := .next (whileOn (fun t => startUp .pin (cutStore cut t)) s)

/-- START_UP_LOAD_END (R47). The load ends, where one runs. -/
def execStartUpLoadEnd (s : State) : Result := .next (whileOn endLoad s)

/-- RESTART_WRITES_DRAINED (R193). The write queue that RESTART waits for is empty. -/
def execRestartWritesDrained (s : State) : Result := .next (whileOn restartDrained s)

/-- RESTART_TIMEOUT (R193). Ten seconds have passed since RESTART's reply; the writes still waiting are lost. -/
def execRestartTimeout (cut : Cut) (s : State) : Result := .next (whileOn (restartExpires cut) s)

/-- STORE_WRITE_DONE (R44). -/
def execStoreWriteDone (s : State) : Result := .next (whileOn writeDone s)

/-- RESTART (R193). -/
def execRestart (f : List Txt) (s : State) : Result := .next (request .restart f s)

/-- POWER_FAILURE (R47). The core supply fails: the write being performed is cut off and every volatile record is lost. -/
def execPowerFailure (cut : Cut) (s : State) : Result := .next (clearVolatile (cutStore cut s))

/-- VBAK_LOSS (R137). -/
def execVbakLoss (s : State) : Result := .next ({ s with clock := loseBackup s.clock })

end Sys2Proof.Machine
end

