-- ==== Sys2Proof/Machine/ExecUpdate.lean ====
section
/-! DEFINITION. The meanings of the Update Distributor's commands (R167-R182). -/

namespace Sys2Proof.Machine

open Sys2Proof

/-- BUNDLE_OPEN (R168). -/
def execBundleOpen (f : List Txt) (s : State) : Result := .next (request .bundleOpen f s)

/-- BUNDLE_CHUNK (R169). -/
def execBundleChunk (f : List Txt) (s : State) : Result := .next (request .bundleChunk f s)

/-- BUNDLE_SEAL (R170). -/
def execBundleSeal (f : List Txt) (s : State) : Result := .next (request .bundleSeal f s)

/-- BUNDLE_SEAL_DONE (R170). -/
def execBundleSealDone (k : Fin 4) (s : State) : Result := .next (whileOn (sealDone k) s)

/-- BUNDLE_DISCARD (R171). -/
def execBundleDiscard (f : List Txt) (s : State) : Result := .next (request .bundleDiscard f s)

/-- SHOW_SLOT (R167). -/
def execShowSlot (f : List Txt) (s : State) : Result := .next (request .showSlot f s)

/-- CHANNEL_SET (R172). -/
def execChannelSet (f : List Txt) (s : State) : Result := .next (request .channelSet f s)

/-- CHANNEL_START (R173). -/
def execChannelStart (f : List Txt) (s : State) : Result := .next (request .channelStart f s)

/-- ACKNOWLEDGEMENT_DEADLINE_EXPIRY (R177). -/
def execAcknowledgementDeadlineExpiry (c : Fin 4) (s : State) : Result := .next (whileOn (ackExpires c) s)

/-- OFFER_DEADLINE_EXPIRY (R178). -/
def execOfferDeadlineExpiry (c : Fin 4) (s : State) : Result := .next (whileOn (offerExpires c) s)

/-- CHANNEL_MASK (R181). -/
def execChannelMask (f : List Txt) (s : State) : Result := .next (request .channelMask f s)

/-- CHANNEL_UNMASK (R181). -/
def execChannelUnmask (f : List Txt) (s : State) : Result := .next (request .channelUnmask f s)

/-- CHANNELS_CLEAR (R182). -/
def execChannelsClear (f : List Txt) (s : State) : Result := .next (request .channelsClear f s)

/-- SHOW_CHANNEL (R172). -/
def execShowChannel (f : List Txt) (s : State) : Result := .next (request .showChannel f s)

end Sys2Proof.Machine
end

