-- ==== Sys2Proof/Machine/Dispatch.lean ====
section
/-! DEFINITION. The meaning of every command: one arm per row of the table. -/

namespace Sys2Proof.Machine

open Sys2Proof

/-- What a command does to everything but the queue of the commands that wait. -/
def exec (i : Instr) (s : State) : Host.Outcome State Fault Refusal :=
  match i with
  | .powerOn => Sys2Proof.Machine.execPowerOn s
  | .resetPin cut => Sys2Proof.Machine.execResetPin cut s
  | .startUpLoadEnd => Sys2Proof.Machine.execStartUpLoadEnd s
  | .restartWritesDrained => Sys2Proof.Machine.execRestartWritesDrained s
  | .restartTimeout cut => Sys2Proof.Machine.execRestartTimeout cut s
  | .presencePresent b => Sys2Proof.Machine.execPresencePresent b s
  | .presencePartial b lead => Sys2Proof.Machine.execPresencePartial b lead s
  | .presenceAbsent b => Sys2Proof.Machine.execPresenceAbsent b s
  | .settleTimerExpiry b => Sys2Proof.Machine.execSettleTimerExpiry b s
  | .partialTimerExpiry b => Sys2Proof.Machine.execPartialTimerExpiry b s
  | .commissionBegin f => Sys2Proof.Machine.execCommissionBegin f s
  | .commissionLimits f => Sys2Proof.Machine.execCommissionLimits f s
  | .commissionOptions f => Sys2Proof.Machine.execCommissionOptions f s
  | .commissionDeadlineExpiry b => Sys2Proof.Machine.execCommissionDeadlineExpiry b s
  | .decommission f => Sys2Proof.Machine.execDecommission f s
  | .setMenu f => Sys2Proof.Machine.execSetMenu f s
  | .showBay f => Sys2Proof.Machine.execShowBay f s
  | .pollCycleStart => Sys2Proof.Machine.execPollCycleStart s
  | .pollSend => Sys2Proof.Machine.execPollSend s
  | .lostPollDue b => Sys2Proof.Machine.execLostPollDue b s
  | .answerWindowClose => Sys2Proof.Machine.execAnswerWindowClose s
  | .answerByteGap => Sys2Proof.Machine.execAnswerByteGap s
  | .answerFrameInvalid => Sys2Proof.Machine.execAnswerFrameInvalid s
  | .statusRecord r => Sys2Proof.Machine.execStatusRecord r s
  | .identityRecord r => Sys2Proof.Machine.execIdentityRecord r s
  | .applyGraceExpiry b => Sys2Proof.Machine.execApplyGraceExpiry b s
  | .storeWriteDone => Sys2Proof.Machine.execStoreWriteDone s
  | .recipeBegin f => Sys2Proof.Machine.execRecipeBegin f s
  | .recipeStep f => Sys2Proof.Machine.execRecipeStep f s
  | .recipeCancel f => Sys2Proof.Machine.execRecipeCancel f s
  | .loadDeadlineExpiry => Sys2Proof.Machine.execLoadDeadlineExpiry s
  | .recipeWithdraw f => Sys2Proof.Machine.execRecipeWithdraw f s
  | .setQuick f => Sys2Proof.Machine.execSetQuick f s
  | .libraryImport f => Sys2Proof.Machine.execLibraryImport f s
  | .importValidation => Sys2Proof.Machine.execImportValidation s
  | .importRecord => Sys2Proof.Machine.execImportRecord s
  | .showRecipe f => Sys2Proof.Machine.execShowRecipe f s
  | .showLibrary f => Sys2Proof.Machine.execShowLibrary f s
  | .showQuick f => Sys2Proof.Machine.execShowQuick f s
  | .runStart f => Sys2Proof.Machine.execRunStart f s
  | .promptDone f => Sys2Proof.Machine.execPromptDone f s
  | .runWakeDeadlineExpiry b => Sys2Proof.Machine.execRunWakeDeadlineExpiry b s
  | .maximumTimeDeadlineExpiry b => Sys2Proof.Machine.execMaximumTimeDeadlineExpiry b s
  | .promptDeadlineExpiry b => Sys2Proof.Machine.execPromptDeadlineExpiry b s
  | .runDoorGraceExpiry b => Sys2Proof.Machine.execRunDoorGraceExpiry b s
  | .runawayDeadlineExpiry b => Sys2Proof.Machine.execRunawayDeadlineExpiry b s
  | .runAbort f => Sys2Proof.Machine.execRunAbort f s
  | .runClear f => Sys2Proof.Machine.execRunClear f s
  | .showRun f => Sys2Proof.Machine.execShowRun f s
  | .setDoorGrace f => Sys2Proof.Machine.execSetDoorGrace f s
  | .setLimit f => Sys2Proof.Machine.execSetLimit f s
  | .starvationDeadlineExpiry b => Sys2Proof.Machine.execStarvationDeadlineExpiry b s
  | .setStandbyIdle f => Sys2Proof.Machine.execSetStandbyIdle f s
  | .idleDeadlineExpiry b => Sys2Proof.Machine.execIdleDeadlineExpiry b s
  | .wake f => Sys2Proof.Machine.execWake f s
  | .showHeat f => Sys2Proof.Machine.execShowHeat f s
  | .cleanStart f => Sys2Proof.Machine.execCleanStart f s
  | .phaseDurationEnd b => Sys2Proof.Machine.execPhaseDurationEnd b s
  | .overrunDeadlineExpiry b => Sys2Proof.Machine.execOverrunDeadlineExpiry b s
  | .cleanWakeDeadlineExpiry b => Sys2Proof.Machine.execCleanWakeDeadlineExpiry b s
  | .coolingDeadlineExpiry b => Sys2Proof.Machine.execCoolingDeadlineExpiry b s
  | .cleanDoorGraceExpiry b => Sys2Proof.Machine.execCleanDoorGraceExpiry b s
  | .cleanAbort f => Sys2Proof.Machine.execCleanAbort f s
  | .setDetergent f => Sys2Proof.Machine.execSetDetergent f s
  | .showCleaning f => Sys2Proof.Machine.execShowCleaning f s
  | .showHygiene f => Sys2Proof.Machine.execShowHygiene f s
  | .clockUpdate => Sys2Proof.Machine.execClockUpdate s
  | .setClock f => Sys2Proof.Machine.execSetClock f s
  | .setDst f => Sys2Proof.Machine.execSetDst f s
  | .showClock f => Sys2Proof.Machine.execShowClock f s
  | .scheduleSet f => Sys2Proof.Machine.execScheduleSet f s
  | .scheduleClear f => Sys2Proof.Machine.execScheduleClear f s
  | .showSchedule f => Sys2Proof.Machine.execShowSchedule f s
  | .showWindows f => Sys2Proof.Machine.execShowWindows f s
  | .closeDeadlineExpiry e => Sys2Proof.Machine.execCloseDeadlineExpiry e s
  | .setEvent f => Sys2Proof.Machine.execSetEvent f s
  | .ackEvent f => Sys2Proof.Machine.execAckEvent f s
  | .forceEvent f => Sys2Proof.Machine.execForceEvent f s
  | .callAccepted f => Sys2Proof.Machine.execCallAccepted f s
  | .callRefused f => Sys2Proof.Machine.execCallRefused f s
  | .laneTimerExpiry l => Sys2Proof.Machine.execLaneTimerExpiry l s
  | .callProgress f => Sys2Proof.Machine.execCallProgress f s
  | .escalationDeadlineExpiry call => Sys2Proof.Machine.execEscalationDeadlineExpiry call s
  | .callClose f => Sys2Proof.Machine.execCallClose f s
  | .techTake f => Sys2Proof.Machine.execTechTake f s
  | .techRelease f => Sys2Proof.Machine.execTechRelease f s
  | .holdClear f => Sys2Proof.Machine.execHoldClear f s
  | .showEvents f => Sys2Proof.Machine.execShowEvents f s
  | .showCalls f => Sys2Proof.Machine.execShowCalls f s
  | .bundleOpen f => Sys2Proof.Machine.execBundleOpen f s
  | .bundleChunk f => Sys2Proof.Machine.execBundleChunk f s
  | .bundleSeal f => Sys2Proof.Machine.execBundleSeal f s
  | .bundleSealDone k => Sys2Proof.Machine.execBundleSealDone k s
  | .bundleDiscard f => Sys2Proof.Machine.execBundleDiscard f s
  | .showSlot f => Sys2Proof.Machine.execShowSlot f s
  | .channelSet f => Sys2Proof.Machine.execChannelSet f s
  | .channelStart f => Sys2Proof.Machine.execChannelStart f s
  | .acknowledgementDeadlineExpiry c => Sys2Proof.Machine.execAcknowledgementDeadlineExpiry c s
  | .offerDeadlineExpiry c => Sys2Proof.Machine.execOfferDeadlineExpiry c s
  | .channelMask f => Sys2Proof.Machine.execChannelMask f s
  | .channelUnmask f => Sys2Proof.Machine.execChannelUnmask f s
  | .channelsClear f => Sys2Proof.Machine.execChannelsClear f s
  | .showChannel f => Sys2Proof.Machine.execShowChannel f s
  | .restart f => Sys2Proof.Machine.execRestart f s
  | .malformedLine => Sys2Proof.Machine.execMalformedLine s
  | .overlongLine => Sys2Proof.Machine.execOverlongLine s
  | .emptyLine => Sys2Proof.Machine.execEmptyLine s
  | .lostLine => Sys2Proof.Machine.execLostLine s
  | .unknownVerb words => Sys2Proof.Machine.execUnknownVerb words s
  | .replySent => Sys2Proof.Machine.execReplySent s
  | .noticeSent => Sys2Proof.Machine.execNoticeSent s
  | .powerFailure cut => Sys2Proof.Machine.execPowerFailure cut s
  | .vbakLoss => Sys2Proof.Machine.execVbakLoss s

end Sys2Proof.Machine
end

