-- ==== Sys2Proof/Safety.lean ====
section
/-! DEFINITION. The terms that claims are made in: when the Host Link takes a line at once, what a reply leaves behind, what is told to the host,
what a wake, a commissioning sequence and a teardown leave of a bay, what every state of the block keeps (its bounds, each bay's one job, the call
queue with its lanes, the step pool with its pins), and what a class takes of the budget. -/

namespace Sys2Proof.Machine

open Sys2Proof

/-! ## Requests -/

/-- The load has ended, no request is in hand, no line waits, and no RESTART is under way: the next line is taken at once (R186). -/
structure Listening (s : State) : Prop where
  running : s.phase = .running
  restarting : s.host.restarting = .no
  inHand : s.host.inHand = none
  waiting : s.host.waiting = none

/-- The state with this reply in hand; a free transmitter has begun to send it (R186, R189). -/
def replying (r : Reply) (s : State) : State :=
  { s with host := { s.host with
    inHand := some r
    tx := if s.host.tx = .idle then .reply else s.host.tx
    sent := if s.host.tx = .idle then .reply r :: s.host.sent else s.host.sent } }

/-- The request is answered with the reply `r`, and it leaves the state `u`, but for the reply in hand. -/
def Answered (v : Verb) (f : List Txt) (s : State) (r : Reply) (u : State) : Prop :=
  exec (v.command f) s = .next (replying r u)

/-- A word that is the number of a bay. -/
def NamesBay (w : Txt) (b : BayId) : Prop := number w = some (bayNo b)

/-- A word that is the number of one of the four slots or channels. -/
def NamesFour (w : Txt) (k : Fin 4) : Prop := number w = some (k.val + 1)

/-! ## Outcomes -/

/-- The command is carried out, and the state it leaves satisfies `P`. -/
def Completes (c : Instr) (s : State) (P : State → Prop) : Prop := ∃ t, exec c s = .next t ∧ P t

/-- Nothing but the transmitter's part of the Host Link differs: `t` is `s`, or `s` with the next reply or notice begun. -/
def SameButSending (s t : State) : Prop :=
  t = { s with host := { s.host with tx := t.host.tx, sent := t.host.sent } }

/-- A notice of this kind and with these fields has been queued since `s`, or was counted as lost by a full queue (R190). -/
def Tells (s t : State) (k : NoticeKind) (f : List Tok) : Prop :=
  { kind := k, time := s.now / 1000, fields := f } ∈ t.host.notices.drop s.host.notices.length ∨
    noticeRoom s ≤ t.host.notices.length ∧ t.host.overflow.isSome = true

/-- The BAY notice of a change of state (R2). -/
def TellsBay (s t : State) (b : BayId) (st : BayState) (cause : BayCause) : Prop := Tells s t .bay [bayTok b, wd st.word, wd cause.word]

/-- The record write is in the hands of the write service (R43). -/
def HandedOver (s t : State) (r : StoreRec) : Prop := t.store = (storePut r s).store

/-- A wake cause of the bay has been acted on (R111): its idle time starts afresh, and a READY bay in STANDBY whose queue has room is ordered to
wake. -/
def Woken (s t : State) (b : BayId) : Prop :=
  t.heat.bays[b].idleRef = some (s.now / 1000) ∧
  (s.reg[b].state = .ready → s.reg[b].power = .standby → s.line.bays[b].queue.length < 6 →
    t.heat.bays[b].standbyRequested = false ∧ ∃ o ∈ t.line.bays[b].queue, o.body = .power false)

/-! ## The commissioning sequence (R14, R15) -/

/-- The commission record that a sequence builds of the values it received, and of the defaults of those it did not (R14). -/
def CommContext.record (c : CommContext) (serial : Txt) : Commission :=
  { serial := serial
    prov := { supply := c.supply, circuitMax := c.circuitMax, water := c.water
              ceiling := match c.limits with | some (z, _) => z | none => 3000
              standby := match c.limits with | some (_, y) => y | none => true
              detergent := match c.options with | some (_, _, y) => y | none => true }
    win1 := match c.options with | some (w, _, _) => w | none => { base := 1, limit := 999 }
    win2 := match c.options with | some (_, w, _) => w | none => { base := 0, limit := 0 } }

/-- The request `v` completed the sequence `c` of a bay with the identity `i`: the supply check has decided between READY with the new record and
REFUSED with the old one. -/
def Commissioned (s t : State) (b : BayId) (v : Verb) (c : CommContext) (i : Identity) : Prop :=
  t.reg[b].context = none ∧ t.reg[b].identity = some i ∧
  (i.supply = c.supply ∧ i.rated ≤ c.circuitMax →
    t.reg[b].state = .ready ∧ t.reg[b].commission = some (c.record i.serial) ∧ HandedOver s t (.commission b (c.record i.serial)) ∧
    TellsBay s t b .ready .commissioned ∧ t.host.inHand = some (.ok v [bayTok b, wd "READY"])) ∧
  (¬ (i.supply = c.supply ∧ i.rated ≤ c.circuitMax) →
    t.reg[b].state = .refused ∧ t.reg[b].commission = s.reg[b].commission ∧ t.store = s.store ∧ TellsBay s t b .refused .supply ∧
    t.host.inHand = some (.ok v [bayTok b, wd "REFUSED"]))

/-- The sequence `c` was abandoned, by its deadline or by a message refused SEQUENCE: the bay is in its state before it, with the record it had. -/
def Abandoned (s t : State) (b : BayId) (c : CommContext) : Prop :=
  t.reg[b].context = none ∧ t.reg[b].state = c.before ∧ t.reg[b].commission = s.reg[b].commission ∧
  (s.reg[b].state ≠ c.before → TellsBay s t b c.before .abandoned) ∧
  t.mon.bays[b].latches[EventKind.commissionAbandoned.slot].set = true

/-! ## Kinds of command -/

/-- The commands at which the part starts up or loses its supply (R192, R47). -/
def StartsUp : Instr → Prop
  | .powerOn | .resetPin _ | .restartWritesDrained | .restartTimeout _ | .powerFailure _ => True
  | _ => False

/-- The commands that reach a part without supply: the supply itself, the contacts, and the backup domain. -/
def ReachesUnsupplied : Instr → Prop
  | .powerOn | .powerFailure _ | .presencePresent _ | .presencePartial _ _ | .presenceAbsent _ | .clockUpdate | .vbakLoss => True
  | _ => False

/-- The commands at which the contacts of a bay are read (R3, R22). -/
def ReadsContacts (c : Instr) : Prop :=
  StartsUp c ∨ (match c with
    | .presencePresent _ | .presencePartial _ _ | .presenceAbsent _ => True
    | _ => False)

/-- What a start-up leaves, whatever its cause: volatile records at their start values, loaded ones at the defaults that stand until the load
(R46, R134), the contacts read (R22, R40, R63, R87, R141, R166, R184, R192). -/
structure StartedUp (s t : State) (c : Cause) : Prop where
  phase : t.phase = .loading c
  now : t.now = 0
  pins : t.pins = s.pins
  pending : t.pending = s.pending
  presence : ∀ b : BayId, t.reg[b].presence = (s.pins[b]).classify
  activity : ∀ b : BayId, t.reg[b].activity = .nothing
  commission : ∀ b : BayId, t.reg[b].commission = none ∧ t.mon.bays[b].hold = .nothing ∧ t.mon.bays[b].releasePending = false
  hygiene : ∀ b : BayId, t.clean[b].record = none ∧ t.clean[b].pendingWindow = none ∧ t.clean[b].hygiene = .initial
  site : t.heat.limit = 4000 ∧ t.heat.idleTime = 30 ∧ t.runs.doorGrace = 180
  settings : t.mon.settings = defaultSettings
  library : t.lib = .initial
  runs : t.runs = .initial
  schedule : t.sched = .initial
  distributor : t.dist = .initial
  calls : t.mon.calls = [] ∧ ∀ l : Fin 2, t.mon.lanes[l] = none
  line : ∀ b : BayId, t.line.bays[b].queue = [] ∧ t.line.bays[b].misses = 0 ∧ t.line.bays[b].grace = none
  writes : t.store.performing = none ∧ t.store.waiting = []
  request : t.host.inHand = none ∧ t.host.waiting = none ∧ t.host.lost = 0 ∧ t.host.restarting = .no
  lineFeed : t.host.sent = .lineFeed :: s.host.sent

/-! ## Bounds -/

/-- The counts and queues of the Host Link stay in their room (R186, R190, R192). -/
structure HostBounds (s : State) : Prop where
  notices : s.host.notices.length ≤ noticeRoom s
  overflow : ∀ c f, s.host.overflow = some (c, f) → c ≤ 65535
  lost : s.host.lost ≤ 255

/-- A bay's order queue stays within its depth, its ids and its miss count in their ranges (R27, R35). -/
structure LineBounds (l : LineBay) : Prop where
  queue : l.queue.length ≤ 6
  ids : 1 ≤ l.nextId ∧ l.nextId ≤ 255
  misses : l.misses ≤ 3

/-- The hygiene record stays in its ranges (R130). -/
structure HygieneBounds (h : Hygiene) : Prop where
  soil : h.soil ≤ 1250
  detergent : h.detergent ≤ 250

/-- The bounds that every state keeps: the manual's ranges of the counts, queues and settings, and the canonical form of the staging bytes. -/
structure Bounds (s : State) : Prop where
  host : HostBounds s
  line : ∀ b : BayId, LineBounds s.line.bays[b]
  hygiene : ∀ b : BayId, HygieneBounds s.clean[b].hygiene
  calls : s.mon.calls.length ≤ 32
  runIds : 1 ≤ s.runs.nextId ∧ s.runs.nextId ≤ 255
  doorGrace : 30 ≤ s.runs.doorGrace ∧ s.runs.doorGrace ≤ 900
  limit : 50 ≤ s.heat.limit ∧ s.heat.limit ≤ 4000
  idleTime : 5 ≤ s.heat.idleTime ∧ s.heat.idleTime ≤ 240
  shares : ∀ b : BayId, s.heat.bays[b].allowance ≤ 16
  staging : Memory.wf s.store.staging

/-! ## Jobs (R19, R64, R117, R176) -/

/-- The activity of a bay names its one job: COOK exactly when the bay has a non-final run, CLEAN exactly when it has a non-final cleaning record,
UPDATE exactly when it is the current bay of a channel; and that channel is RUNNING, is the only one, and has the bay TRANSFERRING or APPLYING. -/
structure JobOf (s : State) (b : BayId) : Prop where
  cook : s.reg[b].activity = .cook ↔ (liveRun s b).isSome = true
  clean : s.reg[b].activity = .clean ↔ (liveClean s b).isSome = true
  update : s.reg[b].activity = .update ↔ ∃ c : Fin 4, s.dist.channels[c].current = some b
  entry : ∀ c : Fin 4, s.dist.channels[c].current = some b ↔
    s.dist.channels[c].progress[b] = .transferring ∨ s.dist.channels[c].progress[b] = .applying
  running : ∀ c : Fin 4, s.dist.channels[c].current = some b → s.dist.channels[c].state = .running
  only : ∀ c d : Fin 4, s.dist.channels[c].current = some b → s.dist.channels[d].current = some b → c = d

/-- Every bay's activity names its job. -/
def Jobs (s : State) : Prop := ∀ b : BayId, JobOf s b

/-! ## The allocation (R103) -/

/-- The rotation pointer of a class. -/
def pointerOf (p : Pointers) : HeatClass → BayId
  | .core => p.core
  | .cook => p.cook
  | .clean => p.clean
  | .idle => p.idle

/-- The members of a class in the order in which the leftover walk visits them: from the first above the class's pointer on, cyclically. -/
def visited (s : State) (c : HeatClass) : List BayId :=
  let l := allBays.filter (fun b => decide (heatClassOf s b = some c))
  l.filter (fun b => decide (pointerOf s.heat.ptr c < b)) ++ l.filter (fun b => decide (b ≤ pointerOf s.heat.ptr c))

/-- The rated powers of some bays, summed. -/
def ratedOver (s : State) (l : List BayId) : Nat := (l.map (ratedOf s)).sum

/-- R103: a class takes its part of the budget `a` and leaves `z` of it. Its uniform share `k` is the largest of 0-16 that it can pay for; below 16 the
members first visited, while they fit, have one sixteenth more, and the class's pointer is set to the last of them. -/
def ClassDivided (s t : State) (c : HeatClass) (a z : Nat) : Prop :=
  let l := visited s c
  ∃ (k : Nat) (extra rest : List BayId), l = extra ++ rest ∧ k ≤ 16 ∧ a = z + k * ratedOver s l + ratedOver s extra ∧
    (k < 16 → a < (k + 1) * ratedOver s l ∧ ∀ b ∈ rest.head?, z < ratedOf s b) ∧ (k = 16 → extra = []) ∧
    (∀ b ∈ extra, t.heat.bays[b].allowance = k + 1) ∧ (∀ b ∈ rest, t.heat.bays[b].allowance = k) ∧
    pointerOf t.heat.ptr c = extra.getLast?.getD (pointerOf s.heat.ptr c)

/-! ## Teardown (R21) -/

/-- What a teardown leaves of a bay: no job, no sequence, no orders but a HEAT-ALLOW 0, no misses, no allowance; its job ended by its owner, RINSE_OWED
as it stood. `lost` tells LOST from the other causes. -/
structure TornDown (s t : State) (b : BayId) (lost : Bool) : Prop where
  activity : t.reg[b].activity = .nothing
  run : ∀ r, liveRun s b = some r → ∃ x, t.runs.runs[b] = some x ∧ x.id = r.id ∧ x.state = .aborted ∧
    x.reason = (if lost then .ovenLost else .ovenRemoved)
  cleaning : ∀ c, liveClean s b = some c → ∃ x, t.clean[b].record = some x ∧ x.program = c.program ∧ x.state = .interrupted ∧
    x.reason = (if lost then .ovenLost else .ovenRemoved)
  rinseOwed : t.clean[b].hygiene.rinseOwed = s.clean[b].hygiene.rinseOwed
  transfer : ∀ c : Fin 4, s.dist.channels[c].current = some b →
    t.dist.channels[c].current ≠ some b ∧ t.dist.channels[c].progress[b] = .failed .removed
  sequence : t.reg[b].context = none
  interrogation : t.reg[b].pollCount = 0 ∧ t.reg[b].stepCheck = false
  line : t.line.bays[b].misses = 0 ∧ t.line.bays[b].grace = none
  orders : ∀ o ∈ t.line.bays[b].queue, o.body = .heatAllow 0
  allowance : t.heat.bays[b].allowance = 0

/-! ## The load (R46) -/

/-- The slots of the step pool that a stored record takes. -/
def StoreRec.slots : StoreRec → Nat
  | .recipe _ r => r.size
  | _ => 0

/-- The owner of a loaded record holds it. -/
def Taken (t : State) : StoreRec → Prop
  | .site limit grace idle => t.heat.limit = limit ∧ t.runs.doorGrace = grace ∧ t.heat.idleTime = idle
  | .quick v => t.lib.quick = v
  | .event k e => t.mon.settings[k] = e
  | .dst r => t.clock.rule = r
  | .sched n e => t.sched.entries[n] = some e
  | .commission b c => t.reg[b].commission = some c
  | .hold b k rp => t.mon.bays[b].hold = k ∧ t.mon.bays[b].releasePending = rp
  | .hygiene b h => t.clean[b].hygiene = h
  | .recipe n r => ∃ e ∈ t.lib.index, e.number = n ∧ e.cur = r
  | .header k h => t.dist.slots[k] = if h.state = .filling then .initial else { header := h, fill := h.length, computed := none, users := 0 }

/-! ## Calls and lanes (R154, R155) -/

/-- The call queue and the lanes: ids in range and each used once, one call for a bay and a kind, a call DISPATCHED exactly when a lane holds it,
on the lane its record names, and an escalation deadline on an ACKNOWLEDGED call alone. -/
structure CallTable (s : State) : Prop where
  room : s.mon.calls.length ≤ 32
  next : 1 ≤ s.mon.nextCall ∧ s.mon.nextCall ≤ 65535
  range : ∀ c ∈ s.mon.calls, 1 ≤ c.id ∧ c.id ≤ 65535
  ids : (s.mon.calls.map Call.id).Nodup
  kinds : s.mon.calls.Pairwise (fun c d => ¬ (c.bay = d.bay ∧ c.kind = d.kind))
  lane : ∀ c ∈ s.mon.calls, ∀ l : Fin 2, (c.state = .dispatched ∧ c.lane = some l) ↔ ∃ x, s.mon.lanes[l] = some x ∧ x.call = c.id
  free : ∀ c ∈ s.mon.calls, c.state = .dispatched ↔ c.lane.isSome = true
  held : ∀ (l : Fin 2) (x : Lane), s.mon.lanes[l] = some x → ∃ c ∈ s.mon.calls, c.id = x.call
  deadline : ∀ c ∈ s.mon.calls, c.deadline.isSome = true → c.state = .acknowledged

/-! ## The step pool, pins and slot users (R50, R51, R52, R171) -/

/-- The non-final runs that cook a revision of a recipe number. -/
def cooking (s : State) (number revision : Nat) : Nat :=
  (allBays.filter (fun b => (liveRun s b).any (fun r => r.number == number && r.rev.revision == revision))).length

/-- What a slot is used by: the ARMED and RUNNING channels on it, and an import from it. -/
def usersOf (s : State) (k : Fin 4) : Nat :=
  (allFour.filter (fun c => decide (s.dist.channels[c].slot = k) &&
    (decide (s.dist.channels[c].state = .armed) || decide (s.dist.channels[c].state = .running)))).length +
  (if s.lib.job.any (fun j => decide (j.slot = k)) then 1 else 0)

/-- An entry's pins are the runs that cook its revisions; a retired revision is the older and is pinned, and so is an entry marked withdrawn. -/
structure PinsOf (s : State) (e : Entry) : Prop where
  cur : e.pins = cooking s e.number e.cur.revision
  retired : ∀ x, e.retired = some x → x.rev.revision < e.cur.revision ∧ 0 < x.pins ∧ x.pins = cooking s e.number x.rev.revision
  withdrawn : e.withdrawn = true → 0 < e.allPins

/-- The pool's 1600 slots are free, reserved, or occupied by a revision of the index; pins count runs, and user counts channels and imports. -/
structure Pool (s : State) : Prop where
  slots : (s.lib.index.map Entry.size).sum + s.lib.free + s.lib.reserved = 1600
  order : s.lib.index.Pairwise (fun d e => d.number < e.number)
  pins : ∀ e ∈ s.lib.index, PinsOf s e
  runs : ∀ (b : BayId) (r : Run), liveRun s b = some r → ∃ e ∈ s.lib.index, e.number = r.number ∧
    (e.cur.revision = r.rev.revision ∨ ∃ x, e.retired = some x ∧ x.rev.revision = r.rev.revision)
  load : ∀ l, s.lib.load = some l →
    s.lib.job = none ∧ s.lib.reserved = l.count ∧ l.head.steps.length + 1 = l.next ∧ l.next ≤ l.count
  job : ∀ j, s.lib.job = some j → (j.rest = none → s.lib.reserved = 0) ∧
    ∀ recs, j.rest = some recs → recs ≠ [] ∧ (recs.map (fun x => x.rev.size)).sum ≤ s.lib.reserved
  idle : s.lib.load = none → s.lib.job = none → s.lib.reserved = 0
  users : ∀ k : Fin 4, s.dist.slots[k].users = usersOf s k
  start : ∀ c, s.phase = .loading c → s.lib.index = [] ∧ s.lib.load = none ∧ s.lib.job = none ∧
    (∀ k : Fin 4, s.dist.channels[k].state = .idle) ∧ ∀ b : BayId, liveRun s b = none

end Sys2Proof.Machine
end

