-- ==== Sys2Proof/Certificates/Slice0/Obligations.lean ====
section
/-! DEFINITION. The statements for the provers. Each docstring names the rules of spec/ that the statement formalises; `t` is the next state. -/

open Sys2Proof Sys2Proof.Machine

/-! ## The machine as a whole -/

/-- One step carries out the command at the front of the queue on the rest. On an empty queue one millisecond passes and nothing else changes:
that is the model's choice (assumption 1). -/
def Obligations.StepRunsTheFrontCommand : Prop :=
  (∀ (c : Instr) (rest : List Instr) (s : State), step { s with pending := c :: rest } = exec c { s with pending := rest }) ∧
  (∀ s : State, s.pending = [] → ∃ n, step s = .next { s with now := n } ∧ (s.now < 4294967295999 → n = s.now + 1))

/-- R22, R40, R87, R115, R134, R141, R166, R184, R192, R63: what a start-up leaves, before the load. That every contact is open at
reset is the model's choice (assumption 13). -/
def Obligations.ResetHoldsTheStartUpValues : Prop :=
  let s := State.reset
  s.now = 0 ∧ s.phase = .loading .powerOn ∧ s.host.sent = [.lineFeed] ∧ s.host.inHand = none ∧ s.host.lost = 0 ∧ s.host.notices = [] ∧
  s.host.overflow = none ∧ s.lib.index = [] ∧ s.lib.free = 1600 ∧ s.lib.reserved = 0 ∧ s.lib.load = none ∧ s.lib.job = none ∧
  s.runs.nextId = 1 ∧ s.mon.calls = [] ∧ s.mon.nextCall = 1 ∧ bayNo s.mon.lastBay = 12 ∧ s.sched.windows = [] ∧
  s.heat.limit = 4000 ∧ s.heat.idleTime = 30 ∧ s.runs.doorGrace = 180 ∧ s.store.performing = none ∧ s.store.waiting = [] ∧
  (∀ b : BayId,
    s.reg[b].presence = .absent ∧ s.reg[b].state = .empty ∧ s.reg[b].identity = none ∧ s.reg[b].activity = .nothing ∧ s.reg[b].power = .off ∧
    s.reg[b].context = none ∧ s.line.bays[b].queue = [] ∧ s.line.bays[b].misses = 0 ∧ s.line.bays[b].nextId = 1 ∧ s.line.bays[b].grace = none ∧
    s.runs.runs[b] = none ∧ s.heat.bays[b].allowance = 0 ∧ s.heat.bays[b].cls = none ∧ s.heat.bays[b].sent = none ∧ s.clean[b].record = none ∧
    s.clean[b].pendingWindow = none ∧ s.clean[b].baseline = none ∧ s.clean[b].hygiene = { soil := 0, rinseOwed := true, detergent := 0 } ∧
    s.mon.bays[b].hold = .nothing ∧ s.mon.bays[b].takeDeferred = false) ∧
  (∀ k : Fin 4, s.dist.slots[k].header.state = .free ∧ s.dist.slots[k].users = 0 ∧ s.dist.channels[k].state = .idle ∧
    s.dist.channels[k].masked = false ∧ s.dist.channels[k].current = none)

/-- The invariants below hold at reset: the bounds, each bay's one job, the call queue with its lanes, and the step pool. -/
def Obligations.ResetIsWithinBounds : Prop := Bounds State.reset ∧ Jobs State.reset ∧ CallTable State.reset ∧ Pool State.reset

/-- R27, R35, R44, R78, R101, R103, R107, R130, R154, R186, R190, R65: every step keeps the counts, the queues, the settings and the staging
bytes within their ranges, from every state that is. -/
def Obligations.EveryStepStaysWithinBounds : Prop := ∀ s t : State, Bounds s → step s = .next t → Bounds t

/-- R19, R20, R64, R117, R176: every step keeps each bay's activity to its one job: COOK exactly with a non-final run, CLEAN exactly with a
non-final cleaning record, UPDATE exactly as the current bay of one RUNNING channel. -/
def Obligations.EveryStepKeepsEachBayToItsJob : Prop := ∀ s t : State, Jobs s → step s = .next t → Jobs t

/-- R154, R155, R158: every step keeps the call queue and the lanes as `CallTable` says: one call for a bay and a kind, DISPATCHED exactly when a
lane holds it. -/
def Obligations.EveryStepKeepsTheCallTable : Prop := ∀ s t : State, CallTable s → step s = .next t → CallTable t

/-- R50, R51, R52, R171: where each bay's activity names its job, every step keeps the 1600 slots of the step pool accounted for, the pins equal
to the runs that cook a revision, and a slot's user count equal to its users. -/
def Obligations.EveryStepKeepsTheStepPool : Prop := ∀ s t : State, Jobs s → Pool s → step s = .next t → Pool t

/-- R141, R193, R3: every command has a next state; none but a start-up or the loss of supply moves the site-seconds count, none touches the
commands that wait, and a bay's recorded presence changes only where its contacts are read. That time passes on an empty queue alone is the
model's choice (assumption 1), and so is that a part without supply does nothing but for the supply's own commands, the contacts' and the backup
domain's (assumption 28). -/
def Obligations.OnlyStartUpsMoveTheCount : Prop :=
  ∀ (c : Instr) (s : State), ∃ t, exec c s = .next t ∧ t.pending = s.pending ∧ (¬ StartsUp c → t.now = s.now) ∧
    (¬ ReadsContacts c → ∀ b : BayId, t.reg[b].presence = s.reg[b].presence) ∧
    (s.phase = .off → s.host.inHand = none → ¬ ReachesUnsupplied c → t = s)

/-! ## Host Link: requests and replies -/

/-- R188: a refusal changes nothing, but for the refusals whose rules state an effect: SEQUENCE of a commissioning message (R13, stated in
CommissioningMessagesComplete), and SEQUENCE, STALE and BUSY of RECIPE-STEP (R55, stated in RecipeLoadsReserveTheirSlots and
LastStepInstallsTheRevision). -/
def Obligations.RefusedRequestsChangeNothing : Prop :=
  ∀ (v : Verb) (f : List Txt) (s t : State) (h : Head) (r : Reason) (fields : List Tok), Listening s → exec (v.command f) s = .next t →
    t.host.inHand = some (.no h r fields) → (r = .sequence → v ≠ .commissionLimits ∧ v ≠ .commissionOptions) →
    (v = .recipeStep → r ≠ .sequence ∧ r ≠ .stale ∧ r ≠ .busy) →
    t = replying (.no h r fields) s

/-- R1, R86, R117, R130, R114, R165: the SHOW requests that name a bay; SHOW BAY answers with the bay record as it stands, and a number outside 1-12
is refused RANGE. The layout of their fields (assumption 22), the names of SHOW HEAT's standby conditions (assumption 10) and the seconds-left and
whole-second forms of SHOW CLEANING and SHOW RUN (assumption 12) are the model's choice. So are the form of an absent cleaning record beside a pending
window cleaning (assumption 22) and the code that SHOW EVENTS gives of OVEN_FAULT (assumption 65). -/
def Obligations.ShowRequestsOfABay : Prop :=
  (∀ (s : State) (w : Txt) (n : Nat), Listening s → number w = some n →
    (∀ b : BayId, n = bayNo b → Answered .showBay [w] s (.ok .showBay (bayTok b :: bayToks s b)) s) ∧
    (n = 0 ∨ 12 < n → Answered .showBay [w] s (.no (.verb .showBay) .range []) s)) ∧
  (∀ (s : State) (w : Txt) (b : BayId), Listening s → NamesBay w b →
    (∀ r, s.runs.runs[b] = some r → Answered .showRun [w] s (.ok .showRun (bayTok b :: runToks r s.now)) s) ∧
    (s.runs.runs[b] = none → Answered .showRun [w] s (.no (.verb .showRun) .absent []) s) ∧
    (∀ c, s.clean[b].record = some c →
      Answered .showCleaning [w] s (.ok .showCleaning (bayTok b :: (cleanToks c s.now ++ pendingToks s.clean[b].pendingWindow))) s) ∧
    (s.clean[b].record = none → s.clean[b].pendingWindow = none → Answered .showCleaning [w] s (.no (.verb .showCleaning) .absent []) s) ∧
    Answered .showHygiene [w] s (.ok .showHygiene
      ([bayTok b, .num s.clean[b].hygiene.soil, .yn s.clean[b].hygiene.rinseOwed, .num s.clean[b].hygiene.detergent] ++
        hygieneWords s.clean[b].hygiene)) s ∧
    Answered .showHeat [w] s (.ok .showHeat (heatBayToks s b)) s ∧
    Answered .showEvents [w] s (.ok .showEvents (eventsToks s b)) s)

/-- R50, R57, R141, R142, R191, R114, R148, R165, R167, R172: the other SHOW requests; the layout of their fields is the model's reading
(assumption 22), and what SHOW CHANNEL reckons as remaining of a channel that does not use its slot is its choice (assumption 60). -/
def Obligations.ShowRequestsOfTheSite : Prop :=
  ∀ s : State, Listening s →
    Answered .showQuick [] s (.ok .showQuick (s.lib.quick.toList.map Tok.num)) s ∧
    Answered .showClock [] s (.ok .showClock
      (calendarToks s.clock.cal ++ [.yn s.clock.valid, .yn s.clock.inDst, .yn s.clock.secondPass] ++ dstToks s.clock.rule ++
        [.num (s.now / 1000)])) s ∧
    (s.sched.windows = [] → Answered .showWindows [] s (.ok .showWindows [noneTok]) s) ∧
    (s.sched.windows ≠ [] → Answered .showWindows [] s (.ok .showWindows (groups (s.sched.windows.map (fun x =>
      [.num (x.entry.val + 1), wd x.kind.word, .bays x.mask, optProgram x.program, .num x.threshold, .num x.opened, .num x.closes])))) s) ∧
    Answered .showSchedule [] s (.ok .showSchedule (groups ((List.finRange 24).map (schedToks s)))) s ∧
    Answered .showHeat [] s (.ok .showHeat (heatToks s)) s ∧
    Answered .showEvents [] s (.ok .showEvents (groups (EventKind.all.map (fun k =>
      [.num (settingOf s k).severity, wd (settingOf s k).route.word, .yn (settingOf s k).enabled])))) s ∧
    Answered .showLibrary [] s (.ok .showLibrary ([.num s.lib.index.length, .num s.lib.free, .num s.lib.reserved] ++
      ((s.lib.load.map (fun l => [.num l.number, .num l.head.revision, .num l.next])).getD [noneTok]) ++
      [optNum (s.lib.job.map (fun j => j.slot.val + 1))])) s ∧
    Answered .showCalls [] s (.ok .showCalls
      ((s.mon.calls.map callToks).flatten ++ laneToks s.mon.lanes[(0 : Fin 2)] ++ laneToks s.mon.lanes[(1 : Fin 2)] ++
        [bayTok s.mon.lastBay, .num s.mon.nextCall])) s ∧
    (∀ (w : Txt) (n : Fin 24), number w = some (n.val + 1) → Answered .showSchedule [w] s (.ok .showSchedule (schedToks s n)) s) ∧
    (∀ (w : Txt) (n : Nat) (e : Entry), number w = some n → 1 ≤ n → n ≤ 999 → entryFor s.lib.index n = some e →
      Answered .showRecipe [w] s (.ok .showRecipe (.num n :: entryToks e)) s ∧
      (∀ (v : Txt) (k : Nat) (st : Step), number v = some (k + 1) → k < 12 → e.cur.steps[k]? = some st →
        Answered .showRecipe [w, v] s (.ok .showRecipe (.num n :: .num (k + 1) :: stepToks st)) s)) ∧
    (∀ (w : Txt) (k : Fin 4), NamesFour w k →
      (let h := s.dist.slots[k].header
       Answered .showSlot [w] s (.ok .showSlot
         [.num (k.val + 1), wd h.state.word, wd h.kind.word, if h.kind = .firmware then .num h.target else noneTok, .num h.revision,
          .num h.length, .hex8 h.crc, .num s.dist.slots[k].fill, (s.dist.slots[k].computed.map Tok.hex8).getD noneTok,
          .num s.dist.slots[k].users]) s) ∧
      Answered .showChannel [w] s (.ok .showChannel (.num (k.val + 1) :: channelToks s k)) s)

/-- R185, R186, R187, R191, R192: a malformed or overlong line is answered `NO ? SYNTAX` and an unknown verb `NO ? UNKNOWN`; SHOW alone, or with an
object that is no word, is refused SYNTAX, and SHOW with an unknown object RANGE, which is the model's reading (assumption 23); an empty line is ignored;
a line that arrives while a complete line waits only raises the lost-line count, an empty one too (the model's choice, assumption 62); a request that
arrives behind a request in hand waits, and is known by whether it was received while the load ran; while the load runs every request line is refused
STARTING. That a line counts as received when it is complete is the model's reading (assumption 61), and that a malformed line is answered SYNTAX
during the load too its choice (assumption 20). -/
def Obligations.BadLinesAreAnsweredOrCounted : Prop :=
  (∀ s : State, Listening s →
    exec .malformedLine s = .next (replying (.no .unjudged .syntaxError []) s) ∧
    exec .overlongLine s = .next (replying (.no .unjudged .syntaxError []) s) ∧
    ∀ (w : Txt) (rest : List Txt), w ≠ "SHOW".toList →
      exec (.unknownVerb (w :: rest)) s = .next (replying (.no .unjudged .unknown []) s)) ∧
  (∀ s : State, Listening s →
    let show_ : Txt := "SHOW".toList
    exec (.unknownVerb [show_]) s = .next (replying (.no .show .syntaxError []) s) ∧
    ∀ (x : Txt) (rest : List Txt), exec (.unknownVerb (show_ :: x :: rest)) s =
      .next (replying (.no .show (if x ≠ [] ∧ ∀ c ∈ x, ('A' ≤ c ∧ c ≤ 'Z') ∨ ('0' ≤ c ∧ c ≤ '9') ∨ c = '-' ∨ c = '_' then .range else .syntaxError) []) s)) ∧
  (∀ s : State, s.phase ≠ .off →
    (s.host.waiting = none → Completes .emptyLine s (SameButSending s)) ∧
    (∀ l, s.host.waiting = some l → (∀ d, s.host.restarting ≠ .waiting d) → ∀ c : Instr, c = .lostLine ∨ c = .emptyLine →
      Completes c s (SameButSending { s with host := { s.host with lost := min (s.host.lost + 1) 255 } })) ∧
    (∀ (r : Reply) (v : Verb) (f : List Txt) (early : Bool), s.host.inHand = some r → s.host.waiting = none →
      (∀ d, s.host.restarting ≠ .waiting d) → (early = true ↔ ∃ c, s.phase = .loading c) → Completes (v.command f) s
        (SameButSending { s with host := { s.host with waiting := some (.request v f), early := early, lostFirst := s.host.lost } }))) ∧
  (∀ (s : State) (c : Cause), s.phase = .loading c → s.host.restarting = .no → s.host.inHand = none → s.host.waiting = none →
    (∀ (v : Verb) (f : List Txt), Answered v f s (.no (.verb v) .starting []) s) ∧
    (∀ (w : Txt) (rest : List Txt), exec (.unknownVerb (w :: rest)) s = .next (replying (.no (.firstWord w) .starting []) s)) ∧
    exec .malformedLine s = .next (replying (.no .unjudged .syntaxError []) s) ∧
    exec .overlongLine s = .next (replying (.no .unjudged .syntaxError []) s))

/-- R186, R192, R193: when a reply has been sent, lost lines that came first are answered BUSY, and the waiting line is taken as the next request; one
that was received while the load ran is refused STARTING, though the load has ended since. Which lines came first is told as assumption 20 says, and
when a line counts as received as assumption 61 says. RESTART is answered first, and its wait of ten seconds begins when its reply has been sent. That the
wait counts milliseconds is the model's choice (assumption 15). -/
def Obligations.ReplySentTakesUpTheNextLine : Prop :=
  (∀ s : State, s.phase = .running → s.host.tx = .reply → s.host.restarting = .no →
    let u : State := { s with host := { s.host with tx := .idle, inHand := none } }
    let busy : State := replying (.no .unjudged .busy [])
      { u with host := { u.host with lost := s.host.lost - 1, lostFirst := s.host.lostFirst - 1 } }
    (s.host.waiting = none → s.host.lost = 0 → Completes .replySent s (SameButSending u)) ∧
    (s.host.waiting = none → 0 < s.host.lost → exec .replySent s = .next busy) ∧
    (∀ l, s.host.waiting = some l → 0 < s.host.lostFirst → exec .replySent s = .next busy) ∧
    let free : State := { u with host := { u.host with waiting := none, early := false } }
    (∀ v f, s.host.waiting = some (.request v f) → s.host.lostFirst = 0 →
      let x := serveVerb v f free
      exec .replySent s = .next (if s.host.early = true then replying (.no (.verb v) .starting []) free else replying x.2 x.1)) ∧
    (∀ w rest, s.host.waiting = some (.unknown (w :: rest)) → s.host.lostFirst = 0 → s.host.early = true →
      exec .replySent s = .next (replying (.no (.firstWord w) .starting []) free))) ∧
  (∀ s : State,
    (Listening s → Answered .restart [] s (.ok .restart []) { s with host := { s.host with restarting := .replying } }) ∧
    (s.phase = .running → s.host.tx = .reply → s.host.restarting = .replying → Completes .replySent s (fun t =>
      t.host.restarting = .waiting (s.now + 10000) ∧ t.host.inHand = none ∧ t.host.waiting = none ∧ t = { s with host := t.host })))

/-- R190: a notice joins the tail of a queue with room and is otherwise counted, up to 65,535, the first loss kept; a notice that has been sent
leaves the queue, and an OVERFLOW with the lost count and the first loss takes the place at the tail. -/
def Obligations.NoticesAreQueuedCountedAndSent : Prop :=
  (∀ (k : NoticeKind) (f : List Tok) (s : State),
    let n : Notice := { kind := k, time := s.now / 1000, fields := f }
    (s.host.notices.length < noticeRoom s → queueNotice k f s = { s with host := { s.host with notices := s.host.notices ++ [n] } }) ∧
    (noticeRoom s ≤ s.host.notices.length → s.host.overflow = none →
      queueNotice k f s = { s with host := { s.host with overflow := some (1, n.time) } }) ∧
    (∀ c first, noticeRoom s ≤ s.host.notices.length → s.host.overflow = some (c, first) →
      queueNotice k f s = { s with host := { s.host with overflow := some (min (c + 1) 65535, first) } })) ∧
  (∀ (s : State) (n : Notice) (rest : List Notice), s.phase = .running → s.host.tx = .notice → s.host.notices = n :: rest →
    (s.host.overflow = none → Completes .noticeSent s (SameButSending { s with host := { s.host with notices := rest } })) ∧
    (∀ c f, s.host.overflow = some (c, f) → rest.length < 64 → Completes .noticeSent s (SameButSending
      { s with host := { s.host with overflow := none, notices := rest ++ [{ kind := .overflow, time := s.now / 1000, fields := [.num c, .num f] }] } })))

/-! ## Start-up, supply and store -/

/-- R192, R193, R137, R47, R46, R134: each kind of start-up and the loss of either supply: the backup check of a power-on, and what the cut of the
write being performed leaves of the store (assumption 14 for a staging write; assumption 33 for a power-on of a part that has supply). That the loss
of supply clears the volatile records at once is the model's choice (assumption 28), and so are the unused fields of a cleared distributor
(assumption 8). The unit of the wait of RESTART is assumption 15. -/
def Obligations.StartUpsClearTheVolatileRecords : Prop :=
  ∀ (s : State) (cut : Cut),
    Completes .powerOn s (fun t => StartedUp s t .powerOn ∧
      (s.clock.lossSeen = false → t.clock = s.clock) ∧ (s.clock.lossSeen = true → t.clock.valid = false ∧ t.clock.cal = .initial)) ∧
    (s.phase ≠ .off → Completes (.resetPin cut) s (fun t => StartedUp s t .pin ∧ t.clock = s.clock ∧ t.store = s.store.cut cut)) ∧
    (∀ d, s.phase ≠ .off → s.host.restarting = .waiting d → s.store.performing = none → s.store.waiting = [] →
      Completes .restartWritesDrained s (fun t => StartedUp s t .request ∧ t.clock = s.clock ∧ t.store = s.store)) ∧
    (∀ d, s.phase ≠ .off → s.host.restarting = .waiting d → d ≤ s.now →
      Completes (.restartTimeout cut) s (fun t => StartedUp s t .request ∧ t.clock = s.clock ∧ t.store = s.store.cut cut)) ∧
    Completes (.powerFailure cut) s (fun t => t.phase = .off ∧ t.clock = s.clock ∧ t.pins = s.pins ∧ t.store = s.store.cut cut ∧
      t.lib = .initial ∧ t.runs = .initial ∧ t.sched = .initial ∧ t.dist = .initial ∧ t.host.inHand = none ∧ t.host.notices = []) ∧
    Completes .vbakLoss s (fun t => t = { s with clock := t.clock } ∧ t.clock.lossSeen = true)

/-- R46, R47, R63, R131, R134, R138, R147, R166, R167, R192, R4: what the load reads of each list, where it stops, what it makes of the records, and
what stays at its default; STARTUP stands at the head of the notice queue. The unused fields of the default rule and of a FREE slot are the model's
choice (assumption 8), and so are the form of a list with what closes it (assumption 29) and that a HOLD record of kind NONE and a slot header of
state FREE, which are never written, are out of range (assumption 80). -/
def Obligations.LoadEndPlacesStartupFirst : Prop :=
  (∀ (p : Partition) (l : RecordList),
    let got := readPartition p l
    got <+: l.recs ∧ (∀ r ∈ got, r.home = p ∧ r.ok = true) ∧
    loadResult p l = (if got = l.recs ∧ l.faulty = false then .ok l.recs.length else .truncated (got.length + 1)) ∧
    (∀ (r : StoreRec) (rest : List StoreRec), l.recs = got ++ r :: rest →
      r.home ≠ p ∨ r.ok = false ∨ (∃ q ∈ got, r.pos ≤ q.pos) ∨
        p = .library ∧ (200 ≤ got.length ∨ 1600 < (got.map StoreRec.slots).sum + r.slots))) ∧
  (∀ (s : State) (c : Cause), s.phase = .loading c → Completes .startUpLoadEnd s (fun t =>
    let profile := readPartition .profile s.store.profile
    let hygiene := readPartition .hygiene s.store.hygiene
    let library := readPartition .library s.store.library
    let headers := readPartition .headers s.store.headers
    t.phase = .running ∧
    (∃ rest, t.host.notices = { kind := .startup, time := s.now / 1000, fields :=
      [wd c.word, wd "PROFILE"] ++ (loadResult .profile s.store.profile).toks ++ [wd "HYGIENE"] ++ (loadResult .hygiene s.store.hygiene).toks ++
        [wd "LIBRARY"] ++ (loadResult .library s.store.library).toks ++ [wd "SLOT-HEADERS"] ++ (loadResult .headers s.store.headers).toks ++
        [wd "CLOCK-VALID", .yn s.clock.valid] } :: rest) ∧
    (∀ r ∈ profile ++ hygiene ++ headers, Taken t r) ∧
    t.lib.index = s.lib.index ++ library.filterMap (fun r => match r with
      | .recipe n x => some { number := n, cur := x, pins := 0, retired := none, withdrawn := false }
      | _ => none) ∧
    t.lib.free = s.lib.free - (library.map StoreRec.slots).sum ∧
    ((∀ r ∈ profile, r.pos ≠ sitePos) →
      t.heat.limit = s.heat.limit ∧ t.heat.idleTime = s.heat.idleTime ∧ t.runs.doorGrace = s.runs.doorGrace) ∧
    ((∀ r ∈ profile, r.pos ≠ quickPos) → t.lib.quick = s.lib.quick) ∧
    ((∀ r ∈ profile, r.pos ≠ dstPos) → t.clock.rule = .initial) ∧
    (t.clock.rule.enabled = false → t.clock.inDst = false ∧ t.clock.secondPass = false) ∧
    t.clock.cal = s.clock.cal ∧ t.clock.valid = s.clock.valid ∧
    (∀ k : Fin 16, (∀ r ∈ profile, r.pos ≠ eventPos k) → t.mon.settings[k] = s.mon.settings[k]) ∧
    (∀ n : Fin 24, (∀ r ∈ profile, r.pos ≠ schedPos n) → t.sched.entries[n] = s.sched.entries[n]) ∧
    (∀ b : BayId,
      ((∀ r ∈ profile, r.pos ≠ commissionPos b) → t.reg[b].commission = s.reg[b].commission) ∧
      ((∀ r ∈ profile, r.pos ≠ holdPos b) →
        t.mon.bays[b].hold = s.mon.bays[b].hold ∧ t.mon.bays[b].releasePending = s.mon.bays[b].releasePending) ∧
      ((∀ r ∈ hygiene, r.pos ≠ b.val) → t.clean[b].hygiene = s.clean[b].hygiene) ∧
      condition t b .cleanDue = cleanDue t.clean[b].hygiene ∧ condition t b .rinseOwed = t.clean[b].hygiene.rinseOwed ∧
      condition t b .detergentLow = detergentLow t.clean[b].hygiene ∧
      (s.reg[b].settled = true → t.reg[b].state = .interrogating ∧ t.reg[b].settled = false) ∧
      (s.reg[b].settled = false → t.reg[b].state = s.reg[b].state)) ∧
    (∀ k : Fin 4, (∀ r ∈ headers, r.pos ≠ k.val) → t.dist.slots[k] = s.dist.slots[k])))

/-- R42, R44: the write being performed completes and the next one of the queue begins. A record write rewrites the list of its partition and no
other, an erase erases its slot's 524,288 bytes of the staging, and a staging write writes its bytes at their offset in the slot. A rewrite leaves the
records before its position, then the record or its removal, then the records after it; staging bytes written read as written and no other byte is
touched; and a read gives the value of the latest write of the byte, though it is still waiting. That a rewrite closes a list also where a faulty
record stands before its position (`faulty` is then no) is the model's choice (assumption 29); so is what an erased slot reads as (FFh: assumption 5).
-/
def Obligations.StoreWritesArePerformedInTurn : Prop :=
  (∀ (s : State) (w : Write), s.phase = .running → s.store.performing = some w →
    (s.store.waiting = [] → Completes .storeWriteDone s (SameButSending { s with store := { s.store.perform w with performing := none } })) ∧
    (∀ x rest, s.store.waiting = x :: rest →
      Completes .storeWriteDone s (SameButSending { s with store := { s.store.perform w with performing := some x, waiting := rest } }))) ∧
  (∀ t : Store,
    (∀ (pos : Nat) (content : Option StoreRec),
      t.perform (.record .profile pos content) = { t with profile := t.profile.rewrite pos content } ∧
      t.perform (.record .hygiene pos content) = { t with hygiene := t.hygiene.rewrite pos content } ∧
      t.perform (.record .library pos content) = { t with library := t.library.rewrite pos content } ∧
      t.perform (.record .headers pos content) = { t with headers := t.headers.rewrite pos content }) ∧
    (∀ k : Fin 4, t.perform (.erase k) = { t with staging := Memory.eraseSlot t.staging k }) ∧
    (∀ (k : Fin 4) (o : Nat) (d : List Byte),
      t.perform (.bytes k o d) = { t with staging := Memory.writeBytes t.staging (k.val * 524288 + o) d })) ∧
  (∀ (l : RecordList) (pos : Nat) (content : Option StoreRec), (∀ r, content = some r → r.pos = pos) →
    (l.rewrite pos content).faulty = false ∧
    (∀ r : StoreRec, r.pos ≠ pos → (r ∈ (l.rewrite pos content).recs ↔ r ∈ l.recs)) ∧
    (∀ r : StoreRec, r.pos = pos → (r ∈ (l.rewrite pos content).recs ↔ content = some r)) ∧
    (l.recs.Pairwise (fun a b => a.pos < b.pos) → (l.rewrite pos content).recs.Pairwise (fun a b => a.pos < b.pos))) ∧
  (∀ (m : List Host.Cell), Memory.wf m →
    (∀ (i : Nat) (l : List Byte), Memory.wf (Memory.writeBytes m i l) ∧
      (∀ (j : Nat) (h : j < l.length), Memory.read (Memory.writeBytes m i l) (i + j) = l[j]) ∧
      (∀ a : Nat, a < i ∨ i + l.length ≤ a → Memory.read (Memory.writeBytes m i l) a = Memory.read m a)) ∧
    (∀ k : Fin 4, Memory.wf (Memory.eraseSlot m k) ∧
      (∀ o : Nat, o < 524288 → Memory.read (Memory.eraseSlot m k) (stagingAddr k o) = erasedByte) ∧
      (∀ a : Nat, a < stagingAddr k 0 ∨ stagingAddr k 524288 ≤ a → Memory.read (Memory.eraseSlot m k) a = Memory.read m a))) ∧
  (∀ (s : State) (k : Fin 4) (o : Nat) (d : List Byte),
    let t := storeStaging (.bytes k o d) s
    (∀ (i : Nat) (h : i < d.length), t.store.stagingRead k (o + i) = d[i]) ∧
    (∀ (j : Fin 4) (i : Nat), j ≠ k ∨ i < o ∨ o + d.length ≤ i → t.store.stagingRead j i = s.store.stagingRead j i))

/-! ## Bay Registry -/

/-- R3: the contacts' classification; a movement that leaves it alone changes nothing, and any other records the new value for that bay
only. -/
def Obligations.ContactsAreClassified : Prop :=
  ∀ (s : State) (b : BayId) (lead seat : Bool), s.phase ≠ .off →
    let v : Presence := if lead && seat then .present else if lead || seat then .partly else .absent
    let c : Instr := if lead && seat then .presencePresent b else if lead || seat then .presencePartial b lead else .presenceAbsent b
    let u : State := { s with pins := s.pins.set b { lead := lead, seat := seat } }
    (s.reg[b].presence = v → Completes c s (SameButSending u)) ∧
    (s.reg[b].presence ≠ v → Completes c s (fun t => t.pins = u.pins ∧ t.reg[b].presence = v ∧
      SameButSending (match v with | .present => becomePresent b u | .partly => becomePartial b u | .absent => becomeAbsent b u) t ∧
      ∀ d : BayId, d ≠ b → t.reg[d].presence = s.reg[d].presence))

/-- R4, R5, R6, R2, R21: what each presence change does to the bay, from every bay state: its new state and BAY notice, its timers, and the
teardown of a bay whose oven has gone. The unit that its timers are kept in is the model's choice (assumption 15). -/
def Obligations.PresenceChangesMoveTheBay : Prop :=
  ∀ (s : State) (b : BayId), s.phase ≠ .off →
    (s.reg[b].presence ≠ .present → Completes (.presencePresent b) s (fun t =>
      t.reg[b].state = .settling ∧ t.reg[b].settleDue = some (s.now + 2000) ∧ t.reg[b].partialDue = none ∧
      condition t b .presencePartial = false ∧ t.reg[b].commission = s.reg[b].commission ∧
      (s.reg[b].state ≠ .settling → TellsBay s t b .settling .present))) ∧
    (∀ lead, s.reg[b].presence ≠ .partly → Completes (.presencePartial b lead) s (fun t =>
      t.reg[b].state = .settling ∧ t.reg[b].identity = none ∧ t.reg[b].partialDue = some (s.now + 2000) ∧ t.reg[b].settleDue = none ∧
      t.reg[b].commission = s.reg[b].commission ∧ (s.reg[b].state ≠ .settling → TellsBay s t b .settling .partly) ∧
      (s.reg[b].presence = .present → s.reg[b].state ≠ .settling → JobOf s b → TornDown s t b false))) ∧
    (s.reg[b].presence ≠ .absent → Completes (.presenceAbsent b) s (fun t =>
      t.reg[b].state = .empty ∧ t.reg[b].identity = none ∧ t.reg[b].power = .off ∧ t.reg[b].settleDue = none ∧ t.reg[b].partialDue = none ∧
      t.reg[b].pollCount = 0 ∧ t.reg[b].stepCheck = false ∧ condition t b .presencePartial = false ∧
      t.reg[b].commission = s.reg[b].commission ∧ (s.reg[b].state ≠ .empty → TellsBay s t b .empty .absent) ∧
      (s.reg[b].state ≠ .empty → s.reg[b].state ≠ .settling → JobOf s b → TornDown s t b false)))

/-- R4, R7, R5, R15, R2: the settle timer, the partial timer and the sequence deadline. The units that these deadlines are kept in are the
model's choice (assumption 15). -/
def Obligations.BayTimersExpire : Prop :=
  ∀ (s : State) (b : BayId) (d : Nat),
    (s.phase = .running → s.reg[b].state = .settling → s.reg[b].settleDue = some d → d ≤ s.now → Completes (.settleTimerExpiry b) s (fun t =>
      t.reg[b].state = .interrogating ∧ t.reg[b].settleDue = none ∧ t.reg[b].pollCount = 0 ∧ t.reg[b].stepCheck = true ∧ t.reg[b].power = .off ∧
      TellsBay s t b .interrogating .settled ∧
      (s.line.bays[b].queue.length < 6 → ∃ o ∈ t.line.bays[b].queue, o.body = .identify))) ∧
    (∀ c, s.phase = .loading c → s.reg[b].settleDue = some d → d ≤ s.now → Completes (.settleTimerExpiry b) s (fun t =>
      t.reg[b] = { s.reg[b] with settleDue := none, settled := true } ∧ t = { s with reg := t.reg, host := t.host })) ∧
    (s.phase ≠ .off → s.reg[b].partialDue = some d → d ≤ s.now → Completes (.partialTimerExpiry b) s (fun t =>
      condition t b .presencePartial = true ∧ t.reg[b] = { s.reg[b] with partialDue := none } ∧
      (condition s b .presencePartial = false → t.mon.bays[b].latches[EventKind.presencePartial.slot].set = true))) ∧
    (∀ c, s.phase ≠ .off → s.reg[b].context = some c → c.deadline ≤ s.now / 1000 →
      Completes (.commissionDeadlineExpiry b) s (fun t => Abandoned s t b c))

/-- R12, R13, R14, R15, R10, R2: a sequence opens, or opens afresh, with 30 s for its messages, and one that announces none completes at once; LIMITS
is stored while OPTIONS is still to come; the last message completes the sequence, and the supply check decides between READY with a new commission
record and REFUSED with the old one; a message that is not the expected one is refused SEQUENCE and abandons the sequence, and one with no sequence
open changes nothing. The unit that the deadline is kept in is the model's choice (assumption 15). -/
def Obligations.CommissioningMessagesComplete : Prop :=
  (∀ (s : State) (f : List Txt) (p : BeginFields) (before : BayState), Listening s → parseBegin f = some (some p) →
    let g := s.reg[p.bay]
    ((g.state = .uncommissioned ∨ g.state = .refused ∨ g.state = .ready ∧ g.activity = .nothing) ∧ before = g.state ∨
      g.state = .commissioning ∧ ∃ c, g.context = some c ∧ before = c.before) →
    let opened : CommContext := { supply := p.supply, circuitMax := p.circuitMax, water := p.water, limitsFollow := p.limits, optionsFollow := p.options,
                                  limits := none, options := none, next := if p.limits then .limits else .options, before := before,
                                  deadline := s.now / 1000 + 30 }
    (p.limits = true ∨ p.options = true → Completes (.commissionBegin f) s (fun t =>
      t.reg[p.bay].state = .commissioning ∧ t.reg[p.bay].commission = g.commission ∧ t.reg[p.bay].context = some opened ∧
      (g.state ≠ .commissioning → TellsBay s t p.bay .commissioning .begin) ∧
      (g.state = .commissioning → t = { s with reg := t.reg, host := { s.host with inHand := t.host.inHand, tx := t.host.tx, sent := t.host.sent } }) ∧
      t.host.inHand = some (.ok .commissionBegin [bayTok p.bay, wd "OPEN", wd (if p.limits then "LIMITS" else "OPTIONS")]))) ∧
    (∀ i, p.limits = false → p.options = false → g.identity = some i →
      Completes (.commissionBegin f) s (fun t => Commissioned s t p.bay .commissionBegin opened i))) ∧
  (∀ (s : State) (b : BayId) (w1 w2 w3 : Txt) (z : Int) (y : Option Bool), Listening s → NamesBay w1 b → tempField w2 = some z → ynField w3 = some y →
    let refused : Reply := .no (.verb .commissionLimits) .sequence []
    (s.reg[b].context = none → Answered .commissionLimits [w1, w2, w3] s refused s) ∧
    (∀ c, s.reg[b].context = some c →
      (c.next = .options → Completes (.commissionLimits [w1, w2, w3]) s (fun t => Abandoned s t b c ∧ t.host.inHand = some refused)) ∧
      (∀ stay, y = some stay → c.next = .limits → 1500 ≤ z → z ≤ 3000 →
        let d : CommContext := { c with limits := some (z, stay), next := .options }
        (c.optionsFollow = true → Completes (.commissionLimits [w1, w2, w3]) s (fun t =>
          t.reg[b] = { s.reg[b] with context := some d } ∧ (∀ e : BayId, e ≠ b → t.reg[e] = s.reg[e]) ∧ t = { s with reg := t.reg, host := t.host } ∧
          t.host.inHand = some (.ok .commissionLimits [bayTok b, wd "OPEN", wd "OPTIONS"]))) ∧
        (∀ i, c.optionsFollow = false → s.reg[b].state = .commissioning → s.reg[b].identity = some i →
          Completes (.commissionLimits [w1, w2, w3]) s (fun t => Commissioned s t b .commissionLimits d i))))) ∧
  (∀ (s : State) (b : BayId) (w1 a1 a2 a3 a4 w6 : Txt) (n1 n2 n3 n4 : Nat) (y : Option Bool), Listening s → NamesBay w1 b → number a1 = some n1 →
    number a2 = some n2 → number a3 = some n3 → number a4 = some n4 → ynField w6 = some y →
    let refused : Reply := .no (.verb .commissionOptions) .sequence []
    (s.reg[b].context = none → Answered .commissionOptions [w1, a1, a2, a3, a4, w6] s refused s) ∧
    (∀ c, s.reg[b].context = some c →
      (c.next = .limits → Completes (.commissionOptions [w1, a1, a2, a3, a4, w6]) s (fun t => Abandoned s t b c ∧ t.host.inHand = some refused)) ∧
      (∀ stay i, y = some stay → c.next = .options → n1 ≤ 999 → n2 ≤ 999 → n3 ≤ 999 → n4 ≤ 999 → s.reg[b].state = .commissioning →
        s.reg[b].identity = some i → Completes (.commissionOptions [w1, a1, a2, a3, a4, w6]) s (fun t => Commissioned s t b .commissionOptions
          { c with options := some ({ base := n1, limit := n2 }, { base := n3, limit := n4 }, stay) } i))))

/-- R16, R17, R21: DECOMMISSION and SET-MENU. The bare reply of DECOMMISSION is the model's reading (assumption 21). -/
def Obligations.CommissionRecordsAreDroppedOrChanged : Prop :=
  ∀ (s : State) (w : Txt) (b : BayId), Listening s → NamesBay w b →
    ((s.reg[b].state = .ready ∨ s.reg[b].state = .refused) → s.reg[b].activity = .nothing → Completes (.decommission [w]) s (fun t =>
      t.reg[b].state = .uncommissioned ∧ t.reg[b].commission = none ∧ t.reg[b].identity = s.reg[b].identity ∧
      t.mon.bays[b].hold = s.mon.bays[b].hold ∧ t.clean[b].hygiene = s.clean[b].hygiene ∧
      t.store = (storeRecord .profile (commissionPos b) none s).store ∧ TellsBay s t b .uncommissioned .decommissioned ∧
      (JobOf s b → TornDown s t b false) ∧ t.host.inHand = some (.ok .decommission []))) ∧
    (∀ (w2 w3 w4 : Txt) (k lo hi : Nat) (c : Commission), number w2 = some k → number w3 = some lo → number w4 = some hi → (k = 1 ∨ k = 2) →
      lo ≤ 999 → hi ≤ 999 → s.reg[b].state = .ready → s.reg[b].commission = some c →
      let m : MenuWindow := { base := lo, limit := hi }
      let d : Commission := if k = 1 then { c with win1 := m } else { c with win2 := m }
      Completes (.setMenu [w, w2, w3, w4]) s (fun t =>
        t.reg[b] = { s.reg[b] with commission := some d } ∧ HandedOver s t (.commission b d) ∧
        t = { s with reg := t.reg, store := t.store, host := t.host } ∧
        t.host.inHand = some (.ok .setMenu [bayTok b, .num k, wd (if lo ≤ hi ∧ ¬ (lo = 0 ∧ hi = 0) then "OPEN" else "CLOSED")])))

/-- R35, R36, R37, R38, R39: an order placed takes the next id and replaces the queued one of its coalescing kind in place, or joins the tail; in
a full queue its producer holds it, and for an EMPTY or SETTLING bay it is discarded. A SAFE empties the queue, stands at its head, and IDENTIFY
and HEAT-ALLOW are then placed again. A held order is placed when there is space. A withdrawal takes out its kinds alone. -/
def Obligations.OrdersQueueCoalesceAndAreHeld : Prop :=
  (∀ k : OrderKind, k.coalesces = true ↔ k = .setpoint ∨ k = .heatAllow ∨ k = .power ∨ k = .panelDeny) ∧
  ∀ (s : State) (b : BayId) (body : OrderBody) (note : Note),
    let q := s.line.bays[b].queue
    let o : Order := { id := s.line.bays[b].nextId, body := body, delivered := false }
    let t := placeOrder b body note s
    let u := placeSafe b s
    let v := offerHeld b s
    (∀ kinds : List OrderKind,
      (∀ x ∈ (withdraw b kinds s).line.bays[b].queue, x.body.kind ∉ kinds) ∧
      (∀ x ∈ q, x.body.kind ∉ kinds → x.body.kind.coalesces = false → x ∈ (withdraw b kinds s).line.bays[b].queue)) ∧
    (s.reg[b].state = .empty ∨ s.reg[b].state = .settling → t = s ∧ u = s) ∧
    (s.reg[b].state ≠ .empty → s.reg[b].state ≠ .settling →
      (body.kind.coalesces = true → (∃ x ∈ q, x.body.kind = body.kind) →
        t.line.bays[b].queue = q.map (fun x => if x.body.kind = body.kind then o else x) ∧
        t.line.bays[b].nextId = (if o.id < 255 then o.id + 1 else 1)) ∧
      (¬ (body.kind.coalesces = true ∧ ∃ x ∈ q, x.body.kind = body.kind) →
        (q.length < 6 → t.line.bays[b].queue = q ++ [o] ∧ t.line.bays[b].nextId = (if o.id < 255 then o.id + 1 else 1)) ∧
        (6 ≤ q.length → t.line.bays[b].queue = q ∧ (∃ h ∈ t.line.bays[b].held, h.body = body ∧ h.note = note) ∧
          t = { s with line := t.line })) ∧
      (∃ rest, u.line.bays[b].queue = { o with body := .safe } :: rest ∧ (∀ x ∈ rest, x.delivered = false) ∧
        (q.length ≤ 5 → s.line.bays[b].held = [] →
          ((∃ x ∈ q, x.body = .identify) → s.reg[b].state = .interrogating → ∃ x ∈ rest, x.body = .identify) ∧
          ((∃ x ∈ q, ∃ n, x.body = .heatAllow n) → ∃ x ∈ rest, x.body = .heatAllow s.heat.bays[b].allowance))) ∧
      (∀ h rest, s.line.bays[b].held = h :: rest → h.body.kind.coalesces = false → q.length < 6 →
        ∃ x ∈ v.line.bays[b].queue, x.body = h.body ∧ x.id = s.line.bays[b].nextId))

/-! ## Oven Line Controller -/

/-- R23, R24, R25, R26, R27: a cycle starts at its boundary; a poll carries up to two orders from the head of the queue, and its answer is awaited
until 20 ms after its last byte; an extra poll follows the regular ones where it fits; a LOST bay is due ten seconds after its last poll. That an
answer's window counts as closed once the answer is taken, so that the next poll or cycle may begin before the 20 ms are over, is the model's choice
(assumption 37), and so is that a cycle held up by the answer to an extra poll counts the next boundary from its own start (assumption 78). So are the
units that these deadlines are kept in (assumption 15). -/
def Obligations.PollsAreSentInTheCycle : Prop :=
  ∀ s : State, s.phase ≠ .off →
    let polled (b : BayId) : Exchange :=
      { bay := b, carried := s.line.bays[b].queue.take 2, wasLost := decide (s.reg[b].state = .lost),
        limit := s.now * 1000 + 40 * (pollFrame b (s.line.bays[b].queue.take 2)).length + 20000, answer := .awaited }
    (s.line.boundary ≤ s.now → s.line.cursor = 12 → windowIsOpen s = false → Completes .pollCycleStart s (fun t =>
      t.line.boundary = s.now + 1000 ∧ t.line.extraOver = false ∧
      t.line.cursor = (match allBays.find? (pollDue s) with | some b => b.val | none => 12) ∧ t = { s with line := t.line, host := t.host })) ∧
    (∀ b : BayId, windowIsOpen s = false → nextPoll s = some b → Completes .pollSend s (fun t =>
      t.line.exchange = some (polled b) ∧ t.line.cursor = b.val + 1 ∧
      t.line.bays[b].queue.map Order.id = s.line.bays[b].queue.map Order.id ∧ (∀ o ∈ t.line.bays[b].queue.take 2, o.delivered = true) ∧
      t = { s with line := t.line, dist := t.dist, host := t.host })) ∧
    (∀ b : BayId, windowIsOpen s = false → nextPoll s = none → s.line.extraOver = false →
      (extraOrder s.line.extraAfter).find? (extraEligible s) = some b →
      (polled b).limit < s.line.boundary * 1000 → Completes .pollSend s (fun t =>
        t.line.exchange = some (polled b) ∧ t.line.extraAfter = some b)) ∧
    (∀ b : BayId, s.reg[b].state = .lost → s.line.bays[b].lostFrom + 10000 ≤ s.now → Completes (.lostPollDue b) s (fun t =>
      t.line.bays[b] = { s.line.bays[b] with lostDue := true } ∧ t = { s with line := t.line, host := t.host }))

/-- R23, R25, R27, R28, R7, R21, R194: a frame that is no valid answer counts as none, and bytes that come before the poll's last byte are
discarded; the window closes when the answer limit has ended, and not before; a missed poll raises the miss count, unless it was a poll of a LOST
bay; the third miss, and the third poll of an INTERROGATING bay, take the bay to LOST. That an answer's window counts as closed once the answer is
taken is the model's choice (assumption 37), and so is what a miss of a bay that has become LOST, or left LOST, since its poll does (assumption 18).
That a window's close before its limit does nothing is the model's choice too (assumption 4); the unit of the answer limit is assumption 15. -/
def Obligations.MissedPollsExpireTheBay : Prop :=
  ∀ (s : State) (x : Exchange), s.phase ≠ .off → s.line.exchange = some x →
    let l := s.line.bays[x.bay]
    (x.answer = .awaited → ∀ c : Instr, c = .answerByteGap ∨ c = .answerFrameInvalid →
      (x.limit ≤ s.now * 1000 + 20000 →
        Completes c s (SameButSending { s with line := { s.line with exchange := some { x with answer := .spoilt } } })) ∧
      (s.now * 1000 + 20000 < x.limit → Completes c s (SameButSending s))) ∧
    (s.now * 1000 < x.limit → Completes .answerWindowClose s (SameButSending s)) ∧
    (x.limit ≤ s.now * 1000 →
      (x.answer = .taken ∨ x.wasLost = true → Completes .answerWindowClose s (fun t =>
        t.line.exchange = none ∧ t.line.bays = s.line.bays ∧ t = { s with line := t.line, host := t.host })) ∧
      (x.answer ≠ .taken → x.wasLost = false →
        (l.misses < 2 → s.reg[x.bay].state ≠ .interrogating → Completes .answerWindowClose s (fun t =>
          t.line.exchange = none ∧ t.line.bays[x.bay] = { l with misses := l.misses + 1 } ∧ t = { s with line := t.line, host := t.host })) ∧
        (l.misses < 2 → s.reg[x.bay].state = .interrogating → s.reg[x.bay].pollCount < 2 → Completes .answerWindowClose s (fun t =>
          t.line.exchange = none ∧ t.line.bays[x.bay] = { l with misses := l.misses + 1 } ∧
          t.reg[x.bay] = { s.reg[x.bay] with pollCount := s.reg[x.bay].pollCount + 1 } ∧
          t = { s with line := t.line, reg := t.reg, host := t.host })) ∧
        (2 ≤ l.misses → (l.grace.isSome = true ∨ s.reg[x.bay].state = .lost) → s.reg[x.bay].state ≠ .interrogating →
          Completes .answerWindowClose s (fun t => t.line.exchange = none ∧ t.line.bays[x.bay] = { l with misses := 3 } ∧ t.reg = s.reg)) ∧
        (s.reg[x.bay].state ≠ .lost →
          (2 ≤ l.misses ∧ l.grace = none ∨ s.reg[x.bay].state = .interrogating ∧ 2 ≤ s.reg[x.bay].pollCount) →
          Completes .answerWindowClose s (fun t =>
            t.line.exchange = none ∧ t.reg[x.bay].state = .lost ∧ t.line.bays[x.bay].misses = 0 ∧ condition t x.bay .lineExpired = true ∧
            TellsBay s t x.bay .lost .expired ∧ (JobOf s x.bay → TornDown s t x.bay true)))))

/-- R23, R27, R30, R31, R33, R11, R9, R7, R18, R104, R119, R123: an answer counts where it is awaited and began within the answer window; an echo
accepts the first carried order, or both, and they leave the queue; the record is then handed, part by part, to the blocks that own its parts, in
the order that is the model's choice (assumptions 17, 47, 55, 75), and a LOST bay is first taken to INTERROGATING. That this answer is no poll of the
interrogation it begins is the model's choice (assumption 18), and so is how the beginning of an answer is reckoned, by the length of its frame and
the gaps between its bytes (R194; assumption 37). -/
def Obligations.StatusRecordsReachTheirOwners : Prop :=
  (∀ (o p : Order) (echo : Nat), acceptedBy [o, p] echo = (if o.id = echo then [o] else if p.id = echo then [o, p] else []) ∧
    acceptedBy [o] echo = (if o.id = echo then [o] else []) ∧ acceptedBy [] echo = []) ∧
  (∀ (s : State) (b : BayId) (id : Nat), s.line.bays[b].held = [] → channelOf s b = none →
    (removeOrder b id s).line.bays[b].queue = s.line.bays[b].queue.filter (fun o => decide (o.id ≠ id))) ∧
  (∀ (s : State) (x : Exchange) (r : StatusBody), s.phase = .running → s.line.exchange = some x →
    let rep := correct r
    let u := acceptOrders x.bay (acceptedBy x.carried r.echo) (takeAnswer x.bay s)
    let known := takePower x.bay rep.power (stepCheck x.bay rep.stepId
      (if (keepLatest x.bay rep u).reg[x.bay].state = .lost then setBayState x.bay .interrogating .answered (keepLatest x.bay rep u)
       else keepLatest x.bay rep u))
    let used := transferRecord x.bay rep (cleanRecord x.bay rep (takeDoor x.bay rep.doorOpen (takeDemand x.bay rep.demand (runRecord x.bay rep
      (takeFault x.bay rep.fault (takeMode x.bay rep.service known))))))
    let v := match rep.panel with
      | some i => servePanel x.bay i used
      | none => used
    (x.answer ≠ .awaited ∨ s.now * 1000 + 20000 < x.limit + 1400 + r.gaps ∨ x.limit + 1400 + r.gaps < s.now * 1000 →
      Completes (.statusRecord r) s (SameButSending s)) ∧
    (x.answer = .awaited → x.limit + 1400 + r.gaps ≤ s.now * 1000 + 20000 → s.now * 1000 ≤ x.limit + 1400 + r.gaps →
      (r.malformed = true ∨ 34 * 1000 < r.gaps → Completes (.statusRecord r) s
        (SameButSending { s with line := { s.line with exchange := some { x with answer := .spoilt } } })) ∧
      (r.malformed = false → r.gaps ≤ 34 * 1000 →
        Completes (.statusRecord r) s (SameButSending (if s.reg[x.bay].state = .lost then v else countPoll x.bay v)) ∧
        (s.reg[x.bay].state = .ready → Completes (.statusRecord r) s (fun t =>
          t.line.exchange = some { x with answer := .taken } ∧ t.line.bays[x.bay].misses = 0 ∧ t.reg[x.bay].state = .ready ∧
          t.reg[x.bay].power = powerOf r.power ∧ t.reg[x.bay].stepCheck = false ∧ t.heat.bays[x.bay].demand = r.demand ∧
          t.clean[x.bay].cabinet = some (min (max (-200) r.cabinet) 3200) ∧ t.clean[x.bay].baseline = some r.dose)) ∧
        (s.reg[x.bay].state = .lost → Completes (.statusRecord r) s (fun t =>
          t.line.exchange = some { x with answer := .taken } ∧ t.line.bays[x.bay].misses = 0 ∧ t.reg[x.bay].state = .interrogating ∧
          t.reg[x.bay].pollCount = 0 ∧ t.reg[x.bay].power = powerOf r.power ∧ t.reg[x.bay].stepCheck = false ∧
          TellsBay s t x.bay .interrogating .answered ∧
          (r.stepId ≠ 0 → t.line.bays[x.bay].queue.head?.map Order.body = some .safe))) ∧
        (s.reg[x.bay].state = .interrogating → s.reg[x.bay].pollCount < 2 → Completes (.statusRecord r) s (fun t =>
          t.reg[x.bay].state = .interrogating ∧ t.reg[x.bay].pollCount = s.reg[x.bay].pollCount + 1 ∧ t.reg[x.bay].power = powerOf r.power)))))

/-- R32, R8, R7, R10, R2, R11, R179: an identity record in range decides the state of an INTERROGATING bay; one out of range counts as an answer and as
a poll of the interrogation and is not stored; any takes a LOST bay to INTERROGATING, with its fields not stored; of any other polled bay one in
range is handed to the Update Distributor. One that is not awaited, or that did not begin within the answer window, does nothing. How the beginning
of an answer is reckoned, by the length of its frame and the gaps between its bytes (R194), is the model's choice (assumption 37), and so is the order
of the acceptances (assumption 47); so is it that the answer of a LOST bay is no poll of the interrogation it begins (assumption 18). -/
def Obligations.IdentityDecidesTheBayState : Prop :=
  ∀ (s : State) (x : Exchange) (r : IdentityBody), s.phase = .running → s.line.exchange = some x →
    let b := x.bay
    let g := s.reg[b]
    (x.answer ≠ .awaited ∨ s.now * 1000 + 20000 < x.limit + 880 + r.gaps ∨ x.limit + 880 + r.gaps < s.now * 1000 →
      Completes (.identityRecord r) s (SameButSending s)) ∧
    (x.answer = .awaited → x.limit + 880 + r.gaps ≤ s.now * 1000 + 20000 → s.now * 1000 ≤ x.limit + 880 + r.gaps → 21 * 1000 < r.gaps →
      Completes (.identityRecord r) s (SameButSending { s with line := { s.line with exchange := some { x with answer := .spoilt } } })) ∧
    (x.answer = .awaited → x.limit + 880 + r.gaps ≤ s.now * 1000 + 20000 → s.now * 1000 ≤ x.limit + 880 + r.gaps → r.gaps ≤ 21 * 1000 →
      Completes (.identityRecord r) s (fun t => t.line.exchange = some { x with answer := .taken }) ∧
      (identityOk r = true → g.state = .interrogating → Completes (.identityRecord r) s (fun t =>
        t.line.bays[b].misses = 0 ∧ t.reg[b].identity = some (identityOf r) ∧
        (g.commission = none → t.reg[b].state = .uncommissioned ∧ TellsBay s t b .uncommissioned .new) ∧
        (∀ c, g.commission = some c →
          (c.serial ≠ (identityOf r).serial →
            t.reg[b].state = .uncommissioned ∧ t.reg[b].commission = none ∧ TellsBay s t b .uncommissioned .new) ∧
          (c.serial = (identityOf r).serial → t.reg[b].commission = some c ∧
            (r.supply = c.prov.supply ∧ r.rated ≤ c.prov.circuitMax → t.reg[b].state = .ready ∧ TellsBay s t b .ready .matched) ∧
            (¬ (r.supply = c.prov.supply ∧ r.rated ≤ c.prov.circuitMax) →
              t.reg[b].state = .refused ∧ TellsBay s t b .refused .supply))))) ∧
      (identityOk r = false → g.state = .interrogating →
        (g.pollCount < 2 → Completes (.identityRecord r) s (fun t =>
          t.reg[b] = { g with pollCount := g.pollCount + 1 } ∧ t.line.bays[b].misses = 0)) ∧
        (2 ≤ g.pollCount → Completes (.identityRecord r) s (fun t =>
          t.reg[b].state = .lost ∧ t.reg[b].identity = g.identity ∧ t.line.bays[b].misses = 0 ∧ TellsBay s t b .lost .expired))) ∧
      (g.state = .lost → Completes (.identityRecord r) s (fun t =>
        t.reg[b].state = .interrogating ∧ t.reg[b].identity = g.identity ∧ t.reg[b].pollCount = 0 ∧ t.line.bays[b].misses = 0 ∧
        TellsBay s t b .interrogating .answered)) ∧
      (g.state ≠ .interrogating → g.state ≠ .lost → g.state ≠ .empty → g.state ≠ .settling →
        let t := takeAnswer b s
        let u := if x.carried.any (fun o => decide (o.body = .identify)) then acceptOrders b x.carried t else t
        Completes (.identityRecord r) s (SameButSending (if identityOk r = true then takeReturn b (identityOf r) u else u))))

/-! ## Recipe Library -/

/-- R54, R55, R56: a load opens, takes its steps in order, and is cancelled or runs out with its slots freed; a step out of order is refused SEQUENCE
and abandons it, one out of range is refused RANGE and leaves it open, and one with no load open is refused SEQUENCE. The unit that its deadline is kept in is
the model's choice (assumption 15). -/
def Obligations.RecipeLoadsReserveTheirSlots : Prop :=
  ∀ s : State, Listening s →
    (∀ (f : List Txt) (n k : Nat) (r : Revision), parseRecipeBegin f = some (n, some r, k) → headerOk n r.revision r.name r.soilClass r.minFirmware k = true →
      beginCheck s.lib n r.revision k = none →
      Answered .recipeBegin f s (.ok .recipeBegin [.num n, wd "NEXT", .num 1]) { s with lib := { s.lib with
        load := some { number := n, head := r, count := k, next := 1, deadline := s.now / 1000 + 60 }, free := s.lib.free - k,
        reserved := s.lib.reserved + k } }) ∧
    (s.lib.load = none → ∀ (f : List Txt) (k : Nat) (st : Option Step), parseRecipeStep f = some (k, st) →
      Answered .recipeStep f s (.no (.verb .recipeStep) .sequence []) s) ∧
    (∀ l, s.lib.load = some l →
      let closed : State := { s with lib := { s.lib with load := none, free := s.lib.free + l.count, reserved := s.lib.reserved - l.count } }
      Answered .recipeCancel [] s (.ok .recipeCancel [.num l.number]) closed ∧
      (l.deadline ≤ s.now / 1000 → Completes .loadDeadlineExpiry s (SameButSending closed)) ∧
      (∀ (f : List Txt) (k : Nat) (st : Option Step), parseRecipeStep f = some (k, st) → k ≠ l.next →
        Answered .recipeStep f s (.no (.verb .recipeStep) .sequence []) closed) ∧
      (∀ (f : List Txt) (st : Option Step), parseRecipeStep f = some (l.next, st) → (∀ x, st = some x → stepOk l.head.probe x = false) →
        Answered .recipeStep f s (.no (.verb .recipeStep) .range []) s) ∧
      (∀ (f : List Txt) (st : Step), parseRecipeStep f = some (l.next, some st) → stepOk l.head.probe st = true → l.next < l.count →
        Answered .recipeStep f s (.ok .recipeStep [.num l.next, wd "NEXT", .num (l.next + 1)])
          { s with lib := { s.lib with load := some { l with next := l.next + 1, head := { l.head with steps := l.head.steps ++ [st] } } } }))

/-- R51, R53, R55, R57: the last step of a load installs the revision: as a new entry, over an unpinned revision whose slots become free, or beside
a pinned one, which is retired; a replacement refused STALE or BUSY returns its slots. A withdrawn entry leaves the index at once where it has no
pins, and is marked otherwise; SET-QUICK sets one index. -/
def Obligations.LastStepInstallsTheRevision : Prop :=
  (∀ (s : State) (l : Load) (f : List Txt) (st : Step), Listening s → s.lib.load = some l → parseRecipeStep f = some (l.next, some st) →
    stepOk l.head.probe st = true → l.count ≤ l.next →
    let r : Revision := { l.head with steps := l.head.steps ++ [st] }
    let installs (e : Entry) (freed : Nat) (outcome : List Tok) : Prop := Completes (.recipeStep f) s (fun t =>
      entryFor t.lib.index l.number = some e ∧ t.lib.load = none ∧ t.lib.free = s.lib.free + freed ∧
      t.lib.reserved = s.lib.reserved - r.steps.length ∧
      t.host.inHand = some (.ok .recipeStep ([.num l.next, wd "INSTALLED", .num l.number, .num r.revision] ++ outcome)) ∧
      HandedOver s t (.recipe l.number r) ∧ t = { s with lib := t.lib, store := t.store, host := t.host })
    let refused (why : Reason) : Prop := Answered .recipeStep f s (.no (.verb .recipeStep) why []) { s with lib := { s.lib with
      load := none, free := s.lib.free + r.steps.length, reserved := s.lib.reserved - r.steps.length } }
    (entryFor s.lib.index l.number = none →
      installs { number := l.number, cur := r, pins := 0, retired := none, withdrawn := false } 0 [wd "NEW"]) ∧
    (∀ e, entryFor s.lib.index l.number = some e →
      (r.revision ≤ e.cur.revision → refused .stale) ∧
      (e.cur.revision < r.revision →
        (e.pins = 0 → installs { e with cur := r, withdrawn := false } e.cur.steps.length [wd "REPLACED"]) ∧
        (0 < e.pins → e.retired = none →
          installs { e with cur := r, pins := 0, retired := some { rev := e.cur, pins := e.pins }, withdrawn := false } 0
            [wd "RETIRED", .num e.cur.revision]) ∧
        (0 < e.pins → e.retired ≠ none → refused .busy)))) ∧
  (∀ s : State, Listening s →
    (∀ (w : Txt) (e : Entry), number w = some e.number → 1 ≤ e.number → e.number ≤ 999 → entryFor s.lib.index e.number = some e → e.withdrawn = false →
      (e.allPins = 0 → Completes (.recipeWithdraw [w]) s (fun t =>
        entryFor t.lib.index e.number = none ∧ t.lib.free = s.lib.free + e.size ∧
        t.host.inHand = some (.ok .recipeWithdraw [.num e.number, wd "REMOVED"]) ∧ t = { s with lib := t.lib, store := t.store, host := t.host })) ∧
      (0 < e.allPins → Completes (.recipeWithdraw [w]) s (fun t =>
        entryFor t.lib.index e.number = some { e with withdrawn := true } ∧
        t.host.inHand = some (.ok .recipeWithdraw [.num e.number, wd "PENDING", .num e.allPins])))) ∧
    (∀ (w1 w2 : Txt) (i : Fin 15) (n : Nat), number w1 = some (i.val + 1) → number w2 = some n → n ≤ 999 → Completes (.setQuick [w1, w2]) s (fun t =>
      t.lib = { s.lib with quick := s.lib.quick.set i n } ∧ HandedOver s t (.quick (s.lib.quick.set i n)) ∧
      t = { s with lib := t.lib, store := t.store, host := t.host } ∧ t.host.inHand = some (.ok .setQuick [.num (i.val + 1), .num n]))))

/-- R60, R61, R62, R51: an import starts on a VERIFIED RECIPES slot, reserves what its set needs or fails, takes its records one by one, each
installed as a new entry, over an unpinned revision or beside a pinned one, or skipped STALE or BUSY, and ends with its IMPORT-RESULT notice. That a
record out of range that also repeats a number is RANGE is the model's choice (assumption 38). -/
def Obligations.ImportsReserveAndInstall : Prop :=
  ∀ s : State,
    (∀ (w : Txt) (k : Fin 4), Listening s → NamesFour w k → s.dist.slots[k].header.state = .verified → s.dist.slots[k].header.kind = .recipes →
      s.lib.load = none → s.lib.job = none → Completes (.libraryImport [w]) s (fun t =>
        t.lib = { s.lib with job := some { slot := k, rest := none, installed := 0, stale := 0, busy := 0 } } ∧
        t.dist.slots[k] = { s.dist.slots[k] with users := s.dist.slots[k].users + 1 } ∧
        t.host.inHand = some (.ok .libraryImport [.num (k.val + 1)]))) ∧
    (∀ j : Import, s.phase ≠ .off → s.lib.job = some j → j.rest = none →
      let failed (fields : List Tok) (t : State) : Prop :=
        t.lib = { s.lib with job := none } ∧ t.store = s.store ∧ t.dist.slots[j.slot].users = s.dist.slots[j.slot].users - 1 ∧
        Tells s t .importResult (.num (j.slot.val + 1) :: wd "FAILED" :: fields)
      (∀ recs n, readSet (s.store.stagingBytes j.slot 0 s.dist.slots[j.slot].header.length) = .ok recs → reserveWalk s.lib 1 0 0 recs = .ok n →
        Completes .importValidation s (SameButSending { s with lib := { s.lib with
          free := s.lib.free - n, reserved := s.lib.reserved + n, job := some { j with rest := some recs } } })) ∧
      (∀ i why, readSet (s.store.stagingBytes j.slot 0 s.dist.slots[j.slot].header.length) = .error (i, why) →
        Completes .importValidation s (failed [.num i, wd why.word])) ∧
      (∀ recs i, readSet (s.store.stagingBytes j.slot 0 s.dist.slots[j.slot].header.length) = .ok recs → reserveWalk s.lib 1 0 0 recs = .error i →
        Completes .importValidation s (failed [.num i, wd "FULL"]))) ∧
    (∀ (j : Import) (r : BundleRecord) (rest : List BundleRecord), s.phase ≠ .off → s.lib.job = some j → j.rest = some (r :: rest) →
      let ends (t : State) (installed stale busy : Nat) : Prop :=
        t.lib.job = none ∧ t.lib.reserved = 0 ∧ t.dist.slots[j.slot].users = s.dist.slots[j.slot].users - 1 ∧
        Tells s t .importResult [.num (j.slot.val + 1), wd "DONE", .num installed, .num stale, .num busy]
      let installs (e : Entry) (freed : Nat) : Prop := Completes .importRecord s (fun t =>
        entryFor t.lib.index r.number = some e ∧ HandedOver s t (.recipe r.number r.rev) ∧
        (rest ≠ [] → t.lib.job = some { j with rest := some rest, installed := j.installed + 1 } ∧ t.lib.free = s.lib.free + freed ∧
          t.lib.reserved = s.lib.reserved - r.rev.steps.length) ∧
        (rest = [] → ends t (j.installed + 1) j.stale j.busy ∧
          t.lib.free = s.lib.free + freed + (s.lib.reserved - r.rev.steps.length)))
      let skips (stale busy : Nat) : Prop := Completes .importRecord s (fun t =>
        t.lib.index = s.lib.index ∧ t.store = s.store ∧
        (rest ≠ [] → t.lib = { s.lib with job := some { j with rest := some rest, stale := stale, busy := busy } }) ∧
        (rest = [] → ends t j.installed stale busy ∧ t.lib.free = s.lib.free + s.lib.reserved))
      (entryFor s.lib.index r.number = none →
        installs { number := r.number, cur := r.rev, pins := 0, retired := none, withdrawn := false } 0) ∧
      (∀ e, entryFor s.lib.index r.number = some e →
        (r.rev.revision ≤ e.cur.revision → skips (j.stale + 1) j.busy) ∧
        (e.cur.revision < r.rev.revision →
          (e.pins = 0 → installs { e with cur := r.rev, withdrawn := false } e.cur.steps.length) ∧
          (0 < e.pins → e.retired = none →
            installs { e with cur := r.rev, pins := 0, retired := some { rev := e.cur, pins := e.pins }, withdrawn := false } 0) ∧
          (0 < e.pins → e.retired ≠ none → skips j.stale (j.busy + 1)))))

/-! ## Run Engine -/

/-- R66, R68, R64, R65: an admitted run claims its bay, pins its revision, and waits for its step, or first for the oven's wake; the id it takes is
1-255 and held by no record of the table. The unit that the wake deadline is kept in is the model's choice (assumption 15). -/
def Obligations.RunStartAdmitsTheRun : Prop :=
  (∀ (s : State) (w1 w2 : Txt) (b : BayId) (n : Nat) (e : Entry), Listening s → NamesBay w1 b → number w2 = some n → 1 ≤ n → n ≤ 999 →
    runCheck s b n = .ok e → Completes (.runStart [w1, w2]) s (fun t =>
      t.reg[b].activity = .cook ∧ entryFor t.lib.index n = some { e with pins := e.pins + 1 } ∧
      (∃ r, t.runs.runs[b] = some r ∧ r.id = takeRunId s ∧ r.number = n ∧ r.rev = e.cur ∧ r.state = .starting ∧ r.stepIndex = 1 ∧
        r.accepted = false ∧ r.admitted = s.now / 1000 ∧ r.started = none ∧
        (s.reg[b].power = .standby → r.wakeDue = some (s.now / 1000 + 60)) ∧ (s.reg[b].power = .on → r.wakeDue = none)) ∧
      t.host.inHand = some (.ok .runStart [bayTok b, .num (takeRunId s), .num n, .num e.cur.revision,
        wd (if s.reg[b].power = .standby then "WAKING" else "ON")]))) ∧
  (∀ s : State, 1 ≤ s.runs.nextId → s.runs.nextId ≤ 255 →
    1 ≤ takeRunId s ∧ takeRunId s ≤ 255 ∧ ∀ (b : BayId) (r : Run), s.runs.runs[b] = some r → r.id ≠ takeRunId s)

/-- R68, R70, R71, R72, R73, R74, R75, R76, R77, R79, R80, R83, R85, R92, R58, R67, R111: what the Run Engine makes of a panel request, taken or
refused, of the acceptance of a STEP, of a status record of a bay with a run, and of the end of a step; with the notices that tell of it. A record
with the door CLOSED resumes a PAUSED run, and where that is RUNNING with its step accepted it is then used as any record of the resumed run. The
units that its deadlines are kept in are the model's choice (assumption 15); so is it that the Allocator is told of a panel request before it is
served (assumption 40). The order of what one record does to a run is its choice too (assumption 64), and so is it that what is still held of a run
that ends DONE stays ahead of the idle STEP (assumption 26). -/
def Obligations.RunsFollowTheirRecords : Prop :=
  (∀ (r : Run) (st : Step) (core : Option Int) (cabinet : Int) (now : Nat), stepOver r st core cabinet now = true ↔
    (∃ secs, st.fin = .time secs ∧ (st.kind = .preheat ∧ r.setpoint ≤ cabinet + 20 ∨ secs * 1000 ≤ r.elapsed.read now)) ∨
    (∃ target c, st.fin = .core target ∧ core = some c ∧ target ≤ c) ∨
    (∃ target base credit c, st.fin = .coreHold target base credit ∧ core = some c ∧ target ≤ c ∧ credit * 600 ≤ r.credit)) ∧
  (∀ (r : Run) (cabinet : Int) (sec : Nat),
    (r.state ≠ .starting → r.started.isSome = true →
      (r.setpoint + 300 < cabinet → r.runawaySince = none →
        runawayWatch cabinet sec r = { r with runawaySince := some sec, runawayDue := some (sec + 60) }) ∧
      (r.setpoint + 300 < cabinet → r.runawaySince ≠ none → runawayWatch cabinet sec r = r) ∧
      (cabinet ≤ r.setpoint + 300 → runawayWatch cabinet sec r = { r with runawaySince := none, runawayDue := none })) ∧
    (r.state = .starting ∨ r.started = none → runawayWatch cabinet sec r = r)) ∧
  (∀ (s : State) (b : BayId) (i : Fin 15),
    let t := servePanel b (i.val + 1) s
    t.heat.bays[b].idleRef = some (s.now / 1000) ∧
    (∀ reason, runCheck s b s.lib.quick[i] = .error reason →
      Tells s t .runEnd [bayTok b, .num 0, wd "REFUSED", wd reason.word, .num (i.val + 1)] ∧ t.runs = s.runs ∧ t.lib = s.lib ∧ t.reg = s.reg ∧
      (s.reg[b].state ≠ .empty → s.reg[b].state ≠ .settling → s.line.bays[b].queue.length < 5 →
        ∃ o ∈ t.line.bays[b].queue, o.body = .panelDeny reason)) ∧
    (∀ e, runCheck s b s.lib.quick[i] = .ok e →
      t.reg[b].activity = .cook ∧ entryFor t.lib.index e.number = some { e with pins := e.pins + 1 } ∧
      ∃ r, t.runs.runs[b] = some r ∧ r.id = takeRunId s ∧ r.number = s.lib.quick[i] ∧ r.rev = e.cur ∧ r.state = .starting ∧
        r.stepIndex = 1 ∧ r.accepted = false ∧ r.admitted = s.now / 1000 ∧
        (s.reg[b].power = .standby → r.wakeDue = some (s.now / 1000 + 60)) ∧ (s.reg[b].power = .on → r.wakeDue = none))) ∧
  ∀ (s : State) (b : BayId) (r : Run), s.runs.runs[b] = some r → r.state.final = false →
    let sec := s.now / 1000
    let tells (t : State) (event : String) (estimate : Option Nat) : Prop :=
      Tells s t .runStep [bayTok b, .num r.id, .num r.stepIndex, wd event, optNum estimate]
    let becomes (t : State) (st : RunState) (reason : RunReason) : Prop :=
      ∃ x, t.runs.runs[b] = some x ∧ x.state = st ∧ x.reason = reason ∧ x.ended = some sec ∧
        Tells s t .runEnd [bayTok b, .num r.id, wd st.word, wd reason.word, .num r.number, .num r.rev.revision, .num r.stepIndex, .num x.soilAdded]
    let goesOn (t : State) : Prop :=
      (r.stepIndex < r.rev.steps.length →
        ∃ x, t.runs.runs[b] = some x ∧ x.state = .running ∧ x.stepIndex = r.stepIndex + 1 ∧ x.accepted = false ∧ x.prompt = none) ∧
      (r.rev.steps.length ≤ r.stepIndex → becomes t .done .nothing)
    (∀ id, r.orderedId = some id → r.accepted = false →
      let t := acceptStep b id s
      (r.reorder = false → tells t "BEGIN" none ∧ ∃ x, t.runs.runs[b] = some x ∧ x.accepted = true ∧ x.credit = 0 ∧ x.rate = none ∧
        x.estimate = none ∧ x.coreReached = none ∧ x.probeLost = false ∧ x.runawayDue = none ∧ x.elapsed.read s.now = 0 ∧
        (r.state = .starting → x.state = .running) ∧ (r.state = .paused → x.state = .paused ∧ x.resume = .running) ∧
        (r.stepIndex = 1 → x.started = some sec)) ∧
      (r.reorder = true → ∃ x, t.runs.runs[b] = some x ∧ x.accepted = true ∧ x.reorder = false ∧ x.state = r.state ∧ x.credit = r.credit ∧
        x.stepIndex = r.stepIndex ∧ t.host = s.host)) ∧
    (∀ st : Step, r.step = some st → r.state = .running →
      let t := endStep b st s
      tells t "END" r.estimate ∧
      (st.prompt = true → tells t "PROMPT" r.estimate ∧
        ∃ x, t.runs.runs[b] = some x ∧ x.state = .prompting ∧ x.prompt = some (false, sec + 900) ∧ x.stepIndex = r.stepIndex) ∧
      (st.prompt = false → goesOn t)) ∧
    (∀ (st : Step) (points : List Int), effectiveCore points = none →
      let t := probeCall b st points s
      ∃ x, t.runs.runs[b] = some x ∧ x.estimate = none ∧ x.sample = none ∧ x.credit = r.credit ∧ x.rate = r.rate ∧
        ((∀ secs, st.fin ≠ .time secs) → x.probeLost = true ∧
          (r.probeLost = false → t.mon.bays[b].latches[EventKind.probeLost.slot].set = true))) ∧
    (∀ rep : Report,
      let t := runRecord b rep s
      let u := s.setRun b (runawayWatch rep.cabinet sec)
      (rep.power = .off → becomes t .aborted .powerOff) ∧
      (rep.power = .standby →
        let w := runStandby b r s
        t = runRecord b { rep with power := .on } w ∧ (r.wakeDue.isSome = true → w = s) ∧
        (r.wakeDue = none → w.runs.runs[b] = some { r with wakeDue := some (sec + 60) } ∧ Woken s w b)) ∧
      (rep.power = .on →
        (rep.doorOpen = true → (r.state = .starting ∨ r.state = .running) → tells t "PAUSE" r.estimate ∧
          ∃ x, t.runs.runs[b] = some x ∧ x.state = .paused ∧ x.resume = r.state ∧ x.pausedAt = sec ∧ x.accepted = r.accepted ∧
            ∀ n, x.elapsed.read n = r.elapsed.read s.now) ∧
        (rep.doorOpen = true → r.state = .prompting → ∃ x, t.runs.runs[b] = some x ∧ x.state = .prompting ∧
          x.prompt = r.prompt.map (fun p => (true, p.2))) ∧
        (rep.doorOpen = false → r.state = .prompting → r.accepted = true → rep.stepId = r.id → ∀ d, r.prompt = some (true, d) → goesOn t) ∧
        (rep.doorOpen = false → r.state = .paused → (r.resume ≠ .running ∨ r.accepted = false) → tells t "RESUME" r.estimate ∧
          ∃ x, t.runs.runs[b] = some x ∧ x.state = r.resume ∧ x.graceDue = none ∧
            x.pauseTotal = (match r.started with | some a => r.pauseTotal + (sec - max r.pausedAt a) | none => r.pauseTotal)) ∧
        (rep.doorOpen = false → r.state = .paused → r.resume = .running → r.accepted = true →
          let p := resumeRun b u
          tells t "RESUME" r.estimate ∧
          (∃ x, p.runs.runs[b] = some x ∧ x.state = .running ∧ x.accepted = true ∧ x.graceDue = none ∧ x.sample = none ∧ x.credit = r.credit ∧
            x.rate = r.rate ∧ x.stepIndex = r.stepIndex ∧ x.orderedId = r.orderedId ∧ x.elapsed = r.elapsed.start s.now ∧
            x.pauseTotal = (match r.started with | some a => r.pauseTotal + (sec - max r.pausedAt a) | none => r.pauseTotal)) ∧
          t = runRecord b rep p) ∧
        (rep.doorOpen = false → r.state = .running → r.accepted = false → t = u) ∧
        (rep.doorOpen = false → r.state = .running → r.accepted = true → ∀ st : Step, r.step = some st →
          (rep.stepId ≠ r.id → s.reg[b].state = .ready → s.line.bays[b].queue.length < 6 →
            (∃ o ∈ t.line.bays[b].queue, o.id = s.line.bays[b].nextId ∧ o.body = stepOrder r st r.setpoint) ∧
            ∃ x, t.runs.runs[b] = some x ∧ x.orderedId = some s.line.bays[b].nextId ∧ x.accepted = false ∧ x.reorder = true ∧
              x.state = .running ∧ x.stepIndex = r.stepIndex) ∧
          (rep.stepId = r.id →
            let v := if st.control = .delta ∨ st.fin.isTime = false then probeCall b st rep.cores u else u
            ∃ y, liveRun v b = some y ∧
              t = if stepOver y st (effectiveCore rep.cores) rep.cabinet s.now = true then endStep b st v else v))))

/-- R68, R73, R75, R77, R79, R81, R83, R74, R86: each deadline of a run, and RUN-ABORT, ends it ABORTED with its reason and its RUN-END notice;
PROMPT-DONE goes on to the next step or ends the run; RUN-CLEAR removes a final record. The units that these deadlines are kept in are the model's
choice (assumption 15). -/
def Obligations.RunDeadlinesAbortTheRun : Prop :=
  (∀ (s : State) (b : BayId) (r : Run), s.runs.runs[b] = some r → r.state.final = false →
    let ends (c : Instr) (reason : RunReason) : Prop := Completes c s (fun t =>
      ∃ x, t.runs.runs[b] = some x ∧ x.id = r.id ∧ x.state = .aborted ∧ x.reason = reason ∧ x.ended = some (s.now / 1000) ∧ x.maxDue = none ∧
        x.wakeDue = none ∧ x.graceDue = none ∧ x.prompt = none ∧ x.runawayDue = none ∧
        Tells s t .runEnd [bayTok b, .num r.id, wd "ABORTED", wd reason.word, .num r.number, .num r.rev.revision, .num r.stepIndex, .num x.soilAdded])
    (∀ w, Listening s → NamesBay w b → ends (.runAbort [w]) .host) ∧
    (∀ d, s.phase = .running → d ≤ s.now / 1000 →
      (r.wakeDue = some d → ends (.runWakeDeadlineExpiry b) .noWake) ∧
      (∀ seen, r.prompt = some (seen, d) → ends (.promptDeadlineExpiry b) .promptTimeout) ∧
      (r.graceDue = some d → ends (.runDoorGraceExpiry b) .doorTimeout) ∧
      (r.runawayDue = some d → ends (.runawayDeadlineExpiry b) .runaway)) ∧
    (∀ d, s.phase = .running → r.state = .running → r.maxDue = some d → d ≤ r.elapsed.read s.now →
      ends (.maximumTimeDeadlineExpiry b) .coreNotReached)) ∧
  (∀ (s : State) (w : Txt) (b : BayId) (r : Run), Listening s → NamesBay w b → s.runs.runs[b] = some r →
    (r.state = .prompting → r.stepIndex < r.rev.steps.length → Completes (.promptDone [w]) s (fun t =>
      (∃ x, t.runs.runs[b] = some x ∧ x.state = .running ∧ x.stepIndex = r.stepIndex + 1 ∧ x.prompt = none ∧
        x.accepted = false) ∧
      t.host.inHand = some (.ok .promptDone [bayTok b, .num r.id]))) ∧
    (r.state = .prompting → r.rev.steps.length ≤ r.stepIndex → Completes (.promptDone [w]) s (fun t =>
      (∃ x, t.runs.runs[b] = some x ∧ x.state = .done ∧ x.reason = .nothing ∧ x.ended = some (s.now / 1000)) ∧
      t.host.inHand = some (.ok .promptDone [bayTok b, .num r.id]))) ∧
    (r.state.final = true →
      Answered .runClear [w] s (.ok .runClear [bayTok b, .num r.id]) { s with runs := { s.runs with runs := s.runs.runs.set b none } }))

/-- R78: the door grace is clamped, stored, written and answered; 180 s at reset; it loads each new pause of a run or a cleaning, and a pause in
progress keeps its deadline. The unit that the deadline is kept in is the model's choice (assumption 15). -/
def Obligations.DoorGraceLoadsTheNextPause : Prop :=
  State.reset.runs.doorGrace = 180 ∧
  (∀ (s : State) (w : Txt) (n : Nat), Listening s → number w = some n →
    let v := if n < 30 then 30 else if 900 < n then 900 else n
    Completes (.setDoorGrace [w]) s (fun t =>
      t.runs = { s.runs with doorGrace := v } ∧ t.clean = s.clean ∧ HandedOver s t (.site s.heat.limit v s.heat.idleTime) ∧
      t = { s with runs := t.runs, store := t.store, host := t.host } ∧ t.host.inHand = some (.ok .setDoorGrace [.num v]))) ∧
  (∀ (s : State) (b : BayId) (rep : Report), rep.doorOpen = true → rep.power = .on →
    (∀ r, s.runs.runs[b] = some r →
      ((r.state = .starting ∨ r.state = .running) → ∃ x, (runRecord b rep s).runs.runs[b] = some x ∧ x.state = .paused ∧
        x.graceDue = some (s.now / 1000 + s.runs.doorGrace)) ∧
      (r.state = .paused → ∃ x, (runRecord b rep s).runs.runs[b] = some x ∧ x.state = .paused ∧ x.graceDue = r.graceDue)) ∧
    (∀ c, s.clean[b].record = some c → c.state.final = false → c.state ≠ .requested →
      (c.paused = false → ∃ x, (cleanRecord b rep s).clean[b].record = some x ∧ x.paused = true ∧
        x.graceDue = some (s.now / 1000 + s.runs.doorGrace)) ∧
      (c.paused = true → ∃ x, (cleanRecord b rep s).clean[b].record = some x ∧ x.paused = true ∧ x.graceDue = c.graceDue)))

/-- R19, R59, R66, R118, R116: the checks of a claim, of an admission and of a cleaning's start are made in their order, and the first that fails is the
reason of the refusal, which changes nothing; where none fails the run is admitted, or the cleaning may start. -/
def Obligations.ClaimsAreCheckedInTheirOrder : Prop :=
  ∀ (s : State) (w1 w2 : Txt) (b : BayId) (n : Nat) (p : Program), Listening s → NamesBay w1 b →
    let g := s.reg[b]
    let noRun (why : Reason) : Prop := number w2 = some n → 1 ≤ n → n ≤ 999 → Answered .runStart [w1, w2] s (.no (.verb .runStart) why []) s
    let noClean (why : Reason) : Prop := wordField [Program.rinse, .light, .medium, .strong] Program.word w2 = some (some p) →
      Answered .cleanStart [w1, w2] s (.no (.verb .cleanStart) why []) s
    (g.state ≠ .ready ∨ g.presence ≠ .present → noRun .state ∧ noClean .state) ∧
    (g.state = .ready → g.presence = .present →
      (g.power = .off → noRun .off ∧ noClean .off) ∧
      (g.power ≠ .off → s.mon.bays[b].hold ≠ .nothing → noRun .held ∧ noClean .held) ∧
      (g.power ≠ .off → s.mon.bays[b].hold = .nothing → g.activity ≠ .nothing → noRun .busy ∧ noClean .busy) ∧
      (g.power ≠ .off → s.mon.bays[b].hold = .nothing → g.activity = .nothing →
        (∀ v : Provision, g.commission.map Commission.prov = some v →
          let doses := match p with
            | .rinse => 0
            | .light => 1
            | .medium => if v.water = .hard then 3 else 2
            | .strong => if v.water = .hard then 4 else 3
          let short : Prop := p ≠ .rinse ∧ (v.detergent = false ∨ s.clean[b].hygiene.detergent < doses)
          (short → noClean .detergent) ∧ (¬ short → cleanCheck s b p = none)) ∧
        (s.clean[b].hygiene.rinseOwed = true ∨ 1250 ≤ s.clean[b].hygiene.soil → noRun .hygiene) ∧
        (s.clean[b].hygiene.rinseOwed = false → s.clean[b].hygiene.soil < 1250 →
          (entryFor s.lib.index n = none ∨ (∃ e, entryFor s.lib.index n = some e ∧ e.withdrawn = true) → noRun .absent) ∧
          (∀ (e : Entry) (i : Identity) (m : Commission), entryFor s.lib.index n = some e → e.withdrawn = false → g.identity = some i →
            g.commission = some m →
            let shown (v : MenuWindow) : Prop := v.base ≤ n ∧ n ≤ v.limit ∧ ¬ (v.base = 0 ∧ v.limit = 0)
            (¬ (shown m.win1 ∨ shown m.win2) → noRun .menu) ∧
            (shown m.win1 ∨ shown m.win2 →
              (i.firmware < e.cur.minFirmware → noRun .firmware) ∧
              (e.cur.minFirmware ≤ i.firmware → e.cur.probe = true → i.points = 0 → noRun .probe) ∧
              (e.cur.minFirmware ≤ i.firmware → (e.cur.probe = true → 1 ≤ i.points) → runCheck s b n = .ok e))))))

/-! ## Probe Arithmetic Unit -/

/-- R72, R88, R90, R91, R93, R94, R95, R96, R97, R98, R99, R84: the effective core is the lowest valid point; a DELTA setpoint is the core plus the
delta, clamped and rounded half up to a whole degree, and is sent where it differs by 1.0 °C or more; the credit grows only above the base, by the
truncated product, up to 1,000,000; a rate sample is the truncated quotient, clamped to 5000 either way, and the smoothed rate moves by an eighth of
the difference, truncated toward zero; the estimate is the larger of its parts, each the least whole number of seconds not below its quotient, at most
21,600 s. A call with a previous sample takes the interval since it, at least 200 and at most 10,000 ms, and with it the credit of a CORE_HOLD step
and the rate of a step that ends on the core; a call without one takes neither; and the first record at the core target is captured. The soil of a run
is its class factor times the cook minutes begun. That a setpoint counts as sent also where the queue is full is the model's choice (assumption 43).
-/
def Obligations.ProbeAndSoilArithmetic : Prop :=
  (∀ (l : List Int) (z : Int), effectiveCore l = some z ↔ (z ∈ l ∧ -200 ≤ z ∧ z ≤ 1300 ∧ ∀ y ∈ l, -200 ≤ y → y ≤ 1300 → z ≤ y)) ∧
  (∀ (credit dt : Nat) (core base : Int), credit ≤ 1000000 →
    (core < base → creditAfter credit core base dt = credit) ∧
    credit ≤ creditAfter credit core base dt ∧ creditAfter credit core base dt ≤ 1000000 ∧
    (base ≤ core → ∀ k : Nat, (k : Int) * 1000 ≤ (core - base) * dt → (core - base) * dt < (k + 1 : Int) * 1000 →
      creditAfter credit core base dt = min (credit + k) 1000000)) ∧
  (∀ (core prev q : Int) (dt : Nat), 0 < dt →
    let n := (core - prev) * 100000
    (0 ≤ n → q * dt ≤ n → n < (q + 1) * dt → rateSample core prev dt = min q 5000) ∧
    (n ≤ 0 → n ≤ q * dt → (q - 1) * dt < n → rateSample core prev dt = max q (-5000))) ∧
  (∀ (r x m : Int), smoothRate none x = x ∧
    (r ≤ x → 8 * m ≤ x - r → x - r < 8 * m + 8 → smoothRate (some r) x = r + m) ∧
    (x ≤ r → x - r ≤ 8 * m → 8 * m - 8 < x - r → smoothRate (some r) x = r + m)) ∧
  (∀ core delta target ceiling : Int, 300 ≤ min target ceiling →
    let c := min target ceiling / 10
    let x := deltaSetpoint core delta target ceiling
    300 ≤ x ∧ x ≤ c * 10 ∧ (core + delta ≤ 300 → x = 300) ∧ (c * 10 ≤ core + delta → x = c * 10) ∧
    (∀ k : Int, 300 ≤ core + delta → core + delta ≤ c * 10 → 10 * k ≤ core + delta + 5 → core + delta + 5 < 10 * k + 10 → x = 10 * k)) ∧
  (∀ (core target : Int) (rate : Option Int),
    (target ≤ core → corePart core target rate = some 0) ∧
    (core < target → (∀ r, rate = some r → r ≤ 0) → corePart core target rate = none) ∧
    (∀ (r : Int) (n : Nat), core < target → rate = some r → 0 < r → (target - core) * 100 ≤ n * r → n * r < (target - core) * 100 + r →
      corePart core target rate = some n)) ∧
  (∀ (core base : Int) (credit goal : Nat),
    (goal ≤ credit → holdPart core base credit goal = some 0) ∧
    (credit < goal → core ≤ base → holdPart core base credit goal = none) ∧
    (∀ n : Nat, credit < goal → base < core → (goal : Int) - credit ≤ n * (core - base) → n * (core - base) < goal - credit + (core - base) →
      holdPart core base credit goal = some n)) ∧
  (∀ (core target base : Int) (credit goal secs : Nat) (rate : Option Int),
    let x := corePart core target rate
    let y := holdPart core base credit (goal * 600)
    estimateOf (.time secs) core credit rate = none ∧
    (x = none → estimateOf (.core target) core credit rate = none) ∧
    (∀ m, x = some m → estimateOf (.core target) core credit rate = some (min m 21600)) ∧
    (x = none ∨ y = none → estimateOf (.coreHold target base goal) core credit rate = none) ∧
    (∀ m n, x = some m → y = some n → estimateOf (.coreHold target base goal) core credit rate = some (min (max m n) 21600))) ∧
  (∀ (s : State) (b : BayId) (r : Run) (st : Step) (points : List Int) (core : Int), s.runs.runs[b] = some r → effectiveCore points = some core →
    let t := probeCall b st points s
    let sp := deltaSetpoint core st.delta st.target (ceilingOf s b)
    ∃ x, t.runs.runs[b] = some x ∧ x.estimate = estimateOf st.fin core x.credit x.rate ∧ x.sample = some { core := core, time := s.now } ∧
      (r.sample = none → x.credit = r.credit ∧ x.rate = r.rate) ∧
      (∀ p, r.sample = some p →
        let gap := s.now - p.time
        let dt := if gap < 200 then 200 else if 10000 < gap then 10000 else gap
        x.credit = (match st.fin with | .coreHold _ base _ => creditAfter r.credit core base dt | _ => r.credit) ∧
        x.rate = (match st.fin with | .time _ => r.rate | _ => some (smoothRate r.rate (rateSample core p.core dt)))) ∧
      (r.coreReached ≠ none → x.coreReached = r.coreReached) ∧
      (r.coreReached = none → x.coreReached =
        (match st.fin with
         | .time _ => none
         | .core target | .coreHold target _ _ => if target ≤ core then some (s.now / 1000) else none)) ∧
      (st.control = .fixed → x.setpoint = r.setpoint ∧ t.line = s.line) ∧
      (st.control = .delta → (sp - r.setpoint).natAbs < 10 → x.setpoint = r.setpoint ∧ t.line = s.line) ∧
      (st.control = .delta → 10 ≤ (sp - r.setpoint).natAbs → x.setpoint = sp ∧
        (s.reg[b].state = .ready → s.line.bays[b].queue.length < 6 → ∃ o ∈ t.line.bays[b].queue, o.body = .setpoint sp))) ∧
  (∀ (r : Run) (a z m : Nat), r.ended = some z → (r.started = none → runSoil r = 0) ∧
    (r.started = some a → 60 * m < z - a - r.pauseTotal + 60 → z - a - r.pauseTotal ≤ 60 * m →
      (r.rev.soilClass = 0 → runSoil r = 0) ∧ (r.rev.soilClass = 1 → runSoil r = m) ∧ (r.rev.soilClass = 2 → runSoil r = 2 * m) ∧
      (r.rev.soilClass = 3 → runSoil r = 4 * m)))

/-! ## Heat Share Allocator -/

/-- R103, R102, R105: a recompute divides the whole budget over the classes in rank order, each taking its largest uniform share and then, one
sixteenth at a time, the leftover from its rotation pointer on; the sum over the bays of rated power times allowance is within the budget, a bay
outside the allocation has allowance 0, and no allowance is above 16; the allowance that differs from the sent value is sent. That it counts as sent
also where the queue is full is the model's choice (assumption 43). -/
def Obligations.RecomputeStaysWithinTheBudget : Prop :=
  ∀ s : State, let t := recompute s
    (∃ z1 z2 z3 z4 : Nat, ClassDivided s t .core (s.heat.limit * 16) z1 ∧ ClassDivided s t .cook z1 z2 ∧ ClassDivided s t .clean z2 z3 ∧
      ClassDivided s t .idle z3 z4) ∧
    (allBays.map (fun b => ratedOf s b * t.heat.bays[b].allowance)).sum ≤ s.heat.limit * 16 ∧
    t.reg = s.reg ∧ t.runs = s.runs ∧
    ∀ b : BayId, t.heat.bays[b].allowance ≤ 16 ∧ (heatClassOf s b = none → t.heat.bays[b].allowance = 0) ∧
      t.heat.bays[b].cls = heatClassOf s b ∧
      (s.heat.bays[b].sent = some t.heat.bays[b].allowance → t.line.bays[b] = s.line.bays[b]) ∧
      (s.reg[b].state ≠ .empty → s.reg[b].state ≠ .settling →
        t.heat.bays[b].sent = some t.heat.bays[b].allowance ∧
        (s.heat.bays[b].sent ≠ some t.heat.bays[b].allowance → s.line.bays[b].queue.length < 6 →
          ∃ o ∈ t.line.bays[b].queue, o.body = .heatAllow t.heat.bays[b].allowance))

/-- R101, R107, R106, R109: the site limit and the standby idle time are clamped, stored, written and answered, and the limit is followed by a
recompute; starvation is reported once for its stretch; an idle bay whose every standby condition holds is ordered into standby. The units that
these deadlines are kept in are the model's choice (assumption 15). -/
def Obligations.StarvationAndIdleDeadlinesAct : Prop :=
  (∀ (s : State) (w : Txt) (n : Nat), Listening s →
    (powerField w = some n →
      let v := if n < 50 then 50 else if 4000 < n then 4000 else n
      Answered .setLimit [w] s (.ok .setLimit [.tenths v])
        (recompute (storePut (.site v s.runs.doorGrace s.heat.idleTime) { s with heat := { s.heat with limit := v } }))) ∧
    (number w = some n →
      let v := if n < 5 then 5 else if 240 < n then 240 else n
      Completes (.setStandbyIdle [w]) s (fun t =>
        t.heat.idleTime = v ∧ t.heat.limit = s.heat.limit ∧ HandedOver s t (.site s.heat.limit s.runs.doorGrace v) ∧
        t.host.inHand = some (.ok .setStandbyIdle [.num v])))) ∧
  (∀ (s : State) (b : BayId) (d : Nat), s.phase = .running →
    (s.heat.bays[b].starveDue = some d → d ≤ s.now / 1000 → Completes (.starvationDeadlineExpiry b) s (fun t =>
      t.heat.bays[b] = { s.heat.bays[b] with starvedReported := true, starveDue := none } ∧
      t.mon.bays[b].latches[EventKind.starved.slot].set = true)) ∧
    (s.heat.bays[b].idleRef = some d → d + s.heat.idleTime * 60 ≤ s.now / 1000 → standbyFails s b = none →
      s.line.bays[b].queue = [] → Completes (.idleDeadlineExpiry b) s (fun t =>
        t.heat.bays[b].standbyRequested = true ∧ t.line.bays[b].queue.map Order.body = [.power true])))

/-- R111, R112: WAKE places a WAKE, or says why none was placed; it sets the idle reference. That it answers SENT, and clears standby requested,
also where the queue is full and the WAKE only held, is the model's choice (assumption 43). -/
def Obligations.WakeAnswersWhatItPlaced : Prop :=
  ∀ (s : State) (w : Txt) (n : Nat), Listening s → number w = some n →
    (n = 0 ∨ 12 < n → Answered .wake [w] s (.no (.verb .wake) .range []) s) ∧
    (∀ b : BayId, n = bayNo b →
      (s.reg[b].state ≠ .ready → Answered .wake [w] s (.no (.verb .wake) .state []) s) ∧
      (s.reg[b].state = .ready → Completes (.wake [w]) s (fun t =>
        t.heat.bays[b].idleRef = some (s.now / 1000) ∧
        (s.reg[b].power = .off → t.host.inHand = some (.ok .wake [bayTok b, wd "OFF"]) ∧ t.line = s.line) ∧
        (s.reg[b].power = .on → s.heat.bays[b].standbyRequested = false → t.host.inHand = some (.ok .wake [bayTok b, wd "ON"]) ∧ t.line = s.line) ∧
        ((s.reg[b].power = .standby ∨ s.reg[b].power = .on ∧ s.heat.bays[b].standbyRequested = true) →
          t.host.inHand = some (.ok .wake [bayTok b, wd "SENT"]) ∧ t.heat.bays[b].standbyRequested = false ∧
          (s.line.bays[b].queue.length < 6 → ∃ o ∈ t.line.bays[b].queue, o.body = .power false)))))

/-! ## Cleaning Sequencer -/

/-- R118, R119: a cleaning claims its bay; on a bay that is ON it cools first above 70.0 °C or enters its first phase, and on a bay in STANDBY it
waits for the wake. That a bay with no cabinet temperature enters its first phase is the model's choice (assumption 34). The unit that the wake
deadline is kept in is the model's choice (assumption 15). -/
def Obligations.CleanStartClaimsTheBay : Prop :=
  ∀ (s : State) (w1 w2 : Txt) (b : BayId) (p : Program), Listening s → NamesBay w1 b →
    wordField [Program.rinse, .light, .medium, .strong] Program.word w2 = some (some p) → cleanCheck s b p = none →
    Completes (.cleanStart [w1, w2]) s (fun t =>
      t.reg[b].activity = .clean ∧
      (∃ c, t.clean[b].record = some c ∧ c.program = p ∧ c.origin = .host ∧ c.started = s.now / 1000 ∧ c.accepted = false ∧ c.outcome = .nothing ∧
        (s.reg[b].power = .standby → c.state = .requested ∧ c.wakeDue = some (s.now / 1000 + 60)) ∧
        (s.reg[b].power = .on → (∃ z, s.clean[b].cabinet = some z ∧ 700 < z) → c.state = .cooling) ∧
        (s.reg[b].power = .on → (∀ z, s.clean[b].cabinet = some z → z ≤ 700) → c.state = (if p = .rinse then .rinsing else .washing))) ∧
      t.host.inHand = some (.ok .cleanStart [bayTok b, wd p.word, wd (if s.reg[b].power = .standby then "WAKING" else "ON")]))

/-- R111, R119, R120, R121, R123, R124, R125, R126, R127, R58: what the Cleaning Sequencer makes of the acceptance of a CLEAN-PHASE, of a dose counter, of a
status record of a bay with a cleaning, and of a refused panel rinse. That power OFF goes before a fault, and a fault before the end of the phase,
is the model's choice (assumption 44), and so is that a record in STANDBY asks for the WAKE before its other uses (assumption 72); what the doses seen read past 65,535 is a free value (assumption 11). That phase elapsed stays 0 in COOLING is its choice (assumption 56). The units that its times are kept in
are the model's choice (assumption 15). -/
def Obligations.CleaningsFollowTheirRecords : Prop :=
  (∀ (s : State) (b : BayId) (counter : Nat),
    let t := takeDoses b counter s
    let h := s.clean[b].hygiene
    t.clean[b].baseline = some counter ∧
    (s.clean[b].baseline = none → t.clean[b].hygiene = h ∧ t.clean[b].record = s.clean[b].record ∧ t.store = s.store) ∧
    (∀ old, s.clean[b].baseline = some old → old ≤ 65535 → counter ≤ 65535 →
      let g := if old ≤ counter then counter - old else 65536 + counter - old
      (g = 0 → t = s) ∧
      (0 < g → t.clean[b].hygiene = { h with detergent := h.detergent - g, rinseOwed := true } ∧ HandedOver s t (.hygiene b t.clean[b].hygiene) ∧
        (∀ c, s.clean[b].record = some c → c.state.final = false → ∃ x, t.clean[b].record = some x ∧ x.state = c.state ∧
          (c.dosesSeen + g ≤ 65535 → x.dosesSeen = c.dosesSeen + g) ∧ x.dispensed = (c.dispensed || decide (c.state = .washing)))))) ∧
  (∀ (s : State) (b : BayId) (reason : Reason), cleanCheck s b .rinse = some reason →
    let t := servePanel b 0 s
    Tells s t .cleanEnd [bayTok b, wd "REFUSED", wd reason.word, .num 0] ∧
    (s.reg[b].state = .ready → s.line.bays[b].queue.length < 5 → ∃ o ∈ t.line.bays[b].queue, o.body = .panelDeny reason)) ∧
  (∀ (s : State) (b : BayId), cleanCheck s b .rinse = none →
    let t := servePanel b 0 s
    t.reg[b].activity = .clean ∧ ∃ c, t.clean[b].record = some c ∧ c.program = .rinse ∧ c.origin = .panel ∧ c.started = s.now / 1000) ∧
  ∀ (s : State) (b : BayId) (c : CleanRec), s.clean[b].record = some c → c.state.final = false → s.clean[b].pendingWindow = none →
    let sec := s.now / 1000
    let becomes (t : State) (st : CleanState) (o : CleanOutcome) (reason : CleanReason) : Prop :=
      (∃ x, t.clean[b].record = some x ∧ x.state = st ∧ x.outcome = o ∧ x.reason = reason ∧ x.ended = some sec) ∧
      Tells s t .cleanEnd [bayTok b, wd st.word, wd reason.word, wd c.program.word, wd o.word, .num t.clean[b].hygiene.soil,
        .yn t.clean[b].hygiene.rinseOwed]
    (∀ id, c.orderedId = some id → c.accepted = false → (acceptPhase b id s).clean[b].record =
      some { c with accepted := true, phaseTime := if c.state.isPhase && !c.paused then c.phaseTime.start s.now else c.phaseTime }) ∧
    (∀ rep : Report, s.clean[b].baseline = some rep.dose →
      let t := cleanRecord b rep s
      let enters (st : CleanState) : Prop := ∃ x, t.clean[b].record = some x ∧ x.state = st ∧ x.accepted = false ∧ x.complete = false
      (rep.power = .off →
        (c.state = .requested → c.wakeDue.isSome = true → becomes t .failed .nothing .noWake ∧
          t.mon.bays[b].latches[EventKind.cleanFailed.slot].set = true) ∧
        (c.state ≠ .requested → becomes t .interrupted .nothing .powerOff)) ∧
      (rep.power ≠ .off → c.state = .requested → t = s) ∧
      (rep.power = .standby → c.state ≠ .requested →
        let w := wakeCause b s
        t = cleanRecord b { rep with power := .on } w ∧ w.clean = s.clean ∧ Woken s w b) ∧
      (rep.power = .on → c.state = .washing → rep.fault ≠ 0 →
        enters .rinsing ∧ (∃ x, t.clean[b].record = some x ∧ x.forced = some (.failed, .doseFailure)) ∧
        t.mon.bays[b].latches[EventKind.cleanFailed.slot].set = true) ∧
      (rep.power = .on → c.state ≠ .requested → (c.state = .washing → rep.fault = 0) →
        (rep.doorOpen = true → c.paused = false → ∃ x, t.clean[b].record = some x ∧ x.state = c.state ∧ x.paused = true ∧
          ∀ n, x.phaseTime.read n = c.phaseTime.read s.now ∧ x.coolTime.read n = c.coolTime.read s.now) ∧
        (rep.doorOpen = false → c.paused = true → c.state.isPhase = true → c.complete = false → rep.complete = false →
          t.clean[b].record = some (c.unpause s.now)) ∧
        (rep.doorOpen = false → c.paused = false →
          (c.state = .cooling → c.accepted = true → rep.cabinet ≤ 700 → enters (if c.program = .rinse then .rinsing else .washing)) ∧
          (c.state = .cooling → (c.accepted = false ∨ 700 < rep.cabinet) → t = s) ∧
          (c.state.isPhase = true → c.accepted = true → c.duration ≤ c.phaseTime.read s.now → rep.complete = true →
            (c.state = .washing → enters .rinsing) ∧
            (c.state = .rinsing → enters .drying ∧ t.clean[b].hygiene.rinseOwed = false) ∧
            (c.state = .drying → becomes t .done ((c.forced.map Prod.fst).getD .complete) ((c.forced.map Prod.snd).getD .nothing))) ∧
          (c.state.isPhase = true → c.phaseTime.read s.now < c.duration → c.accepted = true → rep.complete = true →
            t.clean[b].record = some { c with complete := true }))))

/-- R116, R121, R122, R125: a phase whose duration, by the table of the programs, has run out ends where the oven reports it complete, and the next
one's CLEAN-PHASE is ordered; the end of a rinse lowers the soil by 400 for LIGHT, by 800 for MEDIUM and to 0 for STRONG, each stopping at 0, unless
the rinse was forced. A phase not reported complete has ten minutes more, after which the cleaning acts by its state. The units that these times are
kept in are the model's choice (assumption 15). -/
def Obligations.PhasesEndOrOverrun : Prop :=
  ∀ (s : State) (b : BayId) (c : CleanRec), s.phase = .running → s.clean[b].record = some c → s.clean[b].pendingWindow = none →
    let wash : Nat := match c.program with | .rinse => 0 | .light => 25 | .medium => 45 | .strong => 75
    let rinse : Nat := match c.program with | .rinse => 12 | .light => 15 | .medium => 20 | .strong => 25
    let dry : Nat := match c.program with | .rinse => 3 | .light => 8 | .medium => 10 | .strong => 12
    let minutes : Nat := match c.state with | .washing => wash | .rinsing => rinse | .drying => dry | _ => 0
    let soil := s.clean[b].hygiene.soil
    let ordered (t : State) (k : PhaseKind) (m : Nat) : Prop :=
      s.reg[b].state = .ready → s.line.bays[b].held = [] → s.line.bays[b].queue.length < 6 →
        ∃ o ∈ t.line.bays[b].queue, o.body = .cleanPhase k (60 * m) 0
    (c.state.isPhase = true → c.accepted = true → c.paused = false → c.overrunAt = none → minutes * 60000 ≤ c.phaseTime.read s.now →
      (c.complete = false → Completes (.phaseDurationEnd b) s (fun t =>
        t.clean[b].record = some { c with overrunAt := some (minutes * 60000 + 600000) } ∧ t = { s with clean := t.clean, host := t.host })) ∧
      (c.complete = true → c.state = .washing → Completes (.phaseDurationEnd b) s (fun t =>
        (∃ x, t.clean[b].record = some x ∧ x.state = .rinsing ∧ x.accepted = false ∧ x.complete = false) ∧ ordered t .rinse rinse)) ∧
      (c.complete = true → c.state = .rinsing → Completes (.phaseDurationEnd b) s (fun t =>
        t.clean[b].hygiene.rinseOwed = false ∧ (∃ x, t.clean[b].record = some x ∧ x.state = .drying) ∧ ordered t .dry dry ∧
        (c.forced ≠ none → t.clean[b].hygiene.soil = soil) ∧
        (c.forced = none → t.clean[b].hygiene.soil =
          (match c.program with | .rinse => soil | .light => soil - 400 | .medium => soil - 800 | .strong => 0)))) ∧
      (c.complete = true → c.state = .drying → Completes (.phaseDurationEnd b) s (fun t =>
        let o : CleanOutcome := (c.forced.map Prod.fst).getD .complete
        let why : CleanReason := (c.forced.map Prod.snd).getD .nothing
        (∃ x, t.clean[b].record = some x ∧ x.program = c.program ∧ x.state = .done ∧ x.outcome = o ∧ x.reason = why ∧ x.ended = some (s.now / 1000)) ∧
        t.clean[b].hygiene = s.clean[b].hygiene ∧
        Tells s t .cleanEnd [bayTok b, wd "DONE", wd why.word, wd c.program.word, wd o.word, .num s.clean[b].hygiene.soil,
          .yn s.clean[b].hygiene.rinseOwed]))) ∧
    (∀ d, c.overrunAt = some d → d ≤ c.phaseTime.read s.now →
      (c.state = .washing → Completes (.overrunDeadlineExpiry b) s (fun t =>
        ∃ x, t.clean[b].record = some x ∧ x.state = .rinsing ∧ x.forced = some (.failed, .phaseTimeout))) ∧
      (c.state = .rinsing → Completes (.overrunDeadlineExpiry b) s (fun t =>
        ∃ x, t.clean[b].record = some x ∧ x.state = .interrupted ∧ x.reason = .phaseTimeout)) ∧
      (c.state = .drying → Completes (.overrunDeadlineExpiry b) s (fun t =>
        ∃ x, t.clean[b].record = some x ∧ x.state = .done ∧ x.outcome = .failed ∧ x.reason = .phaseTimeout)))

/-- R119, R120, R126, R128, R129: the other ends of a cleaning on a bay with no window cleaning pending, with their CLEAN-END notice, and what
CLEAN-ABORT does in each state. The units that these deadlines are kept in are the model's choice (assumption 15). -/
def Obligations.CleaningsEndWithTheirReason : Prop :=
  ∀ (s : State) (b : BayId) (c : CleanRec), s.clean[b].record = some c → c.state.final = false → s.clean[b].pendingWindow = none →
    let ends (i : Instr) (st : CleanState) (reason : CleanReason) : Prop := Completes i s (fun t =>
      (∃ x, t.clean[b].record = some x ∧ x.state = st ∧ x.reason = reason ∧ x.ended = some (s.now / 1000) ∧ x.program = c.program) ∧
      Tells s t .cleanEnd [bayTok b, wd st.word, wd reason.word, wd c.program.word, wd "NONE", .num s.clean[b].hygiene.soil,
        .yn s.clean[b].hygiene.rinseOwed])
    (s.phase = .running → ∀ d, c.wakeDue = some d → d ≤ s.now / 1000 → ends (.cleanWakeDeadlineExpiry b) .failed .noWake) ∧
    (s.phase = .running → c.state = .cooling → 1800000 ≤ c.coolTime.read s.now → ends (.coolingDeadlineExpiry b) .failed .coolTimeout) ∧
    (s.phase = .running → ∀ d, c.graceDue = some d → d ≤ s.now / 1000 → ends (.cleanDoorGraceExpiry b) .interrupted .doorTimeout) ∧
    (∀ w, Listening s → NamesBay w b →
      ((c.state = .requested ∨ c.state = .cooling) → ends (.cleanAbort [w]) .cancelled .host) ∧
      ((c.state = .rinsing ∨ c.state = .drying) → ends (.cleanAbort [w]) .interrupted .host) ∧
      (c.state = .washing → Completes (.cleanAbort [w]) s (fun t =>
        (∃ x, t.clean[b].record = some x ∧ x.state = .rinsing ∧ x.forced = some (.aborted, .host)) ∧
        t.host.inHand = some (.ok .cleanAbort [bayTok b, wd "RINSING"]))))

/-- R18, R20, R68, R119, R133, R174, R108: a change to ON orders the first step of a run that waits for it, and takes a cleaning that waits for it out of
REQUESTED; a change to ON, and a release, hand the bay first to the transfers, the lowest of whose channels that can claims it, and then to a window
cleaning that waits, which is dropped below its threshold, starts where its checks pass, and waits on otherwise. At a change to ON a later channel that
finds the bay claimed defers its entry (R174); at a release, what finds the bay BUSY stays as it was (R20), which is how the model reads R20 beside R174
(assumption 36). That a bay with no cabinet temperature enters its first phase is the
model's choice (assumption 34), and so is the standing of the idle reference after a release in a teardown (assumption 49). -/
def Obligations.PowerOnAndReleasesAreHandedOn : Prop :=
  ∀ (s : State) (b : BayId),
    let on := takePower b .on s
    let freed := handOn .now b s
    let waits (c : Fin 4) : Prop := s.dist.channels[c].progress[b] = .pending ∨ s.dist.channels[c].progress[b] = .deferred
    let due (p : PendingClean) : Prop := s.clean[b].pendingWindow = some p ∧ p.threshold ≤ s.clean[b].hygiene.soil
    let starts (p : PendingClean) (t : State) : Prop := t.reg[b].activity = .clean ∧ t.clean[b].pendingWindow = none ∧
      ∃ c, t.clean[b].record = some c ∧ c.program = p.program ∧ c.origin = .window p.entry ∧ c.started = s.now / 1000
    let claimed (c : Fin 4) (t : State) : Prop := t.dist.channels[c].current = some b ∧ t.dist.channels[c].progress[b] = .transferring ∧
      t.reg[b].activity = .update ∧ (∀ p, due p → t.clean[b].pendingWindow = some p)
    let fits (c : Fin 4) : Prop := s.reg[b].identity.map Identity.model = some s.dist.slots[s.dist.channels[c].slot].header.target
    let tries (c : Fin 4) : Prop :=
      let x := s.dist.channels[c]
      x.state = .running ∧ x.current = none ∧ x.masked = false ∧ waits c ∧ (x.windowRequired = false ∨ covered s .update b = true) ∧
      fits c ∧ ∀ d : BayId, d ≠ b → x.progress[d] ≠ .pending ∧ x.progress[d] ≠ .deferred
    let claimable (c : Fin 4) : Prop := tries c ∧ ∀ e : Fin 4, e < c → ¬ waits e
    let asBefore (e : Fin 4) (t : State) : Prop := t.dist.channels[e].progress[b] = s.dist.channels[e].progress[b]
    let free : Prop := s.reg[b].state = .ready ∧ s.mon.bays[b].hold = .nothing ∧ s.reg[b].activity = .nothing
    freed.heat.bays[b].idleRef = some (s.now / 1000) ∧
    (∀ c, claimable c → free → s.reg[b].power = .on → claimed c freed ∧ ∀ e : Fin 4, c < e → fits e → asBefore e freed) ∧
    (s.reg[b].state = .ready → s.mon.bays[b].hold = .nothing → s.reg[b].power ≠ .off → s.reg[b].activity ≠ .nothing →
      (∀ c, fits c → asBefore c freed) ∧ ∀ p, due p → freed.clean[b].pendingWindow = some p) ∧
    (∀ p, due p → free → (∀ c, ¬ waits c) → cleanCheck s b p.program = none → starts p freed) ∧
    (s.reg[b].power = .on → on = s) ∧
    (s.reg[b].power ≠ .on →
      on.reg[b].power = .on ∧ on.heat.bays[b].idleRef = some (s.now / 1000) ∧ on.heat.bays[b].standbyRequested = false ∧
      (∀ (r : Run) (st : Step), s.reg[b].activity = .cook → s.runs.runs[b] = some r → r.state.final = false →
        (∃ z, on.runs.runs[b] = some z ∧ z.wakeDue = none ∧ z.state = r.state) ∧
        (r.step = some st → r.stepIndex = 1 → r.orderedId = none → r.state = .starting → s.reg[b].state = .ready → s.line.bays[b].held = [] →
          s.line.bays[b].queue.length < 5 →
          ∃ o ∈ on.line.bays[b].queue, o.body = stepOrder r st (stepSetpoint s b st r.latestCore) ∧
            ∃ z, on.runs.runs[b] = some z ∧ z.orderedId = some o.id ∧ z.accepted = false)) ∧
      (∀ c : CleanRec, s.reg[b].activity = .clean → s.clean[b].record = some c → c.state = .requested →
        (c.wakeDue = none → on.clean[b].record = some c) ∧
        (c.wakeDue.isSome = true → ∃ z, on.clean[b].record = some z ∧ z.wakeDue = none ∧ z.accepted = false ∧
          ((∃ m, s.clean[b].cabinet = some m ∧ 700 < m) → z.state = .cooling) ∧
          (∀ m, s.clean[b].cabinet = some m → m ≤ 700 → z.state = (if c.program = .rinse then .rinsing else .washing)))) ∧
      (∀ c, claimable c → free → claimed c on ∧ ∀ e : Fin 4, c < e → tries e → on.dist.channels[e].progress[b] = .deferred) ∧
      (∀ p, due p → free → s.reg[b].presence = .present → (∀ c, ¬ waits c) → cleanCheck on b p.program ≠ some .detergent → starts p on)) ∧
    (∀ p, s.clean[b].pendingWindow = some p →
      (s.clean[b].hygiene.soil < p.threshold →
        retryPending b s = s.setClean b (fun x => { x with pendingWindow := none })) ∧
      (p.threshold ≤ s.clean[b].hygiene.soil → cleanCheck s b p.program ≠ none → retryPending b s = s)) ∧
    (s.clean[b].pendingWindow = none → retryPending b s = s)

/-- R130, R131: SET-DETERGENT sets the level, writes the hygiene record and reports the bay's conditions. -/
def Obligations.SetDetergentSetsTheLevel : Prop :=
  ∀ (s : State) (w1 w2 : Txt) (b : BayId) (n : Nat), Listening s → NamesBay w1 b → number w2 = some n →
    (n ≤ 250 → Completes (.setDetergent [w1, w2]) s (fun t =>
      t.clean[b] = { s.clean[b] with hygiene := { s.clean[b].hygiene with detergent := n } } ∧
      HandedOver s t (.hygiene b { s.clean[b].hygiene with detergent := n }) ∧
      condition t b .detergentLow = decide (n ≤ 6) ∧ condition t b .rinseOwed = s.clean[b].hygiene.rinseOwed ∧
      condition t b .cleanDue = decide (1000 ≤ s.clean[b].hygiene.soil) ∧
      (∀ d : BayId, d ≠ b → t.clean[d] = s.clean[d]) ∧ t = { s with clean := t.clean, mon := t.mon, store := t.store, host := t.host } ∧
      t.host.inHand = some (.ok .setDetergent [bayTok b, .num n]))) ∧
    (250 < n → Answered .setDetergent [w1, w2] s (.no (.verb .setDetergent) .range []) s)

/-! ## Site Clock and Schedule Table -/

/-- R135, R136, R138: an update, a command of its own (assumption 1), carries the calendar on by one second; SET-CLOCK and SET-DST set the calendar
and the rule; a roll keeps the fields in range and the weekday in step with the date, and the last second of 2099 clears the clock. -/
def Obligations.ClockIsUpdatedAndSet : Prop :=
  (∀ c : Calendar, calendarOk c = true →
    let seconds (x : Calendar) : Nat := ((dayNumber x.year x.month x.day * 24 + x.hour) * 60 + x.minute) * 60 + x.second
    (∀ d, c.next = some d → calendarOk d = true ∧ seconds d = seconds c + 1) ∧
    (c.next = none ↔ c.year = 2099 ∧ c.month = 12 ∧ c.day = 31 ∧ c.hour = 23 ∧ c.minute = 59 ∧ c.second = 59)) ∧
  (∀ b : Backup, b.cal.next = none → b.update.cal = .initial ∧ b.update.valid = false ∧ b.update.inDst = false ∧ b.update.secondPass = false) ∧
  ∀ s : State,
    Completes .clockUpdate s (fun t => t.clock = s.clock.update ∧ (s.clock.update.cal.second ≠ 0 → t = { s with clock := t.clock, host := t.host })) ∧
    (∀ (f : List Txt) (c : Calendar) (dst : Bool), Listening s → parseClock f = some (c, some dst) → calendarOk c = true →
      Completes (.setClock f) s (fun t =>
        t.clock = { s.clock with cal := c, inDst := dst, secondPass := false, valid := true, divider := 0 } ∧ t.now = s.now ∧
        t.host.inHand = some (.ok .setClock (calendarToks c ++ [.yn dst])))) ∧
    (∀ (f : List Txt) (r : DstRule), Listening s → parseDst f = some (some r) → dstOk r = true → Completes (.setDst f) s (fun t =>
      t.clock.rule = r ∧ t.clock.cal = s.clock.cal ∧ (r.enabled = false → t.clock.inDst = false ∧ t.clock.secondPass = false) ∧
      HandedOver s t (.dst r) ∧ t.host.inHand = some (.ok .setDst (dstToks r))))

/-- R139, R140: the start transition is made by the update that would reach the start hour, and by no other update; the end transition by the update
that would reach the end hour in daylight time, once: the hour is then passed a second time, and the second pass ends when it is over. That an update
which begins daylight time while the second pass runs leaves that pass set is the model's choice (assumption 54). -/
def Obligations.DstStartSkipsAnHour : Prop :=
  ∀ (b : Backup) (c : Calendar), b.cal.next = some c →
    let at_ (month nth hour : Nat) : Prop :=
      c.month = month ∧ c.weekday = 7 ∧ c.hour = hour ∧ c.minute = 0 ∧ c.second = 0 ∧
      (if nth = 5 then daysIn c.year c.month < c.day + 7 else (c.day - 1) / 7 + 1 = nth)
    let starts : Prop := at_ b.rule.startMonth b.rule.startNth b.rule.startHour ∧ b.rule.enabled = true ∧ b.inDst = false ∧ b.valid = true
    let ends : Prop := at_ b.rule.endMonth b.rule.endNth b.rule.endHour ∧ b.rule.enabled = true ∧ b.inDst = true ∧ b.secondPass = false ∧
      b.valid = true
    (starts → b.update = { b with cal := { c with hour := c.hour + 1 }, inDst := true, divider := 0 }) ∧
    (ends → b.update = { b with cal := { c with hour := c.hour - 1 }, inDst := false, secondPass := true, divider := 0 }) ∧
    (¬ starts → ¬ ends →
      b.update.cal = c ∧ b.update.inDst = b.inDst ∧ b.update.valid = b.valid ∧ b.update.rule = b.rule ∧
      b.update.secondPass = (b.secondPass && !(decide (c.hour = b.rule.endHour) && decide (c.minute = 0) && decide (c.second = 0))))

/-- R135, R142, R144, R145, R146, R110, R132, R133, R175: an entry is rewritten, its open window closed first; a window whose close deadline has come
is closed; at a minute boundary the enabled entries that name the time open their windows, with their effects, and the look-ahead runs; each opening
and closing has its notice, and a closing acts, by its kind, on the bays no longer covered. The order in which windows open is the model's reading
(assumption 30); what a window makes of a bay HELD or short of detergent that waits already is its choice (assumption 53); the look-ahead ends with
2099 (assumption 45); at the closing of a CLEAN window the missed cleaning is reported before standby is examined, the lower bay first (assumption
58). The unit of a close deadline is assumption 15. Of several bays and channels that an UPDATE closing touches the lower acts first (assumption 67).
-/
def Obligations.ScheduleEntriesAndWindows : Prop :=
  (∀ (e : SchedEntry) (c : Calendar), e.names c = true ↔
    (e.weekday = none ∨ e.weekday = some c.weekday) ∧ (e.hour = none ∨ e.hour = some c.hour) ∧ (e.minute = none ∨ e.minute = some c.minute)) ∧
  ∀ s : State,
    (∀ (f : List Txt) (w : Nat) (n : Fin 24) (e : SchedEntry), Listening s → parseSchedule f = some (w, some e) → w = n.val + 1 → entryOk e = true →
      Completes (.scheduleSet f) s (fun t =>
        t.sched.entries = s.sched.entries.set n (some e) ∧ windowOpen t n = false ∧
        (∀ x, windowOf s n = some x → Tells s t .windowClose [.num w, wd x.kind.word, wd "REWRITTEN"]) ∧
        t.host.inHand = some (.ok .scheduleSet (.num w :: if windowOpen s n then [wd "CLOSED"] else [])))) ∧
    (∀ (n : Fin 24) (x : OpenWindow), s.phase ≠ .off → windowOf s n = some x → x.closes ≤ s.now / 1000 → Completes (.closeDeadlineExpiry n) s (fun t =>
      t.sched = { s.sched with windows := s.sched.windows.filter (fun y => y.entry ≠ n) } ∧
      Tells s t .windowClose [.num (n.val + 1), wd x.kind.word, wd "EXPIRED"])) ∧
    (s.phase = .running → s.clock.update.cal.second = 0 →
      Completes .clockUpdate s (SameButSending (lookAheadAll (matchBoundary { s with clock := s.clock.update })))) ∧
    (matchBoundary s = if s.clock.valid = true ∧ s.clock.secondPass = false then s.each (List.finRange 24) (matchEntry s.clock.cal) else s) ∧
    (∀ (n : Fin 24) (c : Calendar),
      (∀ e, s.sched.entries[n] = some e → e.enabled = true → windowOpen s n = false → e.names c = true → matchEntry c n s = openWindow n e s) ∧
      ((∀ e, s.sched.entries[n] = some e → e.enabled = false ∨ windowOpen s n = true ∨ e.names c = false) → matchEntry c n s = s)) ∧
    (∀ (n : Fin 24) (e : SchedEntry),
      let t := openWindow n e s
      let closes := s.now / 1000 + e.duration * 60
      let w : OpenWindow := ⟨n, e.kind, e.mask, e.program, e.threshold, s.now / 1000, closes⟩
      t.sched = { s.sched with windows := s.sched.windows ++ [w] } ∧
      Tells s t .windowOpen [.num (n.val + 1), wd e.kind.word, .num closes] ∧
      (e.kind ≠ .update → ∀ b ∈ e.mask, t.heat.bays[b].idleRef = some (s.now / 1000))) ∧
    (∀ (n : Fin 24) (cause : String),
      (windowOf s n = none → closeEntryWindow n cause s = s) ∧
      (∀ x, windowOf s n = some x →
        let t := queueNotice .windowClose [.num (n.val + 1), wd x.kind.word, wd cause]
          { s with sched := { s.sched with windows := s.sched.windows.filter (fun y => y.entry ≠ n) } }
        closeEntryWindow n cause s = t.each (x.mask.filter (fun b => !covered t x.kind b)) (closeEffect x.kind))) ∧
    (∀ b : BayId,
      let t := closeEffect .clean b s
      (s.clean[b].pendingWindow = none → t.clean = s.clean) ∧
      (s.clean[b].pendingWindow ≠ none → t.clean[b] = { s.clean[b] with pendingWindow := none } ∧
        t.mon.bays[b].latches[EventKind.cleanWindowMissed.slot].set = true)) ∧
    (∀ b : BayId,
      let t := closeEffect .update b s
      ∀ c : Fin 4,
        let x := s.dist.channels[c]
        (x.state = .running → x.windowRequired = true → (x.progress[b] = .pending ∨ x.progress[b] = .deferred) →
          t.dist.channels[c].progress[b] = .missed ∧ Tells s t .transfer [.num (c.val + 1), bayTok b, wd "MISSED", wd "NONE"]) ∧
        (¬ (x.state = .running ∧ x.windowRequired = true ∧ (x.progress[b] = .pending ∨ x.progress[b] = .deferred)) →
          t.dist.channels[c] = x) ∧
        ∀ d : BayId, d ≠ b → t.dist.channels[c].progress[d] = x.progress[d]) ∧
    (∀ b : BayId, closeEffect .prestart b s = examineStandby b s) ∧
    (∀ (n : Fin 24) (p : Program) (threshold : Nat) (b : BayId),
      let t := windowClean n p threshold b s
      (s.clean[b].hygiene.soil < threshold → t = s) ∧
      (threshold ≤ s.clean[b].hygiene.soil →
        (cleanCheck s b p = none → t.reg[b].activity = .clean ∧ ∃ c, t.clean[b].record = some c ∧ c.program = p ∧ c.origin = .window n) ∧
        (cleanCheck s b p = some .busy → s.clean[b].pendingWindow = none →
          t = s.setClean b (fun c => { c with pendingWindow := some { program := p, entry := n, threshold := threshold } })) ∧
        (∀ old, cleanCheck s b p = some .busy → s.clean[b].pendingWindow = some old → t = s.setClean b (fun c =>
          { c with pendingWindow := some (if old.program.rank < p.rank then { program := p, entry := n, threshold := threshold } else old) })) ∧
        (cleanCheck s b p = some .held ∨ cleanCheck s b p = some .detergent →
          t.mon.bays[b].latches[EventKind.cleanWindowMissed.slot].set = true ∧ t.clean = s.clean) ∧
        (cleanCheck s b p = some .state ∨ cleanCheck s b p = some .off → t = s))) ∧
    (∀ b : BayId,
      let t := lookAhead b s
      t.heat.bays[b].due = dueEntries s b ∧
      ((∃ n ∈ dueEntries s b, n ∉ s.heat.bays[b].due) → t.heat.bays[b].idleRef = some (s.now / 1000)) ∧
      (∀ n : Fin 24, n ∈ dueEntries s b ↔ s.clock.valid = true ∧ windowOpen s n = false ∧ ∃ e, s.sched.entries[n] = some e ∧
        e.enabled = true ∧ e.kind ≠ .update ∧ b ∈ e.mask ∧ ∃ c ∈ minutesFrom s.clock.cal 20, e.names c = true))

/-- R143: SCHEDULE-CLEAR closes an open window, empties the entry, removes its record and hands the change to the look-ahead; a number outside
1-24 is refused RANGE. -/
def Obligations.ScheduleClearEmptiesAnEntry : Prop :=
  ∀ (s : State) (w : Txt) (m : Nat), Listening s → number w = some m →
    (m = 0 ∨ 24 < m → Answered .scheduleClear [w] s (.no (.verb .scheduleClear) .range []) s) ∧
    (∀ n : Fin 24, m = n.val + 1 →
      let closed := closeEntryWindow n "CLEARED" s
      Answered .scheduleClear [w] s (.ok .scheduleClear (.num m :: if windowOpen s n then [wd "CLOSED"] else []))
        (lookAheadAll (dropDue n (storeRecord .profile (5000 + n.val) none
          { closed with sched := { closed.sched with entries := closed.sched.entries.set n none } }))))

/-! ## Service Monitor -/

/-- R148, R151, R152, R153: the settings of a kind, and what enabling it does with each latch of it that is set; the acknowledgement of one latch
and of all of a bay; forced events. How the arbiter runs among the calls so raised is the model's reading (assumption 24). -/
def Obligations.EventSettingsAndLatches : Prop :=
  ∀ s : State, Listening s →
    (∀ (w1 w2 w3 w4 : Txt) (k : EventKind) (sv : Nat) (rt : CallRoute) (en : Bool), kindField w1 = some (some k) → number w2 = some sv → 1 ≤ sv → sv ≤ 3 →
      wordField [CallRoute.notice, .call] CallRoute.word w3 = some (some rt) → ynField w4 = some (some en) →
      Completes (.setEvent [w1, w2, w3, w4]) s (fun t =>
        t.mon.settings = s.mon.settings.set k.slot { severity := sv, route := rt, enabled := en } ∧
        HandedOver s t (.event k.slot { severity := sv, route := rt, enabled := en }) ∧
        t.host.inHand = some (.ok .setEvent [wd k.word, .num sv, wd rt.word, .yn en]) ∧
        (∀ (b : BayId) (j : EventKind), (t.mon.bays[b].latches[j.slot]).set = (s.mon.bays[b].latches[j.slot]).set ∧
          (t.mon.bays[b].latches[j.slot]).time = (s.mon.bays[b].latches[j.slot]).time) ∧
        (en = false ∨ (settingOf s k).enabled = true → t.mon.calls = s.mon.calls ∧ t.mon.bays = s.mon.bays) ∧
        (en = true → (settingOf s k).enabled = false → ∀ b : BayId,
          let x := s.mon.bays[b].latches[k.slot]
          let told (call : String) (id : Nat) : Prop := Tells s t .event [bayTok b, wd k.word, .num sv,
            wd (if x.forced then "FORCED" else "DETECTED"), wd call, .num id, .num (if k = .ovenFault then x.code else 0)]
          x.set = true →
            (rt = .notice → told "NONE" 0 ∧ t.mon.calls = s.mon.calls) ∧
            (rt = .call →
              (∀ c, callFor s b k = some c → told "JOINED" c.id) ∧
              (callFor s b k = none → s.mon.calls.length + b.val < 32 → ∃ id, told "RAISED" id ∧ ∃ c ∈ t.mon.calls, c.id = id ∧ c.bay = b ∧ c.kind = k) ∧
              (callFor s b k = none → 32 ≤ s.mon.calls.length → told "DEFERRED" 0 ∧ (t.mon.bays[b].latches[k.slot]).owed = true))))) ∧
    (∀ (w1 w2 : Txt) (b : BayId) (k : EventKind), NamesBay w1 b → kindField w2 = some (some k) →
      let x := s.mon.bays[b].latches[k.slot]
      (¬ (x.set = true ∧ k.level = true ∧ condition s b k = true) → Completes (.ackEvent [w1, w2]) s (fun t =>
        t.mon.bays[b].latches[k.slot] = { x with set := false, owed := false } ∧ (∀ d : BayId, d ≠ b → t.mon.bays[d] = s.mon.bays[d]) ∧
        t.host.inHand = some (.ok .ackEvent [bayTok b, wd k.word, wd "CLEARED"]))) ∧
      (x.set = true ∧ k.level = true ∧ condition s b k = true →
        Answered .ackEvent [w1, w2] s (.ok .ackEvent [bayTok b, wd k.word, wd "PERSISTS"]) s) ∧
      (x.set = true → Answered .forceEvent [w1, w2] s (.ok .forceEvent [bayTok b, wd k.word, wd "ALREADY"]) s) ∧
      (x.set = false → Completes (.forceEvent [w1, w2]) s (fun t =>
        t.mon.bays[b].latches[k.slot].set = true ∧ t.mon.bays[b].latches[k.slot].forced = true ∧
        t.mon.bays[b].latches[k.slot].time = s.now / 1000 ∧ t.mon.bays[b].conds = s.mon.bays[b].conds ∧ t.line = s.line ∧ t.runs = s.runs ∧
        t.host.inHand = some (.ok .forceEvent [bayTok b, wd k.word, wd "SET"])))) ∧
    (∀ (w1 w2 : Txt) (b : BayId), NamesBay w1 b → w2 = "ALL".toList →
      let stays (k : EventKind) : Bool := (s.mon.bays[b].latches[k.slot]).set && k.level && condition s b k
      Completes (.ackEvent [w1, w2]) s (fun t =>
        (∀ k : EventKind, t.mon.bays[b].latches[k.slot] =
          if stays k = true then s.mon.bays[b].latches[k.slot] else { s.mon.bays[b].latches[k.slot] with set := false, owed := false }) ∧
        (∀ d : BayId, d ≠ b → t.mon.bays[d] = s.mon.bays[d]) ∧ t.mon.calls = s.mon.calls ∧
        t.host.inHand = some (.ok .ackEvent (if EventKind.all.any stays then
          [bayTok b, wd "ALL", wd "PERSISTS"] ++ (EventKind.all.filter stays).map (fun k => wd k.word) else [bayTok b, wd "ALL", wd "CLEARED"]))))

/-- R148, R149, R150, R153, R154, R155, R162: a latch that is newly set tells the host, and raises, joins or defers a call by its kind's route; the
arbiter gives the free lane of lowest number to the best WAITING call, the one before all others, until no call waits or no lane is free; a rescan
raises what was owed; and the local mode of a status record. The order of the arbiter's and the rescan's runs is the model's reading (assumption
24). The unit of a lane's timer is assumption 15. The code that a set OVEN_FAULT latch takes is read from the spec by inference (assumption 19). -/
def Obligations.LatchesRaiseCallsAndLanesTakeThem : Prop :=
  ∀ (s : State) (b : BayId) (k : EventKind),
    let x := s.mon.bays[b].latches[k.slot]
    let y := settingOf s k
    (∀ forced : Bool,
      let t := latch b k forced s
      let code := if k = .ovenFault ∧ condition s b k = true then s.mon.bays[b].code else 0
      let told (t : State) (call : String) (id : Nat) : Prop := Tells s t .event
        [bayTok b, wd k.word, .num y.severity, wd (if forced then "FORCED" else "DETECTED"), wd call, .num id, .num code]
      (x.set = true → t = s) ∧
      (x.set = false →
        (let owed := y.enabled && decide (y.route = .call) && (callFor s b k).isNone && decide (32 ≤ s.mon.calls.length)
         t.mon.bays[b].latches[k.slot] = { set := true, time := s.now / 1000, forced := forced, code := code, owed := owed }) ∧
        (y.enabled = false → t.mon.calls = s.mon.calls ∧ t.host = s.host) ∧
        (y.enabled = true → y.route = .notice → t.mon.calls = s.mon.calls ∧ told t "NONE" 0) ∧
        (y.enabled = true → y.route = .call →
          (∀ c, callFor s b k = some c → t.mon.calls = s.mon.calls ∧ told t "JOINED" c.id) ∧
          (callFor s b k = none → s.mon.calls.length < 32 → told t "RAISED" (raiseId s) ∧
            ∃ c, callOf t (raiseId s) = some c ∧ c.bay = b ∧ c.kind = k ∧ c.severity = y.severity ∧ c.raised = s.now / 1000 ∧
              (c.state = .waiting ∨ c.state = .dispatched)) ∧
          (callFor s b k = none → 32 ≤ s.mon.calls.length → t.mon.calls = s.mon.calls ∧ told t "DEFERRED" 0)))) ∧
    (∀ v : Bool,
      (condition s b k = v → setCondition b k v s = s) ∧
      condition (setCondition b k v s) b k = v ∧
      (condition s b k = false → v = true → (setCondition b k v s).mon.bays[b].latches[k.slot].set = true)) ∧
    (let t := rescanLatch b k s
     (x.set = true → x.owed = true → s.mon.calls.length < 32 → callFor s b k = none →
       t.mon.bays[b].latches[k.slot] = { x with owed := false } ∧
       (y.enabled = true → y.route = .call → ∃ c, callOf t (raiseId s) = some c ∧ c.bay = b ∧ c.kind = k ∧ c.severity = y.severity) ∧
       (y.enabled = false ∨ y.route = .notice → t.mon.calls = s.mon.calls)) ∧
     (x.set = false ∨ x.owed = false ∨ 32 ≤ s.mon.calls.length ∨ callFor s b k ≠ none → t = s)) ∧
    (∀ code : Nat,
      let t := takeFault b code s
      condition t b .ovenFault = decide (code ≠ 0) ∧ (code ≠ 0 → t.mon.bays[b].code = code) ∧
      (code ≠ 0 → condition s b .ovenFault = false → s.mon.bays[b].latches[EventKind.ovenFault.slot].set = false →
        t.mon.bays[b].latches[EventKind.ovenFault.slot].set = true ∧ t.mon.bays[b].latches[EventKind.ovenFault.slot].code = code) ∧
      (code ≠ 0 → condition s b .ovenFault = true → s.mon.bays[b].code ≠ code → t.mon.bays[b].latches[EventKind.ovenFault.slot].code = code ∧
        (∀ c, callFor s b .ovenFault = some c → callOf s c.id = some c → callOf t c.id = some { c with latestCode := some code }))) ∧
    (let waiting := s.mon.calls.filter (fun c => decide (c.state = .waiting))
     (∀ (last : BayId) (c d : Call), c.before last d = true ↔
       d.severity < c.severity ∨ c.severity = d.severity ∧ (c.bay.val + 11 - last.val) % 12 < (d.bay.val + 11 - last.val) % 12) ∧
     (bestCall s = none ↔ waiting = []) ∧
     (∀ c, bestCall s = some c → ∃ first rest, waiting = first ++ c :: rest ∧ (∀ d ∈ first, c.before s.mon.lastBay d = true) ∧
       ∀ d ∈ rest, d.before s.mon.lastBay c = false) ∧
     (freeLane s = none ↔ ∀ l : Fin 2, s.mon.lanes[l] ≠ none) ∧
     (∀ l, freeLane s = some l → s.mon.lanes[l] = none ∧ ∀ m : Fin 2, m < l → s.mon.lanes[m] ≠ none) ∧
     (∀ l c, freeLane s = some l → bestCall s = some c → callOf s c.id = some c →
       let t := arbiterOnce s
       let n := if c.number < 255 then c.number + 1 else 1
       callOf t c.id = some { c with state := .dispatched, lane := some l, number := n } ∧
       t.mon.lanes[l] = some { call := c.id, due := s.now / 1000 + 120 } ∧ t.mon.lastBay = c.bay ∧
       Tells s t .callDispatch [.num c.id, .num n, .num (l.val + 1), bayTok c.bay, wd c.kind.word, .num c.severity, .num c.level]) ∧
     ((freeLane s = none ∨ bestCall s = none) → arbiterOnce s = s) ∧
     (freeLane (arbiter s) = none ∨ bestCall (arbiter s) = none)) ∧
    (let m := s.mon.bays[b]
     (∀ service : Bool, (takeMode b service s).mon.bays[b].service = some service) ∧
     (m.service ≠ some true →
       let t := takeMode b true s
       (m.hold = .automation → t.mon.bays[b] = { m with service := some true }) ∧
       (m.hold ≠ .automation → applying s b = true → t.mon.bays[b] = { m with service := some true, takeDeferred := true }) ∧
       (m.hold ≠ .automation → applying s b = false →
         t.mon.bays[b].hold = .technician ∧ t.mon.bays[b].releasePending = false ∧
         (∀ r, s.reg[b].activity = .cook → s.runs.runs[b] = some r → r.state.final = false →
           ∃ z, t.runs.runs[b] = some z ∧ z.state = .aborted ∧ z.reason = .held) ∧
         (∀ c, s.reg[b].activity = .clean → s.clean[b].record = some c → c.state.final = false →
           ∃ z, t.clean[b].record = some z ∧ z.state = .interrupted ∧ z.reason = .held) ∧
         (∀ c, s.reg[b].activity = .update → channelOf s b = some c → s.dist.channels[c].progress[b] = .transferring →
           t.dist.channels[c].progress[b] = .failed .held))) ∧
     (m.service = some true →
       let t := takeMode b false s
       (m.hold = .technician → t.mon.bays[b] = { m with service := some false, takeDeferred := false, releasePending := true } ∧
         HandedOver s t (.hold b .technician true)) ∧
       (m.hold ≠ .technician → t.mon.bays[b] = { m with service := some false, takeDeferred := false })))

/-- R156, R157, R158: answers to a dispatch, the lane timer, and a technician's progress. The units that these deadlines are kept in are the
model's choice (assumption 15). -/
def Obligations.DispatchedCallsAreAnswered : Prop :=
  ∀ (s : State) (c : Call), callOf s c.id = some c →
    (Listening s → ∀ w1 w2 : Txt, number w1 = some c.id → 1 ≤ c.id → c.id ≤ 65535 → number w2 = some c.number → 1 ≤ c.number → c.number ≤ 255 →
      c.state = .dispatched →
      Completes (.callAccepted [w1, w2]) s (fun t =>
        callOf t c.id = some { c with state := .acknowledged, lane := none, deadline := some (s.now / 1000 + escalationTime c.severity) } ∧
        t.host.inHand = some (.ok .callAccepted [.num c.id])) ∧
      Completes (.callRefused [w1, w2]) s (fun t =>
        (∃ x, callOf t c.id = some x ∧ x.severity = c.severity ∧ (x.state = .waiting ∧ x.lane = none ∨ x.state = .dispatched)) ∧
        t.host.inHand = some (.ok .callRefused [.num c.id]))) ∧
    (∀ (l : Fin 2) (x : Lane), s.phase ≠ .off → s.mon.lanes[l] = some x → x.call = c.id → x.due ≤ s.now / 1000 → Completes (.laneTimerExpiry l) s (fun t =>
      ∃ y, callOf t c.id = some y ∧ (y.state = .waiting ∨ y.state = .dispatched) ∧
        (c.timeouts + 1 = 3 → y.timeouts = 0 ∧ y.severity = min (c.severity + 1) 3) ∧
        (c.timeouts + 1 ≠ 3 → y.timeouts = c.timeouts + 1 ∧ y.severity = c.severity))) ∧
    (Listening s → ∀ w : Txt, number w = some c.id → 1 ≤ c.id → c.id ≤ 65535 → c.state = .acknowledged →
      Completes (.callProgress [w, ['Y']]) s (fun t => callOf t c.id = some { c with state := .onSite, deadline := none } ∧
        t = { s with mon := t.mon, host := t.host } ∧ t.host.inHand = some (.ok .callProgress [.num c.id, wd "ON_SITE"])) ∧
      Completes (.callProgress [w, ['N']]) s (fun t =>
        (c.level ≠ 2 → callOf t c.id = some { c with deadline := some (s.now / 1000 + escalationTime c.severity) }) ∧
        (c.level = 2 → callOf t c.id = some c) ∧ t.host.inHand = some (.ok .callProgress [.num c.id, wd "ACKNOWLEDGED"])))

/-- R159, R164, R160: escalation sends the call out again and then holds or tells, each with its ESCALATED notice; a close frees the lane that held
the call and no other, clears the call's latch with its call-owed mark unless its kind is a level kind whose condition is true, takes the call off the
queue where no latch owes one, and off its bay's causes, with its CALL-END notice. The units that these deadlines are kept in are the model's choice
(assumption 15). -/
def Obligations.CallsEscalateAndClose : Prop :=
  ∀ (s : State) (c : Call), callOf s c.id = some c →
    (∀ d, s.phase = .running → c.deadline = some d → d ≤ s.now / 1000 →
      let tells (t : State) (level : Nat) (action : String) : Prop :=
        Tells s t .escalated [.num c.id, bayTok c.bay, wd c.kind.word, .num level, wd action]
      (c.level = 0 → Completes (.escalationDeadlineExpiry c.id) s (fun t => tells t 1 "REDISPATCH" ∧
        ∃ x, callOf t c.id = some x ∧ x.level = 1 ∧ x.deadline = none ∧ (x.state = .waiting ∨ x.state = .dispatched))) ∧
      (c.level = 1 → (c.kind = .tempRunaway ∨ c.kind = .supplyMismatch) → Completes (.escalationDeadlineExpiry c.id) s (fun t =>
        tells t 2 "HOLD" ∧ t.mon.bays[c.bay].hold = .automation ∧ c.id ∈ t.mon.bays[c.bay].causes)) ∧
      (c.level = 1 → c.kind ≠ .tempRunaway → c.kind ≠ .supplyMismatch → Completes (.escalationDeadlineExpiry c.id) s (fun t =>
        tells t 2 "NOTICE" ∧ callOf t c.id = some { c with level := 2, deadline := none } ∧ t.mon.bays = s.mon.bays ∧ t = { s with mon := t.mon, host := t.host }))) ∧
    (∀ w : Txt, Listening s → number w = some c.id → 1 ≤ c.id → c.id ≤ 65535 → Completes (.callClose [w]) s (fun t =>
      c.id ∉ t.mon.bays[c.bay].causes ∧ t.host.inHand = some (.ok .callClose [.num c.id]) ∧
      Tells s t .callEnd [.num c.id, bayTok c.bay, wd c.kind.word, wd c.state.word] ∧
      (let x := s.mon.bays[c.bay].latches[c.kind.slot]
       let y := t.mon.bays[c.bay].latches[c.kind.slot]
       let level : Prop := c.kind ∈ [EventKind.lineExpired, .presencePartial, .supplyMismatch, .ovenFault, .cleanDue, .detergentLow, .rinseOwed]
       let stays : Prop := x.set = true ∧ level ∧ condition s c.bay c.kind = true
       (stays → y.set = true ∧ (x.owed = false → y = x)) ∧ (¬ stays → y.set = false ∧ y.owed = false)) ∧
      (∀ (l : Fin 2) (z : Lane), s.mon.lanes[l] = some z → z.call ≠ c.id → t.mon.lanes[l] = some z) ∧
      ((∀ (b : BayId) (k : Fin 16), s.mon.bays[b].latches[k].owed = false) → callOf t c.id = none ∧
        (∀ (l : Fin 2) (z : Lane), t.mon.lanes[l] = some z → z.call ≠ c.id) ∧
        ((∀ z ∈ s.mon.calls, z.id ≠ c.id → z.state ≠ .waiting) → ∀ (l : Fin 2) (z : Lane), s.mon.lanes[l] = some z → z.call = c.id →
          t.mon.lanes[l] = none))))

/-- R161, R82, R129, R183, R180: a technician takes a bay that has no job, or, with force, one whose job is then ended: a run ABORTED, a cleaning
INTERRUPTED, a transfer FAILED, each HELD; a bay held AUTOMATION is refused STATE, a bay with a job BUSY without force, and one whose apply runs BUSY
in any case. -/
def Obligations.TechTakeHoldsTheBay : Prop :=
  ∀ (s : State) (w1 w2 : Txt) (b : BayId) (force : Bool), Listening s → NamesBay w1 b → ynField w2 = some (some force) →
    (s.mon.bays[b].hold = .automation → Answered .techTake [w1, w2] s (.no (.verb .techTake) .state []) s) ∧
    (s.mon.bays[b].hold ≠ .automation →
      let taken (word : List Tok) (t : State) : Prop := t.mon.bays[b].hold = .technician ∧ t.mon.bays[b].releasePending = false ∧
        t.host.inHand = some (.ok .techTake ([bayTok b, wd "TECHNICIAN"] ++ word))
      (s.reg[b].activity = .nothing → Completes (.techTake [w1, w2]) s (fun t =>
        taken [] t ∧ HandedOver s t (.hold b .technician false) ∧ t = { s with mon := t.mon, store := t.store, host := t.host })) ∧
      (∀ r, s.reg[b].activity = .cook → force = true → applying s b = false → s.runs.runs[b] = some r → r.state.final = false →
        Completes (.techTake [w1, w2]) s (fun t => taken [wd "ABORTED"] t ∧ t.reg[b].activity = .nothing ∧
          ∃ x, t.runs.runs[b] = some x ∧ x.state = .aborted ∧ x.reason = .held)) ∧
      (∀ c, s.reg[b].activity = .clean → force = true → applying s b = false → s.clean[b].record = some c → c.state.final = false →
        Completes (.techTake [w1, w2]) s (fun t => taken [wd "INTERRUPTED"] t ∧ t.reg[b].activity = .nothing ∧
          t.clean[b].hygiene = s.clean[b].hygiene ∧ ∃ x, t.clean[b].record = some x ∧ x.state = .interrupted ∧ x.reason = .held)) ∧
      (∀ c, s.reg[b].activity = .update → force = true → applying s b = false → channelOf s b = some c →
        s.dist.channels[c].progress[b] = .transferring →
        Completes (.techTake [w1, w2]) s (fun t => taken [wd "FAILED"] t ∧ t.reg[b].activity = .nothing ∧
          t.dist.channels[c].progress[b] = .failed .held ∧ Tells s t .transfer [.num (c.val + 1), bayTok b, wd "FAILED", wd "HELD"] ∧
          (s.reg[b].state = .ready → s.line.bays[b].held = [] → s.line.bays[b].queue.length < 6 →
            ∃ o ∈ t.line.bays[b].queue, o.body = .discardImage))) ∧
      (s.reg[b].activity ≠ .nothing → (force = false ∨ applying s b = true) →
        Answered .techTake [w1, w2] s (.no (.verb .techTake) .busy []) s))

/-- R163: TECH-RELEASE, and the table of HOLD-CLEAR. -/
def Obligations.HoldsAreReleasedAndCleared : Prop :=
  ∀ (s : State) (w : Txt) (n : Nat), Listening s → number w = some n →
    (n = 0 ∨ 12 < n → Answered .techRelease [w] s (.no (.verb .techRelease) .range []) s) ∧
    (∀ b : BayId, n = bayNo b →
      let m := s.mon.bays[b]
      let cleared : Prop := Completes (.holdClear [w]) s (fun t =>
        t.mon.bays[b].hold = .nothing ∧ t.mon.bays[b].releasePending = false ∧ t.mon.bays[b].causes = [] ∧ t.reg = s.reg ∧ t.runs = s.runs ∧
        t.clean = s.clean ∧ t.dist = s.dist ∧ t.host.inHand = some (.ok .holdClear [bayTok b]))
      let refused : Prop := Answered .holdClear [w] s (.no (.verb .holdClear) .state []) s
      (m.hold ≠ .technician → Answered .techRelease [w] s (.no (.verb .techRelease) .state []) s) ∧
      (m.hold = .technician → Completes (.techRelease [w]) s (fun t =>
        t.mon.bays[b] = { m with releasePending := true } ∧ HandedOver s t (.hold b .technician true) ∧
        t = { s with mon := t.mon, store := t.store, host := t.host } ∧ t.host.inHand = some (.ok .techRelease [bayTok b, wd "PENDING"]))) ∧
      (m.hold = .nothing → refused) ∧
      (m.hold = .technician → m.releasePending = true → cleared) ∧
      (m.hold = .technician → m.releasePending = false → refused) ∧
      (m.hold = .automation → (∀ id ∈ m.causes, callOf s id = none) → cleared) ∧
      (m.hold = .automation → (∃ id ∈ m.causes, callOf s id ≠ none) → refused))

/-! ## Update Distributor -/

/-- R167, R168, R169, R170, R171, R43: a slot is opened, with the erase of its region and then its FILLING header handed to the store, filled, sealed,
judged by its CRC, and freed; the end of a seal is told, and its header write stands last in the write queue, in place of any that waited. That a CRC
is taken in small letters too and written in capitals is the model's choice (assumption 68). -/
def Obligations.BundleSlotsFollowTheirStates : Prop :=
  ∀ (s : State) (k : Fin 4),
    let x := s.dist.slots[k]
    (∀ (f : List Txt) (n : Nat) (h : Header), Listening s → parseOpen f = some (n, some h) → n = k.val + 1 → headerRangeOk h = true →
      (x.header.state = .free ∨ x.header.state = .corrupt) → s.store.stagingWaiting < 8 → Completes (.bundleOpen f) s (fun t =>
        t.dist.slots[k] = { x with header := h, fill := 0, computed := none } ∧ h.state = .filling ∧
        t.store = (storeRecord .headers k.val (some (.header k h)) (storeStaging (.erase k) s)).store ∧
        t.host.inHand = some (.ok .bundleOpen [.num n, .num 0]) ∧
        t = { s with dist := t.dist, store := t.store, host := t.host })) ∧
    (∀ (w1 w2 w3 : Txt) (d : List Byte), Listening s → NamesFour w1 k → number w2 = some x.fill → hexBytes w3 = some d → 1 ≤ d.length → d.length ≤ 200 →
      x.header.state = .filling → x.fill + d.length ≤ x.header.length → s.store.stagingWaiting < 8 →
      Completes (.bundleChunk [w1, w2, w3]) s (fun t =>
        t.dist.slots[k] = { x with fill := x.fill + d.length } ∧ t.store = (storeStaging (.bytes k x.fill d) s).store ∧
        t.host.inHand = some (.ok .bundleChunk [.num (k.val + 1), .num (x.fill + d.length)]) ∧
        t = { s with dist := t.dist, store := t.store, host := t.host })) ∧
    (∀ w : Txt, Listening s → NamesFour w k →
      (x.header.state = .filling → x.fill = x.header.length → Completes (.bundleSeal [w]) s (fun t =>
        t.dist.slots[k] = { x with header := { x.header with state := .sealing } } ∧ t = { s with dist := t.dist, host := t.host } ∧
        t.host.inHand = some (.ok .bundleSeal [.num (k.val + 1)]))) ∧
      (x.header.state ≠ .sealing → x.users = 0 → Completes (.bundleDiscard [w]) s (fun t =>
        t.dist.slots[k].header.state = .free ∧ t.dist.slots[k].users = 0 ∧ t.host.inHand = some (.ok .bundleDiscard [.num (k.val + 1)]) ∧
        t.store = (storeRecord .headers k.val none s).store ∧ t = { s with dist := t.dist, store := t.store, host := t.host }))) ∧
    (s.phase ≠ .off → x.header.state = .sealing →
      let crc := crc32 (s.store.stagingBytes k 0 x.header.length)
      let h : Header := { x.header with state := if crc = x.header.crc then .verified else .corrupt }
      let w : Write := .record .headers k.val (some (.header k h))
      Completes (.bundleSealDone k) s (fun t =>
        t.dist.slots[k] = { x with computed := some crc, header := h } ∧
        Tells s t .bundleResult [.num (k.val + 1), wd (if crc = x.header.crc then "VERIFIED" else "CORRUPT"), .hex8 crc] ∧
        (t.store.performing.toList ++ t.store.waiting).getLast? = some w ∧
        (∀ y ∈ t.store.waiting, y.isRecord .headers k.val = true → y = w) ∧
        (∀ y ∈ s.store.waiting, y.isRecord .headers k.val = false → y ∈ t.store.performing.toList ++ t.store.waiting) ∧
        t = { s with dist := t.dist, store := t.store, host := t.host }))

/-- R172, R173, R174, R180, R181, R182: a channel is armed, started, masked and unmasked; a start judges each bay of the group, and the pass that
follows it leaves each entry waiting, deferred, failed, or claimed; all channels are cleared, their transfers ended and told, unless an apply runs.
The bare replies of CHANNEL-MASK and CHANNEL-UNMASK are the model's reading (assumption 21); what an unused channel's other fields hold, so that a
cleared channel equals the initial channel, is the model's choice (assumption 8), and so are the offsets 0 of a channel armed again (assumption
74). -/
def Obligations.ChannelsFollowTheirStates : Prop :=
  ∀ s : State, Listening s →
    (∀ (w : Txt) (c : Fin 4), NamesFour w c →
      let x := s.dist.channels[c]
      (x.state = .armed → Completes (.channelStart [w]) s (fun t =>
        let y := t.dist.channels[c]
        let fits (b : BayId) : Prop :=
          s.reg[b].state = .ready ∧ s.reg[b].identity.map Identity.model = some s.dist.slots[x.slot].header.target
        let visited (b : BayId) : Prop := x.masked = false ∧ (x.windowRequired = false ∨ covered s .update b = true)
        let claimable (b : BayId) : Prop := b ∈ x.group ∧ fits b ∧ visited b ∧ s.mon.bays[b].hold = .nothing ∧ s.reg[b].power = .on ∧
          s.reg[b].activity = .nothing
        (y.state = .running ∨ y.state = .done) ∧
        (∀ b ∈ x.group,
          (s.reg[b].state ≠ .ready → y.progress[b] = .failed .state ∧ Tells s t .transfer [.num (c.val + 1), bayTok b, wd "FAILED", wd "STATE"]) ∧
          (s.reg[b].state = .ready → ¬ fits b →
            y.progress[b] = .failed .model ∧ Tells s t .transfer [.num (c.val + 1), bayTok b, wd "FAILED", wd "MODEL"])) ∧
        (x.current = none → (∀ b : BayId, b ∉ x.group → x.progress[b] = .notTarget) →
          (y.state = .done ↔ ∀ b ∈ x.group, ∃ why, y.progress[b] = .failed why) ∧
          ∀ b ∈ x.group, fits b →
            (¬ visited b ∨ (∃ d : BayId, d < b ∧ claimable d) → y.progress[b] = .pending) ∧
            (visited b → (∀ d : BayId, d < b → ¬ claimable d) →
              (s.mon.bays[b].hold ≠ .nothing →
                y.progress[b] = .failed .held ∧ Tells s t .transfer [.num (c.val + 1), bayTok b, wd "FAILED", wd "HELD"]) ∧
              (s.mon.bays[b].hold = .nothing → s.reg[b].power ≠ .on ∨ s.reg[b].activity ≠ .nothing → y.progress[b] = .deferred) ∧
              (claimable b → y.progress[b] = .transferring ∧ y.current = some b ∧ t.reg[b].activity = .update ∧
                Tells s t .transfer [.num (c.val + 1), bayTok b, wd "TRANSFERRING", wd "NONE"]))) ∧
        t.host.inHand = some (.ok .channelStart [.num (c.val + 1), .num (pendingCount s c)]))) ∧
      ((x.state = .armed ∨ x.state = .running) →
        Completes (.channelMask [w]) s (fun t => t.dist.channels[c] = { x with masked := true } ∧ t = { s with dist := t.dist, host := t.host } ∧
          t.host.inHand = some (.ok .channelMask [])) ∧
        Completes (.channelUnmask [w]) s (fun t => t.dist.channels[c].masked = false ∧ t.host.inHand = some (.ok .channelUnmask [])))) ∧
    (∀ (w1 w2 w3 w4 w5 : Txt) (c k : Fin 4) (l : List Nat) (g : List BayId) (demand window : Bool), NamesFour w1 c → NamesFour w2 k →
      bayListField w3 = some l → bayMask l = some g → wordField [true, false] modeWord w4 = some (some demand) → ynField w5 = some (some window) →
      s.dist.slots[k].header.state = .verified → s.dist.slots[k].header.kind = .firmware →
      (s.dist.channels[c].state = .idle ∨ s.dist.channels[c].state = .done) → Completes (.channelSet [w1, w2, w3, w4, w5]) s (fun t =>
        t.dist.channels[c] = { Channel.initial with state := .armed, slot := k, group := g, demand := demand, windowRequired := window } ∧
        t.dist.slots[k] = { s.dist.slots[k] with users := s.dist.slots[k].users + 1 } ∧ t = { s with dist := t.dist, host := t.host } ∧
        t.host.inHand = some (.ok .channelSet [.num (c.val + 1), wd "ARMED"]))) ∧
    ((∃ b : BayId, applying s b = true) → Answered .channelsClear [] s (.no (.verb .channelsClear) .busy []) s) ∧
    ((∀ b : BayId, applying s b = false) → Completes (.channelsClear []) s (fun t =>
      (∀ c : Fin 4, t.dist.channels[c] = Channel.initial) ∧
      (∀ k : Fin 4, t.dist.slots[k].users = s.dist.slots[k].users - (allFour.filter (fun c => decide (s.dist.channels[c].slot = k ∧
        (s.dist.channels[c].state = .armed ∨ s.dist.channels[c].state = .running)))).length) ∧
      (∀ (c : Fin 4) (b : BayId), s.dist.channels[c].current = some b →
        Tells s t .transfer [.num (c.val + 1), bayTok b, wd "FAILED", wd "CLEARED"] ∧
        (s.reg[b].state = .ready → s.line.bays[b].held = [] → s.line.bays[b].queue.length < 5 → ∃ o ∈ t.line.bays[b].queue, o.body = .discardImage)) ∧
      t.host.inHand = some (.ok .channelsClear [.num (transferring s).length])))

/-- R174, R176, R180, R20: what a pass makes of each entry it visits, whatever bay's release set it off: it leaves one that waits for its window, fails,
defers, wakes, or claims the bay and begins its transfer with a DISCARD-IMAGE; and what the block flow places: the next bytes of the slot, at the next offset, one block at a time in PACED
mode and within the oven's window in DEMAND mode, until no more may be placed. An entry of a busy bay becomes DEFERRED by
R174's table, but one of the released bay itself stays as it was by R20; that this is what R20 says is the model's choice (assumption 36), and so is
standby requested with a full queue (assumption 43). -/
def Obligations.PassesBeginTransfersAndPlaceBlocks : Prop :=
  ∀ (s : State) (released : Option BayId) (c : Fin 4) (b : BayId),
    let x := s.dist.channels[c]
    let h := s.dist.slots[x.slot].header
    let g := s.reg[b]
    let t := passVisit released c b s
    let y := t.dist.channels[c]
    let tells (word why : String) : Prop := Tells s t .transfer [.num (c.val + 1), bayTok b, wd word, wd why]
    let visited : Prop := x.state = .running ∧ x.current = none ∧ x.masked = false ∧ (x.progress[b] = .pending ∨ x.progress[b] = .deferred)
    let model : Prop := g.identity.map Identity.model = some h.target
    (¬ visited ∨ x.windowRequired = true ∧ covered s .update b = false → t = s) ∧
    (visited → (x.windowRequired = false ∨ covered s .update b = true) →
      (∀ d : BayId, d ≠ b → y.progress[d] = x.progress[d]) ∧
      (g.state ≠ .ready → y.progress[b] = .failed .state ∧ y.current = none ∧ tells "FAILED" "STATE") ∧
      (g.state = .ready →
        (¬ model → y.progress[b] = .failed .model ∧ y.current = none ∧ tells "FAILED" "MODEL") ∧
        (model → s.mon.bays[b].hold ≠ .nothing → y.progress[b] = .failed .held ∧ y.current = none ∧ tells "FAILED" "HELD") ∧
        (model → s.mon.bays[b].hold = .nothing →
          (g.power = .off ∨ g.activity ≠ .nothing ∧ released ≠ some b → t = setProgress c b .deferred s) ∧
          (g.power ≠ .off → g.activity ≠ .nothing → released = some b → t = s) ∧
          (g.power = .standby → g.activity = .nothing → y.progress[b] = .deferred ∧ y.current = none ∧
            t.heat.bays[b].idleRef = some (s.now / 1000) ∧ t.reg = s.reg ∧
            (s.line.bays[b].queue.length < 6 → ∃ o ∈ t.line.bays[b].queue, o.body = .power false)) ∧
          (g.power = .on → g.activity = .nothing → t.reg[b] = { g with activity := .update } ∧ y.progress[b] = .transferring ∧
            y.current = some b ∧ y.offset = 0 ∧ y.acked = 0 ∧ y.misses = 0 ∧ y.discardTaken = false ∧ tells "TRANSFERRING" "NONE" ∧
            (s.line.bays[b].queue.length < 6 → ∃ o ∈ t.line.bays[b].queue, o.body = .discardImage ∧ y.discardId = some o.id))))) ∧
    (mayPlace s c b = true ↔ x.state = .running ∧ x.current = some b ∧ x.progress[b] = .transferring ∧ x.discardTaken = true ∧ x.masked = false ∧
      x.offset < h.length ∧ s.line.bays[b].queue.length < 6 ∧
      (x.demand = true → (s.line.bays[b].queue.filter (fun o => decide (o.body.kind = .block))).length < x.window) ∧
      (x.demand = false → ∀ o ∈ s.line.bays[b].queue, o.body.kind ≠ .block)) ∧
    (g.state = .ready → mayPlace s c b = true →
      let n := min 128 (h.length - x.offset)
      let u := placeBlock c b s
      u.dist.channels[c] = { x with offset := x.offset + n } ∧
      ∃ data : List Byte, data.length = n ∧ (∀ (i : Nat) (j : i < data.length), data[i] = s.store.stagingRead x.slot (x.offset + i)) ∧
        u.line.bays[b].queue = s.line.bays[b].queue ++ [{ id := s.line.bays[b].nextId, body := .block x.offset data, delivered := false }]) ∧
    (g.state = .ready →
      let u := placeBlocks c b s
      mayPlace u c b = false ∧ u.dist.channels[c] = { x with offset := u.dist.channels[c].offset } ∧ (mayPlace s c b = false → u = s) ∧
      (mayPlace s c b = true → ∃ rest, u.line.bays[b].queue = (placeBlock c b s).line.bays[b].queue ++ rest ∧
        (x.demand = false → rest = []) ∧ ∀ o ∈ rest, o.body.kind = .block))

/-- R176, R177, R178, R179, R180, R109, R111: what the Update Distributor makes of a delivered block, of the acknowledged offset and the image state
of a status record, whether it reports ON or OFF, of the acceptance of an offer, and of the return of an apply; and what the end of a transfer leaves,
with its notice: its orders are withdrawn, DISCARD-IMAGE follows for NO_ACK, IMAGE, NO_OFFER, HELD and CLEARED alone, and UPDATE_FAILED is reported
for NO_ACK, IMAGE, NO_OFFER and ROLLED_BACK alone. How the rows of the table meet in one record is the model's reading (assumption 25); that a record
in STANDBY wakes a bay that is APPLYING, and not while the grace stands, is its choice (assumption 59), and so is that it asks for the WAKE before its
other uses (assumption 73). The units that these deadlines are kept in are the model's choice (assumption 15). That REJECTED is a miss before any
BLOCK has been delivered is the model's choice (assumption 66). -/
def Obligations.TransfersFollowTheirRecords : Prop :=
  ∀ (s : State) (c : Fin 4) (b : BayId), channelOf s b = some c →
    let x := s.dist.channels[c]
    let h := s.dist.slots[x.slot].header
    let room : Prop := s.reg[b].state = .ready ∧ s.line.bays[b].queue.length < 6 ∧ s.line.bays[b].held = []
    let kept : List Order := s.line.bays[b].queue.filter (fun o => decide (o.body.kind ∉ [OrderKind.block, .applyOffer, .applyGo]))
    (∀ offset n : Nat,
      let y := (deliverBlock b offset n s).dist.channels[c]
      y.lastEnd = offset + n ∧ y.missSince = false ∧ y.acked = x.acked ∧
      y.delivered = (if x.acked < offset + n then x.delivered ++ [{ stop := offset + n, time := s.now }] else x.delivered) ∧
      y.ackDue = y.delivered.head?.map (fun d => d.time + 2000)) ∧
    (∀ ack : Nat,
      let t := takeAck c b ack s
      let y := t.dist.channels[c]
      (x.acked < ack → ack ≤ x.lastEnd → y.acked = ack ∧ y.misses = 0 ∧ y.delivered = x.delivered.filter (fun d => decide (ack < d.stop)) ∧
        y.ackDue = y.delivered.head?.map (fun d => d.time + 2000) ∧ y.progress = x.progress ∧ y.current = x.current) ∧
      (x.lastEnd < ack → x.acked < ack → t = s) ∧
      (ack = x.acked → t = s) ∧
      (ack < x.acked → x.misses < 2 → y.misses = x.misses + 1 ∧ y.acked = x.acked ∧ y.progress = x.progress ∧ y.current = some b ∧
        ∀ o ∈ t.line.bays[b].queue, ∀ offset data, o.body = .block offset data → ack ≤ offset) ∧
      (ack < x.acked → 2 ≤ x.misses → y.progress[b] = .failed .noAck)) ∧
    (∀ image : Nat,
      (image = 4 → x.missSince = false → x.progress[b] = .transferring → x.misses < 2 →
        let t := takeRejected c b image s
        t.dist.channels[c].misses = x.misses + 1 ∧ t.dist.channels[c].missSince = true ∧ t.dist.channels[c].current = some b) ∧
      (image ≠ 4 ∨ x.missSince = true → takeRejected c b image s = s) ∧
      (x.offerDue = none → useImage c b image s = s) ∧
      (x.offerDue ≠ none → image = 3 → room →
        let t := useImage c b image s
        t.dist.channels[c].offerDue = none ∧ t.line.bays[b].grace = some (s.now / 1000 + 90) ∧ ∃ o ∈ t.line.bays[b].queue, o.body = .applyGo) ∧
      (x.offerDue ≠ none → image = 4 → (useImage c b image s).dist.channels[c].progress[b] = .failed .image ∧
        (useImage c b image s).mon.bays[b].latches[EventKind.updateFailed.slot].set = true) ∧
      (x.offerDue ≠ none → image ≠ 3 → image ≠ 4 → useImage c b image s = s)) ∧
    (let t := offerIfComplete c b s
     (x.progress[b] = .transferring → x.discardTaken = true → x.masked = false → x.acked = h.length → t.dist.channels[c].progress[b] = .applying ∧
       t.dist.channels[c].ackDue = none ∧ (room → ∃ o ∈ t.line.bays[b].queue, o.body = .applyOffer h.crc h.revision)) ∧
     (x.progress[b] ≠ .transferring ∨ x.discardTaken = false ∨ x.masked = true ∨ x.acked ≠ h.length → t = s)) ∧
    (x.progress[b] = .applying → acceptOffer b s = s.setChannel c (fun y => { y with offerDue := some (s.now / 1000 + 30) })) ∧
    (∀ rep : Report, rep.power = .standby →
      let w := wakeCause b s
      (s.line.bays[b].grace = none → transferRecord b rep s = transferRecord b { rep with power := .on } w ∧ w.dist = s.dist ∧ Woken s w b) ∧
      (s.line.bays[b].grace ≠ none → transferRecord b rep s = transferRecord b { rep with power := .on } s)) ∧
    (∀ rep : Report, rep.power ≠ .standby →
      let u := takeRejected c b rep.image (takeAck c b rep.acknowledged (s.setChannel c (fun y => { y with window := rep.freeBlocks })))
      (x.progress[b] = .transferring → x.discardTaken = false → transferRecord b rep s = s) ∧
      (x.progress[b] = .transferring → x.discardTaken = true → transferRecord b rep s =
        if u.dist.channels[c].current = some b then placeBlocks c b (offerIfComplete c b u) else u) ∧
      (x.progress[b] = .applying → transferRecord b rep s = useImage c b rep.image s)) ∧
    (∀ i : Identity, x.progress[b] = .applying → s.line.bays[b].grace.isSome = true →
      let t := takeReturn b i s
      let p : Progress := if i.firmware = h.revision then .done else .failed .rolledBack
      t.line.bays[b].grace = none ∧ t.dist.channels[c].progress[b] = p ∧ t.reg[b].identity = s.reg[b].identity.map (fun z => { z with firmware := i.firmware }) ∧
      Tells s t .transfer ([.num (c.val + 1), bayTok b] ++ (if i.firmware = h.revision then [wd "DONE", wd "NONE"] else [wd "FAILED", wd "ROLLED_BACK"])) ∧
      (i.firmware ≠ h.revision → t.mon.bays[b].latches[EventKind.updateFailed.slot].set = true)) ∧
    (∀ (reason : FailReason) (judge : Bool),
      let t := endTransfer c b (.failed reason) judge .later s
      t.dist.channels[c].progress[b] = .failed reason ∧ t.dist.channels[c].current = none ∧ t.reg[b].activity = .nothing ∧
      t.line.bays[b].grace = none ∧ t.dist.channels[c].ackDue = none ∧ t.dist.channels[c].offerDue = none ∧
      (∀ o ∈ t.line.bays[b].queue, ∀ offset data, o.body ≠ .block offset data) ∧
      (reason ∈ [FailReason.noAck, .image, .noOffer, .held, .cleared] → s.reg[b].state = .ready → s.line.bays[b].held = [] → kept.length < 6 →
        t.line.bays[b].queue = kept ++ [{ id := s.line.bays[b].nextId, body := .discardImage, delivered := false }]) ∧
      (reason ∉ [FailReason.noAck, .image, .noOffer, .held, .cleared] → s.line.bays[b].held = [] → t.line.bays[b].queue = kept) ∧
      (reason ∈ [FailReason.noAck, .image, .noOffer, .rolledBack] → t.mon.bays[b].latches[EventKind.updateFailed.slot].set = true) ∧
      (reason ∉ [FailReason.noAck, .image, .noOffer, .rolledBack] →
        t.mon.bays[b].latches[EventKind.updateFailed.slot] = s.mon.bays[b].latches[EventKind.updateFailed.slot]) ∧
      Tells s t .transfer [.num (c.val + 1), bayTok b, wd "FAILED", wd reason.word]) ∧
    (∀ judge : Bool,
      let t := endTransfer c b .done judge .later s
      t.dist.channels[c].progress[b] = .done ∧ t.dist.channels[c].current = none ∧ t.reg[b].activity = .nothing ∧
      t.line.bays[b].grace = none ∧ t.dist.channels[c].ackDue = none ∧ t.dist.channels[c].offerDue = none ∧
      (s.line.bays[b].held = [] → t.line.bays[b].queue = kept) ∧
      t.mon.bays[b].latches[EventKind.updateFailed.slot] = s.mon.bays[b].latches[EventKind.updateFailed.slot] ∧
      Tells s t .transfer [.num (c.val + 1), bayTok b, wd "DONE", wd "NONE"])

/-- R177, R178, R180, R29, R179, R11: the acknowledgement deadline is a miss, the third one ends the transfer NO_ACK, the offer deadline ends it
NO_OFFER, each with UPDATE_FAILED and a DISCARD-IMAGE, and an apply that does not return ends NO_RETURN with neither, its bay LOST. The units that
these deadlines are kept in are the model's choice (assumption 15). -/
def Obligations.TransferDeadlinesAct : Prop :=
  ∀ (s : State) (c : Fin 4) (b : BayId) (d : Nat), s.phase = .running → s.dist.channels[c].current = some b →
    let discards (t : State) : Prop :=
      t.mon.bays[b].latches[EventKind.updateFailed.slot].set = true ∧
      (s.reg[b].state = .ready → s.line.bays[b].held = [] → s.line.bays[b].queue.length < 6 → ∃ o ∈ t.line.bays[b].queue, o.body = .discardImage)
    (s.dist.channels[c].ackDue = some d → d ≤ s.now →
      (s.dist.channels[c].misses < 2 → Completes (.acknowledgementDeadlineExpiry c) s (fun t =>
        t.dist.channels[c].misses = s.dist.channels[c].misses + 1 ∧ t.dist.channels[c].acked = s.dist.channels[c].acked ∧
        t.dist.channels[c].current = some b)) ∧
      (2 ≤ s.dist.channels[c].misses → Completes (.acknowledgementDeadlineExpiry c) s (fun t =>
        t.dist.channels[c].progress[b] = .failed .noAck ∧ t.line.bays[b].grace = none ∧ discards t))) ∧
    (s.dist.channels[c].offerDue = some d → d ≤ s.now / 1000 → Completes (.offerDeadlineExpiry c) s (fun t =>
      t.dist.channels[c].progress[b] = .failed .noOffer ∧ t.line.bays[b].grace = none ∧ discards t)) ∧
    (s.line.bays[b].grace = some d → d ≤ s.now / 1000 → channelOf s b = some c → s.dist.channels[c].progress[b] = .applying →
      Completes (.applyGraceExpiry b) s (fun t =>
        t.reg[b].state = .lost ∧ t.dist.channels[c].progress[b] = .failed .noReturn ∧ t.line.bays[b].grace = none ∧
        (∀ o ∈ t.line.bays[b].queue, o.body ≠ .discardImage) ∧
        t.mon.bays[b].latches[EventKind.updateFailed.slot] = s.mon.bays[b].latches[EventKind.updateFailed.slot]))
end

