-- ==== Sys2Proof/Laws/Tables.lean ====
section
/-! SUPPORT. The laws of the fixed-length tables and of repeating an operation over a list. -/

namespace Sys2Proof.Machine

open Sys2Proof

/-- An entry that is replaced reads as its replacement. -/
theorem upd_same {α : Type} {n : Nat} (v : Vector α n) (i : Fin n) (f : α → α) : (upd v i f)[i] = f v[i] := by
  simp [upd]

/-- The same, with the index as the number that `simp` makes of it. -/
@[simp] theorem upd_same_val {α : Type} {n : Nat} (v : Vector α n) (i : Fin n) (f : α → α) : (upd v i f)[i.val] = f v[i.val] :=
  upd_same v i f

/-- Replacing an entry leaves every other entry alone. -/
theorem upd_other {α : Type} {n : Nat} (v : Vector α n) (i j : Fin n) (f : α → α) (h : j ≠ i) : (upd v i f)[j] = v[j] := by
  have : (i : Nat) ≠ (j : Nat) := fun e => h (Fin.ext e.symm)
  simp [upd, this]

/-- Every entry of a constant table is the constant. -/
@[simp] theorem table_get {α : Type} (n : Nat) (a : α) (i : Nat) (h : i < n) : (table n a)[i] = a := by simp [table]

/-- Any entry of a table after a replacement. -/
theorem upd_get {α : Type} {n : Nat} (v : Vector α n) (i j : Fin n) (f : α → α) :
    (upd v i f)[j] = if j = i then f v[i] else v[j] := by
  by_cases h : j = i
  · subst h; rw [upd_same]; simp
  · rw [upd_other v i j f h, if_neg h]

@[simp] theorem State.each_nil {α : Type} (s : State) (f : α → State → State) : s.each [] f = s := rfl

@[simp] theorem State.each_cons {α : Type} (s : State) (a : α) (l : List α) (f : α → State → State) :
    s.each (a :: l) f = (f a s).each l f := rfl

/-- What one operation keeps, its repetition keeps. -/
theorem State.each_keeps {α : Type} (P : State → Prop) (l : List α) (f : α → State → State)
    (h : ∀ a s, P s → P (f a s)) (s : State) (hs : P s) : P (s.each l f) := by
  induction l generalizing s with
  | nil => exact hs
  | cons a l ih => exact ih (f a s) (h a s hs)

/-- What no operation of a repetition changes, the repetition does not change. -/
theorem State.each_same {α β : Type} (v : State → β) (l : List α) (f : α → State → State)
    (h : ∀ a s, v (f a s) = v s) (s : State) : v (s.each l f) = v s := by
  induction l generalizing s with
  | nil => rfl
  | cons a l ih => rw [State.each_cons, ih, h]

end Sys2Proof.Machine
end

