-- ==== Sys2Proof/Laws/State.lean ====
section
/-! SUPPORT. What each named update of the state leaves in each of its fields. -/

namespace Sys2Proof.Machine

open Sys2Proof

@[simp] theorem State.setReg_pending (s : State) (b : BayId) (f : RegBay → RegBay) : (s.setReg b f).pending = s.pending := rfl
@[simp] theorem State.setReg_phase (s : State) (b : BayId) (f : RegBay → RegBay) : (s.setReg b f).phase = s.phase := rfl
@[simp] theorem State.setReg_now (s : State) (b : BayId) (f : RegBay → RegBay) : (s.setReg b f).now = s.now := rfl
@[simp] theorem State.setReg_pins (s : State) (b : BayId) (f : RegBay → RegBay) : (s.setReg b f).pins = s.pins := rfl
@[simp] theorem State.setReg_reg (s : State) (b : BayId) (f : RegBay → RegBay) : (s.setReg b f).reg = upd s.reg b f := rfl
@[simp] theorem State.setReg_line (s : State) (b : BayId) (f : RegBay → RegBay) : (s.setReg b f).line = s.line := rfl
@[simp] theorem State.setReg_store (s : State) (b : BayId) (f : RegBay → RegBay) : (s.setReg b f).store = s.store := rfl
@[simp] theorem State.setReg_lib (s : State) (b : BayId) (f : RegBay → RegBay) : (s.setReg b f).lib = s.lib := rfl
@[simp] theorem State.setReg_runs (s : State) (b : BayId) (f : RegBay → RegBay) : (s.setReg b f).runs = s.runs := rfl
@[simp] theorem State.setReg_heat (s : State) (b : BayId) (f : RegBay → RegBay) : (s.setReg b f).heat = s.heat := rfl
@[simp] theorem State.setReg_clean (s : State) (b : BayId) (f : RegBay → RegBay) : (s.setReg b f).clean = s.clean := rfl
@[simp] theorem State.setReg_clock (s : State) (b : BayId) (f : RegBay → RegBay) : (s.setReg b f).clock = s.clock := rfl
@[simp] theorem State.setReg_sched (s : State) (b : BayId) (f : RegBay → RegBay) : (s.setReg b f).sched = s.sched := rfl
@[simp] theorem State.setReg_mon (s : State) (b : BayId) (f : RegBay → RegBay) : (s.setReg b f).mon = s.mon := rfl
@[simp] theorem State.setReg_dist (s : State) (b : BayId) (f : RegBay → RegBay) : (s.setReg b f).dist = s.dist := rfl
@[simp] theorem State.setReg_host (s : State) (b : BayId) (f : RegBay → RegBay) : (s.setReg b f).host = s.host := rfl

@[simp] theorem State.setLine_pending (s : State) (b : BayId) (f : LineBay → LineBay) : (s.setLine b f).pending = s.pending := rfl
@[simp] theorem State.setLine_phase (s : State) (b : BayId) (f : LineBay → LineBay) : (s.setLine b f).phase = s.phase := rfl
@[simp] theorem State.setLine_now (s : State) (b : BayId) (f : LineBay → LineBay) : (s.setLine b f).now = s.now := rfl
@[simp] theorem State.setLine_pins (s : State) (b : BayId) (f : LineBay → LineBay) : (s.setLine b f).pins = s.pins := rfl
@[simp] theorem State.setLine_reg (s : State) (b : BayId) (f : LineBay → LineBay) : (s.setLine b f).reg = s.reg := rfl
@[simp] theorem State.setLine_line (s : State) (b : BayId) (f : LineBay → LineBay) : (s.setLine b f).line = { s.line with bays := upd s.line.bays b f } := rfl
@[simp] theorem State.setLine_store (s : State) (b : BayId) (f : LineBay → LineBay) : (s.setLine b f).store = s.store := rfl
@[simp] theorem State.setLine_lib (s : State) (b : BayId) (f : LineBay → LineBay) : (s.setLine b f).lib = s.lib := rfl
@[simp] theorem State.setLine_runs (s : State) (b : BayId) (f : LineBay → LineBay) : (s.setLine b f).runs = s.runs := rfl
@[simp] theorem State.setLine_heat (s : State) (b : BayId) (f : LineBay → LineBay) : (s.setLine b f).heat = s.heat := rfl
@[simp] theorem State.setLine_clean (s : State) (b : BayId) (f : LineBay → LineBay) : (s.setLine b f).clean = s.clean := rfl
@[simp] theorem State.setLine_clock (s : State) (b : BayId) (f : LineBay → LineBay) : (s.setLine b f).clock = s.clock := rfl
@[simp] theorem State.setLine_sched (s : State) (b : BayId) (f : LineBay → LineBay) : (s.setLine b f).sched = s.sched := rfl
@[simp] theorem State.setLine_mon (s : State) (b : BayId) (f : LineBay → LineBay) : (s.setLine b f).mon = s.mon := rfl
@[simp] theorem State.setLine_dist (s : State) (b : BayId) (f : LineBay → LineBay) : (s.setLine b f).dist = s.dist := rfl
@[simp] theorem State.setLine_host (s : State) (b : BayId) (f : LineBay → LineBay) : (s.setLine b f).host = s.host := rfl

@[simp] theorem State.setRun_pending (s : State) (b : BayId) (f : Run → Run) : (s.setRun b f).pending = s.pending := rfl
@[simp] theorem State.setRun_phase (s : State) (b : BayId) (f : Run → Run) : (s.setRun b f).phase = s.phase := rfl
@[simp] theorem State.setRun_now (s : State) (b : BayId) (f : Run → Run) : (s.setRun b f).now = s.now := rfl
@[simp] theorem State.setRun_pins (s : State) (b : BayId) (f : Run → Run) : (s.setRun b f).pins = s.pins := rfl
@[simp] theorem State.setRun_reg (s : State) (b : BayId) (f : Run → Run) : (s.setRun b f).reg = s.reg := rfl
@[simp] theorem State.setRun_line (s : State) (b : BayId) (f : Run → Run) : (s.setRun b f).line = s.line := rfl
@[simp] theorem State.setRun_store (s : State) (b : BayId) (f : Run → Run) : (s.setRun b f).store = s.store := rfl
@[simp] theorem State.setRun_lib (s : State) (b : BayId) (f : Run → Run) : (s.setRun b f).lib = s.lib := rfl
@[simp] theorem State.setRun_runs (s : State) (b : BayId) (f : Run → Run) : (s.setRun b f).runs = { s.runs with runs := upd s.runs.runs b (Option.map f) } := rfl
@[simp] theorem State.setRun_heat (s : State) (b : BayId) (f : Run → Run) : (s.setRun b f).heat = s.heat := rfl
@[simp] theorem State.setRun_clean (s : State) (b : BayId) (f : Run → Run) : (s.setRun b f).clean = s.clean := rfl
@[simp] theorem State.setRun_clock (s : State) (b : BayId) (f : Run → Run) : (s.setRun b f).clock = s.clock := rfl
@[simp] theorem State.setRun_sched (s : State) (b : BayId) (f : Run → Run) : (s.setRun b f).sched = s.sched := rfl
@[simp] theorem State.setRun_mon (s : State) (b : BayId) (f : Run → Run) : (s.setRun b f).mon = s.mon := rfl
@[simp] theorem State.setRun_dist (s : State) (b : BayId) (f : Run → Run) : (s.setRun b f).dist = s.dist := rfl
@[simp] theorem State.setRun_host (s : State) (b : BayId) (f : Run → Run) : (s.setRun b f).host = s.host := rfl

@[simp] theorem State.setHeat_pending (s : State) (b : BayId) (f : HeatBay → HeatBay) : (s.setHeat b f).pending = s.pending := rfl
@[simp] theorem State.setHeat_phase (s : State) (b : BayId) (f : HeatBay → HeatBay) : (s.setHeat b f).phase = s.phase := rfl
@[simp] theorem State.setHeat_now (s : State) (b : BayId) (f : HeatBay → HeatBay) : (s.setHeat b f).now = s.now := rfl
@[simp] theorem State.setHeat_pins (s : State) (b : BayId) (f : HeatBay → HeatBay) : (s.setHeat b f).pins = s.pins := rfl
@[simp] theorem State.setHeat_reg (s : State) (b : BayId) (f : HeatBay → HeatBay) : (s.setHeat b f).reg = s.reg := rfl
@[simp] theorem State.setHeat_line (s : State) (b : BayId) (f : HeatBay → HeatBay) : (s.setHeat b f).line = s.line := rfl
@[simp] theorem State.setHeat_store (s : State) (b : BayId) (f : HeatBay → HeatBay) : (s.setHeat b f).store = s.store := rfl
@[simp] theorem State.setHeat_lib (s : State) (b : BayId) (f : HeatBay → HeatBay) : (s.setHeat b f).lib = s.lib := rfl
@[simp] theorem State.setHeat_runs (s : State) (b : BayId) (f : HeatBay → HeatBay) : (s.setHeat b f).runs = s.runs := rfl
@[simp] theorem State.setHeat_heat (s : State) (b : BayId) (f : HeatBay → HeatBay) : (s.setHeat b f).heat = { s.heat with bays := upd s.heat.bays b f } := rfl
@[simp] theorem State.setHeat_clean (s : State) (b : BayId) (f : HeatBay → HeatBay) : (s.setHeat b f).clean = s.clean := rfl
@[simp] theorem State.setHeat_clock (s : State) (b : BayId) (f : HeatBay → HeatBay) : (s.setHeat b f).clock = s.clock := rfl
@[simp] theorem State.setHeat_sched (s : State) (b : BayId) (f : HeatBay → HeatBay) : (s.setHeat b f).sched = s.sched := rfl
@[simp] theorem State.setHeat_mon (s : State) (b : BayId) (f : HeatBay → HeatBay) : (s.setHeat b f).mon = s.mon := rfl
@[simp] theorem State.setHeat_dist (s : State) (b : BayId) (f : HeatBay → HeatBay) : (s.setHeat b f).dist = s.dist := rfl
@[simp] theorem State.setHeat_host (s : State) (b : BayId) (f : HeatBay → HeatBay) : (s.setHeat b f).host = s.host := rfl

@[simp] theorem State.setClean_pending (s : State) (b : BayId) (f : CleanBay → CleanBay) : (s.setClean b f).pending = s.pending := rfl
@[simp] theorem State.setClean_phase (s : State) (b : BayId) (f : CleanBay → CleanBay) : (s.setClean b f).phase = s.phase := rfl
@[simp] theorem State.setClean_now (s : State) (b : BayId) (f : CleanBay → CleanBay) : (s.setClean b f).now = s.now := rfl
@[simp] theorem State.setClean_pins (s : State) (b : BayId) (f : CleanBay → CleanBay) : (s.setClean b f).pins = s.pins := rfl
@[simp] theorem State.setClean_reg (s : State) (b : BayId) (f : CleanBay → CleanBay) : (s.setClean b f).reg = s.reg := rfl
@[simp] theorem State.setClean_line (s : State) (b : BayId) (f : CleanBay → CleanBay) : (s.setClean b f).line = s.line := rfl
@[simp] theorem State.setClean_store (s : State) (b : BayId) (f : CleanBay → CleanBay) : (s.setClean b f).store = s.store := rfl
@[simp] theorem State.setClean_lib (s : State) (b : BayId) (f : CleanBay → CleanBay) : (s.setClean b f).lib = s.lib := rfl
@[simp] theorem State.setClean_runs (s : State) (b : BayId) (f : CleanBay → CleanBay) : (s.setClean b f).runs = s.runs := rfl
@[simp] theorem State.setClean_heat (s : State) (b : BayId) (f : CleanBay → CleanBay) : (s.setClean b f).heat = s.heat := rfl
@[simp] theorem State.setClean_clean (s : State) (b : BayId) (f : CleanBay → CleanBay) : (s.setClean b f).clean = upd s.clean b f := rfl
@[simp] theorem State.setClean_clock (s : State) (b : BayId) (f : CleanBay → CleanBay) : (s.setClean b f).clock = s.clock := rfl
@[simp] theorem State.setClean_sched (s : State) (b : BayId) (f : CleanBay → CleanBay) : (s.setClean b f).sched = s.sched := rfl
@[simp] theorem State.setClean_mon (s : State) (b : BayId) (f : CleanBay → CleanBay) : (s.setClean b f).mon = s.mon := rfl
@[simp] theorem State.setClean_dist (s : State) (b : BayId) (f : CleanBay → CleanBay) : (s.setClean b f).dist = s.dist := rfl
@[simp] theorem State.setClean_host (s : State) (b : BayId) (f : CleanBay → CleanBay) : (s.setClean b f).host = s.host := rfl

@[simp] theorem State.setCleanRec_pending (s : State) (b : BayId) (f : CleanRec → CleanRec) : (s.setCleanRec b f).pending = s.pending := rfl
@[simp] theorem State.setCleanRec_phase (s : State) (b : BayId) (f : CleanRec → CleanRec) : (s.setCleanRec b f).phase = s.phase := rfl
@[simp] theorem State.setCleanRec_now (s : State) (b : BayId) (f : CleanRec → CleanRec) : (s.setCleanRec b f).now = s.now := rfl
@[simp] theorem State.setCleanRec_pins (s : State) (b : BayId) (f : CleanRec → CleanRec) : (s.setCleanRec b f).pins = s.pins := rfl
@[simp] theorem State.setCleanRec_reg (s : State) (b : BayId) (f : CleanRec → CleanRec) : (s.setCleanRec b f).reg = s.reg := rfl
@[simp] theorem State.setCleanRec_line (s : State) (b : BayId) (f : CleanRec → CleanRec) : (s.setCleanRec b f).line = s.line := rfl
@[simp] theorem State.setCleanRec_store (s : State) (b : BayId) (f : CleanRec → CleanRec) : (s.setCleanRec b f).store = s.store := rfl
@[simp] theorem State.setCleanRec_lib (s : State) (b : BayId) (f : CleanRec → CleanRec) : (s.setCleanRec b f).lib = s.lib := rfl
@[simp] theorem State.setCleanRec_runs (s : State) (b : BayId) (f : CleanRec → CleanRec) : (s.setCleanRec b f).runs = s.runs := rfl
@[simp] theorem State.setCleanRec_heat (s : State) (b : BayId) (f : CleanRec → CleanRec) : (s.setCleanRec b f).heat = s.heat := rfl
@[simp] theorem State.setCleanRec_clean (s : State) (b : BayId) (f : CleanRec → CleanRec) : (s.setCleanRec b f).clean = upd s.clean b (fun c => { c with record := c.record.map f }) := rfl
@[simp] theorem State.setCleanRec_clock (s : State) (b : BayId) (f : CleanRec → CleanRec) : (s.setCleanRec b f).clock = s.clock := rfl
@[simp] theorem State.setCleanRec_sched (s : State) (b : BayId) (f : CleanRec → CleanRec) : (s.setCleanRec b f).sched = s.sched := rfl
@[simp] theorem State.setCleanRec_mon (s : State) (b : BayId) (f : CleanRec → CleanRec) : (s.setCleanRec b f).mon = s.mon := rfl
@[simp] theorem State.setCleanRec_dist (s : State) (b : BayId) (f : CleanRec → CleanRec) : (s.setCleanRec b f).dist = s.dist := rfl
@[simp] theorem State.setCleanRec_host (s : State) (b : BayId) (f : CleanRec → CleanRec) : (s.setCleanRec b f).host = s.host := rfl

@[simp] theorem State.setMon_pending (s : State) (b : BayId) (f : MonBay → MonBay) : (s.setMon b f).pending = s.pending := rfl
@[simp] theorem State.setMon_phase (s : State) (b : BayId) (f : MonBay → MonBay) : (s.setMon b f).phase = s.phase := rfl
@[simp] theorem State.setMon_now (s : State) (b : BayId) (f : MonBay → MonBay) : (s.setMon b f).now = s.now := rfl
@[simp] theorem State.setMon_pins (s : State) (b : BayId) (f : MonBay → MonBay) : (s.setMon b f).pins = s.pins := rfl
@[simp] theorem State.setMon_reg (s : State) (b : BayId) (f : MonBay → MonBay) : (s.setMon b f).reg = s.reg := rfl
@[simp] theorem State.setMon_line (s : State) (b : BayId) (f : MonBay → MonBay) : (s.setMon b f).line = s.line := rfl
@[simp] theorem State.setMon_store (s : State) (b : BayId) (f : MonBay → MonBay) : (s.setMon b f).store = s.store := rfl
@[simp] theorem State.setMon_lib (s : State) (b : BayId) (f : MonBay → MonBay) : (s.setMon b f).lib = s.lib := rfl
@[simp] theorem State.setMon_runs (s : State) (b : BayId) (f : MonBay → MonBay) : (s.setMon b f).runs = s.runs := rfl
@[simp] theorem State.setMon_heat (s : State) (b : BayId) (f : MonBay → MonBay) : (s.setMon b f).heat = s.heat := rfl
@[simp] theorem State.setMon_clean (s : State) (b : BayId) (f : MonBay → MonBay) : (s.setMon b f).clean = s.clean := rfl
@[simp] theorem State.setMon_clock (s : State) (b : BayId) (f : MonBay → MonBay) : (s.setMon b f).clock = s.clock := rfl
@[simp] theorem State.setMon_sched (s : State) (b : BayId) (f : MonBay → MonBay) : (s.setMon b f).sched = s.sched := rfl
@[simp] theorem State.setMon_mon (s : State) (b : BayId) (f : MonBay → MonBay) : (s.setMon b f).mon = { s.mon with bays := upd s.mon.bays b f } := rfl
@[simp] theorem State.setMon_dist (s : State) (b : BayId) (f : MonBay → MonBay) : (s.setMon b f).dist = s.dist := rfl
@[simp] theorem State.setMon_host (s : State) (b : BayId) (f : MonBay → MonBay) : (s.setMon b f).host = s.host := rfl

@[simp] theorem State.setSlot_pending (s : State) (k : Fin 4) (f : Slot → Slot) : (s.setSlot k f).pending = s.pending := rfl
@[simp] theorem State.setSlot_phase (s : State) (k : Fin 4) (f : Slot → Slot) : (s.setSlot k f).phase = s.phase := rfl
@[simp] theorem State.setSlot_now (s : State) (k : Fin 4) (f : Slot → Slot) : (s.setSlot k f).now = s.now := rfl
@[simp] theorem State.setSlot_pins (s : State) (k : Fin 4) (f : Slot → Slot) : (s.setSlot k f).pins = s.pins := rfl
@[simp] theorem State.setSlot_reg (s : State) (k : Fin 4) (f : Slot → Slot) : (s.setSlot k f).reg = s.reg := rfl
@[simp] theorem State.setSlot_line (s : State) (k : Fin 4) (f : Slot → Slot) : (s.setSlot k f).line = s.line := rfl
@[simp] theorem State.setSlot_store (s : State) (k : Fin 4) (f : Slot → Slot) : (s.setSlot k f).store = s.store := rfl
@[simp] theorem State.setSlot_lib (s : State) (k : Fin 4) (f : Slot → Slot) : (s.setSlot k f).lib = s.lib := rfl
@[simp] theorem State.setSlot_runs (s : State) (k : Fin 4) (f : Slot → Slot) : (s.setSlot k f).runs = s.runs := rfl
@[simp] theorem State.setSlot_heat (s : State) (k : Fin 4) (f : Slot → Slot) : (s.setSlot k f).heat = s.heat := rfl
@[simp] theorem State.setSlot_clean (s : State) (k : Fin 4) (f : Slot → Slot) : (s.setSlot k f).clean = s.clean := rfl
@[simp] theorem State.setSlot_clock (s : State) (k : Fin 4) (f : Slot → Slot) : (s.setSlot k f).clock = s.clock := rfl
@[simp] theorem State.setSlot_sched (s : State) (k : Fin 4) (f : Slot → Slot) : (s.setSlot k f).sched = s.sched := rfl
@[simp] theorem State.setSlot_mon (s : State) (k : Fin 4) (f : Slot → Slot) : (s.setSlot k f).mon = s.mon := rfl
@[simp] theorem State.setSlot_dist (s : State) (k : Fin 4) (f : Slot → Slot) : (s.setSlot k f).dist = { s.dist with slots := upd s.dist.slots k f } := rfl
@[simp] theorem State.setSlot_host (s : State) (k : Fin 4) (f : Slot → Slot) : (s.setSlot k f).host = s.host := rfl

@[simp] theorem State.setChannel_pending (s : State) (c : Fin 4) (f : Channel → Channel) : (s.setChannel c f).pending = s.pending := rfl
@[simp] theorem State.setChannel_phase (s : State) (c : Fin 4) (f : Channel → Channel) : (s.setChannel c f).phase = s.phase := rfl
@[simp] theorem State.setChannel_now (s : State) (c : Fin 4) (f : Channel → Channel) : (s.setChannel c f).now = s.now := rfl
@[simp] theorem State.setChannel_pins (s : State) (c : Fin 4) (f : Channel → Channel) : (s.setChannel c f).pins = s.pins := rfl
@[simp] theorem State.setChannel_reg (s : State) (c : Fin 4) (f : Channel → Channel) : (s.setChannel c f).reg = s.reg := rfl
@[simp] theorem State.setChannel_line (s : State) (c : Fin 4) (f : Channel → Channel) : (s.setChannel c f).line = s.line := rfl
@[simp] theorem State.setChannel_store (s : State) (c : Fin 4) (f : Channel → Channel) : (s.setChannel c f).store = s.store := rfl
@[simp] theorem State.setChannel_lib (s : State) (c : Fin 4) (f : Channel → Channel) : (s.setChannel c f).lib = s.lib := rfl
@[simp] theorem State.setChannel_runs (s : State) (c : Fin 4) (f : Channel → Channel) : (s.setChannel c f).runs = s.runs := rfl
@[simp] theorem State.setChannel_heat (s : State) (c : Fin 4) (f : Channel → Channel) : (s.setChannel c f).heat = s.heat := rfl
@[simp] theorem State.setChannel_clean (s : State) (c : Fin 4) (f : Channel → Channel) : (s.setChannel c f).clean = s.clean := rfl
@[simp] theorem State.setChannel_clock (s : State) (c : Fin 4) (f : Channel → Channel) : (s.setChannel c f).clock = s.clock := rfl
@[simp] theorem State.setChannel_sched (s : State) (c : Fin 4) (f : Channel → Channel) : (s.setChannel c f).sched = s.sched := rfl
@[simp] theorem State.setChannel_mon (s : State) (c : Fin 4) (f : Channel → Channel) : (s.setChannel c f).mon = s.mon := rfl
@[simp] theorem State.setChannel_dist (s : State) (c : Fin 4) (f : Channel → Channel) : (s.setChannel c f).dist = { s.dist with channels := upd s.dist.channels c f } := rfl
@[simp] theorem State.setChannel_host (s : State) (c : Fin 4) (f : Channel → Channel) : (s.setChannel c f).host = s.host := rfl

@[simp] theorem State.tick_pending (s : State) : s.tick.pending = s.pending := rfl
@[simp] theorem State.tick_phase (s : State) : s.tick.phase = s.phase := rfl
@[simp] theorem State.tick_pins (s : State) : s.tick.pins = s.pins := rfl
@[simp] theorem State.tick_reg (s : State) : s.tick.reg = s.reg := rfl
@[simp] theorem State.tick_line (s : State) : s.tick.line = s.line := rfl
@[simp] theorem State.tick_store (s : State) : s.tick.store = s.store := rfl
@[simp] theorem State.tick_lib (s : State) : s.tick.lib = s.lib := rfl
@[simp] theorem State.tick_runs (s : State) : s.tick.runs = s.runs := rfl
@[simp] theorem State.tick_heat (s : State) : s.tick.heat = s.heat := rfl
@[simp] theorem State.tick_clean (s : State) : s.tick.clean = s.clean := rfl
@[simp] theorem State.tick_clock (s : State) : s.tick.clock = s.clock := rfl
@[simp] theorem State.tick_sched (s : State) : s.tick.sched = s.sched := rfl
@[simp] theorem State.tick_mon (s : State) : s.tick.mon = s.mon := rfl
@[simp] theorem State.tick_dist (s : State) : s.tick.dist = s.dist := rfl
@[simp] theorem State.tick_host (s : State) : s.tick.host = s.host := rfl

@[simp] theorem State.setReg_sec (s : State) (b : BayId) (f : RegBay → RegBay) : (s.setReg b f).sec = s.sec := rfl
@[simp] theorem State.setLine_sec (s : State) (b : BayId) (f : LineBay → LineBay) : (s.setLine b f).sec = s.sec := rfl
@[simp] theorem State.setRun_sec (s : State) (b : BayId) (f : Run → Run) : (s.setRun b f).sec = s.sec := rfl
@[simp] theorem State.setHeat_sec (s : State) (b : BayId) (f : HeatBay → HeatBay) : (s.setHeat b f).sec = s.sec := rfl
@[simp] theorem State.setClean_sec (s : State) (b : BayId) (f : CleanBay → CleanBay) : (s.setClean b f).sec = s.sec := rfl
@[simp] theorem State.setMon_sec (s : State) (b : BayId) (f : MonBay → MonBay) : (s.setMon b f).sec = s.sec := rfl

end Sys2Proof.Machine
end

