-- ==== Sys2Proof/Laws/FramesOps.lean ====
section
/-! SUPPORT. What the named operations leave alone: orders, notices, writes. -/

namespace Sys2Proof.Machine

open Sys2Proof

@[simp] theorem State.each_pending {α : Type} (s : State) (l : List α) (g : α → State → State)
    (h : ∀ a t, (g a t).pending = t.pending) : (s.each l g).pending = s.pending := State.each_same (fun t => t.pending) l g h s

@[simp] theorem State.each_phase {α : Type} (s : State) (l : List α) (g : α → State → State)
    (h : ∀ a t, (g a t).phase = t.phase) : (s.each l g).phase = s.phase := State.each_same (fun t => t.phase) l g h s

@[simp] theorem State.each_now {α : Type} (s : State) (l : List α) (g : α → State → State)
    (h : ∀ a t, (g a t).now = t.now) : (s.each l g).now = s.now := State.each_same (fun t => t.now) l g h s

@[simp] theorem State.each_pins {α : Type} (s : State) (l : List α) (g : α → State → State)
    (h : ∀ a t, (g a t).pins = t.pins) : (s.each l g).pins = s.pins := State.each_same (fun t => t.pins) l g h s

@[simp] theorem State.each_reg {α : Type} (s : State) (l : List α) (g : α → State → State)
    (h : ∀ a t, (g a t).reg = t.reg) : (s.each l g).reg = s.reg := State.each_same (fun t => t.reg) l g h s

@[simp] theorem State.each_line {α : Type} (s : State) (l : List α) (g : α → State → State)
    (h : ∀ a t, (g a t).line = t.line) : (s.each l g).line = s.line := State.each_same (fun t => t.line) l g h s

@[simp] theorem State.each_store {α : Type} (s : State) (l : List α) (g : α → State → State)
    (h : ∀ a t, (g a t).store = t.store) : (s.each l g).store = s.store := State.each_same (fun t => t.store) l g h s

@[simp] theorem State.each_lib {α : Type} (s : State) (l : List α) (g : α → State → State)
    (h : ∀ a t, (g a t).lib = t.lib) : (s.each l g).lib = s.lib := State.each_same (fun t => t.lib) l g h s

@[simp] theorem State.each_runs {α : Type} (s : State) (l : List α) (g : α → State → State)
    (h : ∀ a t, (g a t).runs = t.runs) : (s.each l g).runs = s.runs := State.each_same (fun t => t.runs) l g h s

@[simp] theorem State.each_heat {α : Type} (s : State) (l : List α) (g : α → State → State)
    (h : ∀ a t, (g a t).heat = t.heat) : (s.each l g).heat = s.heat := State.each_same (fun t => t.heat) l g h s

@[simp] theorem State.each_clean {α : Type} (s : State) (l : List α) (g : α → State → State)
    (h : ∀ a t, (g a t).clean = t.clean) : (s.each l g).clean = s.clean := State.each_same (fun t => t.clean) l g h s

@[simp] theorem State.each_clock {α : Type} (s : State) (l : List α) (g : α → State → State)
    (h : ∀ a t, (g a t).clock = t.clock) : (s.each l g).clock = s.clock := State.each_same (fun t => t.clock) l g h s

@[simp] theorem State.each_sched {α : Type} (s : State) (l : List α) (g : α → State → State)
    (h : ∀ a t, (g a t).sched = t.sched) : (s.each l g).sched = s.sched := State.each_same (fun t => t.sched) l g h s

@[simp] theorem State.each_mon {α : Type} (s : State) (l : List α) (g : α → State → State)
    (h : ∀ a t, (g a t).mon = t.mon) : (s.each l g).mon = s.mon := State.each_same (fun t => t.mon) l g h s

@[simp] theorem State.each_dist {α : Type} (s : State) (l : List α) (g : α → State → State)
    (h : ∀ a t, (g a t).dist = t.dist) : (s.each l g).dist = s.dist := State.each_same (fun t => t.dist) l g h s

@[simp] theorem State.each_host {α : Type} (s : State) (l : List α) (g : α → State → State)
    (h : ∀ a t, (g a t).host = t.host) : (s.each l g).host = s.host := State.each_same (fun t => t.host) l g h s

@[simp] theorem State.each_host_tx {α : Type} (s : State) (l : List α) (g : α → State → State)
    (h : ∀ a t, (g a t).host.tx = t.host.tx) : (s.each l g).host.tx = s.host.tx := State.each_same (fun t => t.host.tx) l g h s

@[simp] theorem State.each_host_inHand {α : Type} (s : State) (l : List α) (g : α → State → State)
    (h : ∀ a t, (g a t).host.inHand = t.host.inHand) : (s.each l g).host.inHand = s.host.inHand := State.each_same (fun t => t.host.inHand) l g h s

@[simp] theorem State.each_host_waiting {α : Type} (s : State) (l : List α) (g : α → State → State)
    (h : ∀ a t, (g a t).host.waiting = t.host.waiting) : (s.each l g).host.waiting = s.host.waiting := State.each_same (fun t => t.host.waiting) l g h s

@[simp] theorem State.each_host_restarting {α : Type} (s : State) (l : List α) (g : α → State → State)
    (h : ∀ a t, (g a t).host.restarting = t.host.restarting) : (s.each l g).host.restarting = s.host.restarting := State.each_same (fun t => t.host.restarting) l g h s

@[simp] theorem State.each_host_sent {α : Type} (s : State) (l : List α) (g : α → State → State)
    (h : ∀ a t, (g a t).host.sent = t.host.sent) : (s.each l g).host.sent = s.host.sent := State.each_same (fun t => t.host.sent) l g h s

@[simp] theorem State.each_host_lost {α : Type} (s : State) (l : List α) (g : α → State → State)
    (h : ∀ a t, (g a t).host.lost = t.host.lost) : (s.each l g).host.lost = s.host.lost := State.each_same (fun t => t.host.lost) l g h s

@[simp] theorem State.each_host_lostFirst {α : Type} (s : State) (l : List α) (g : α → State → State)
    (h : ∀ a t, (g a t).host.lostFirst = t.host.lostFirst) : (s.each l g).host.lostFirst = s.host.lostFirst := State.each_same (fun t => t.host.lostFirst) l g h s

@[simp] theorem State.each_line_exchange {α : Type} (s : State) (l : List α) (g : α → State → State)
    (h : ∀ a t, (g a t).line.exchange = t.line.exchange) : (s.each l g).line.exchange = s.line.exchange := State.each_same (fun t => t.line.exchange) l g h s

@[simp] theorem State.each_line_cursor {α : Type} (s : State) (l : List α) (g : α → State → State)
    (h : ∀ a t, (g a t).line.cursor = t.line.cursor) : (s.each l g).line.cursor = s.line.cursor := State.each_same (fun t => t.line.cursor) l g h s

@[simp] theorem State.each_line_boundary {α : Type} (s : State) (l : List α) (g : α → State → State)
    (h : ∀ a t, (g a t).line.boundary = t.line.boundary) : (s.each l g).line.boundary = s.line.boundary := State.each_same (fun t => t.line.boundary) l g h s

@[simp] theorem State.each_line_extraAfter {α : Type} (s : State) (l : List α) (g : α → State → State)
    (h : ∀ a t, (g a t).line.extraAfter = t.line.extraAfter) : (s.each l g).line.extraAfter = s.line.extraAfter := State.each_same (fun t => t.line.extraAfter) l g h s

@[simp] theorem State.each_line_extraOver {α : Type} (s : State) (l : List α) (g : α → State → State)
    (h : ∀ a t, (g a t).line.extraOver = t.line.extraOver) : (s.each l g).line.extraOver = s.line.extraOver := State.each_same (fun t => t.line.extraOver) l g h s

@[simp] theorem State.each_heat_limit {α : Type} (s : State) (l : List α) (g : α → State → State)
    (h : ∀ a t, (g a t).heat.limit = t.heat.limit) : (s.each l g).heat.limit = s.heat.limit := State.each_same (fun t => t.heat.limit) l g h s

@[simp] theorem State.each_heat_idleTime {α : Type} (s : State) (l : List α) (g : α → State → State)
    (h : ∀ a t, (g a t).heat.idleTime = t.heat.idleTime) : (s.each l g).heat.idleTime = s.heat.idleTime := State.each_same (fun t => t.heat.idleTime) l g h s

@[simp] theorem State.each_runs_doorGrace {α : Type} (s : State) (l : List α) (g : α → State → State)
    (h : ∀ a t, (g a t).runs.doorGrace = t.runs.doorGrace) : (s.each l g).runs.doorGrace = s.runs.doorGrace := State.each_same (fun t => t.runs.doorGrace) l g h s

@[simp] theorem State.each_runs_nextId {α : Type} (s : State) (l : List α) (g : α → State → State)
    (h : ∀ a t, (g a t).runs.nextId = t.runs.nextId) : (s.each l g).runs.nextId = s.runs.nextId := State.each_same (fun t => t.runs.nextId) l g h s

@[simp] theorem State.each_mon_settings {α : Type} (s : State) (l : List α) (g : α → State → State)
    (h : ∀ a t, (g a t).mon.settings = t.mon.settings) : (s.each l g).mon.settings = s.mon.settings := State.each_same (fun t => t.mon.settings) l g h s

@[simp] theorem State.each_store_staging {α : Type} (s : State) (l : List α) (g : α → State → State)
    (h : ∀ a t, (g a t).store.staging = t.store.staging) : (s.each l g).store.staging = s.store.staging := State.each_same (fun t => t.store.staging) l g h s

@[simp] theorem State.each_store_profile {α : Type} (s : State) (l : List α) (g : α → State → State)
    (h : ∀ a t, (g a t).store.profile = t.store.profile) : (s.each l g).store.profile = s.store.profile := State.each_same (fun t => t.store.profile) l g h s

@[simp] theorem State.each_store_hygiene {α : Type} (s : State) (l : List α) (g : α → State → State)
    (h : ∀ a t, (g a t).store.hygiene = t.store.hygiene) : (s.each l g).store.hygiene = s.store.hygiene := State.each_same (fun t => t.store.hygiene) l g h s

@[simp] theorem State.each_store_library {α : Type} (s : State) (l : List α) (g : α → State → State)
    (h : ∀ a t, (g a t).store.library = t.store.library) : (s.each l g).store.library = s.store.library := State.each_same (fun t => t.store.library) l g h s

@[simp] theorem State.each_store_headers {α : Type} (s : State) (l : List α) (g : α → State → State)
    (h : ∀ a t, (g a t).store.headers = t.store.headers) : (s.each l g).store.headers = s.store.headers := State.each_same (fun t => t.store.headers) l g h s

/-- A plain order has nothing recorded at its placement. -/
@[simp] theorem applyNote_plain (b : BayId) (body : OrderBody) (id : Nat) (s : State) : applyNote b body .plain id s = s := by
  cases body <;> rfl

/-- An order of no special note touches no record but the bay's line. -/
@[simp] theorem placeOrder_plain (b : BayId) (body : OrderBody) (s : State) :
    (placeOrder b body .plain s).runs = s.runs ∧ (placeOrder b body .plain s).clean = s.clean ∧
    (placeOrder b body .plain s).dist = s.dist := by
  unfold placeOrder
  dsimp only
  simp only [applyNote_plain]
  repeat' split
  all_goals simp

@[simp] theorem queueNotice_frame (kind : NoticeKind) (fields : List Tok) (s : State) :
    (queueNotice kind fields s).pending = s.pending ∧
    (queueNotice kind fields s).phase = s.phase ∧
    (queueNotice kind fields s).now = s.now ∧
    (queueNotice kind fields s).pins = s.pins ∧
    (queueNotice kind fields s).reg = s.reg ∧
    (queueNotice kind fields s).line = s.line ∧
    (queueNotice kind fields s).store = s.store ∧
    (queueNotice kind fields s).lib = s.lib ∧
    (queueNotice kind fields s).runs = s.runs ∧
    (queueNotice kind fields s).heat = s.heat ∧
    (queueNotice kind fields s).clean = s.clean ∧
    (queueNotice kind fields s).clock = s.clock ∧
    (queueNotice kind fields s).sched = s.sched ∧
    (queueNotice kind fields s).mon = s.mon ∧
    (queueNotice kind fields s).dist = s.dist ∧
    (queueNotice kind fields s).host.tx = s.host.tx ∧
    (queueNotice kind fields s).host.inHand = s.host.inHand ∧
    (queueNotice kind fields s).host.waiting = s.host.waiting ∧
    (queueNotice kind fields s).host.restarting = s.host.restarting ∧
    (queueNotice kind fields s).host.sent = s.host.sent ∧
    (queueNotice kind fields s).host.lost = s.host.lost ∧
    (queueNotice kind fields s).host.lostFirst = s.host.lostFirst := by
  unfold queueNotice
  repeat' split
  all_goals simp

@[simp] theorem beginWrite_frame (s : State) :
    (beginWrite s).pending = s.pending ∧
    (beginWrite s).phase = s.phase ∧
    (beginWrite s).now = s.now ∧
    (beginWrite s).pins = s.pins ∧
    (beginWrite s).reg = s.reg ∧
    (beginWrite s).line = s.line ∧
    (beginWrite s).lib = s.lib ∧
    (beginWrite s).runs = s.runs ∧
    (beginWrite s).heat = s.heat ∧
    (beginWrite s).clean = s.clean ∧
    (beginWrite s).clock = s.clock ∧
    (beginWrite s).sched = s.sched ∧
    (beginWrite s).mon = s.mon ∧
    (beginWrite s).dist = s.dist ∧
    (beginWrite s).host = s.host ∧
    (beginWrite s).store.staging = s.store.staging ∧
    (beginWrite s).store.profile = s.store.profile ∧
    (beginWrite s).store.hygiene = s.store.hygiene ∧
    (beginWrite s).store.library = s.store.library ∧
    (beginWrite s).store.headers = s.store.headers := by
  unfold beginWrite
  repeat' split
  all_goals simp

@[simp] theorem storeRecord_frame (p : Partition) (pos : Nat) (content : Option StoreRec) (s : State) :
    (storeRecord p pos content s).pending = s.pending ∧
    (storeRecord p pos content s).phase = s.phase ∧
    (storeRecord p pos content s).now = s.now ∧
    (storeRecord p pos content s).pins = s.pins ∧
    (storeRecord p pos content s).reg = s.reg ∧
    (storeRecord p pos content s).line = s.line ∧
    (storeRecord p pos content s).lib = s.lib ∧
    (storeRecord p pos content s).runs = s.runs ∧
    (storeRecord p pos content s).heat = s.heat ∧
    (storeRecord p pos content s).clean = s.clean ∧
    (storeRecord p pos content s).clock = s.clock ∧
    (storeRecord p pos content s).sched = s.sched ∧
    (storeRecord p pos content s).mon = s.mon ∧
    (storeRecord p pos content s).dist = s.dist ∧
    (storeRecord p pos content s).host = s.host ∧
    (storeRecord p pos content s).store.staging = s.store.staging ∧
    (storeRecord p pos content s).store.profile = s.store.profile ∧
    (storeRecord p pos content s).store.hygiene = s.store.hygiene ∧
    (storeRecord p pos content s).store.library = s.store.library ∧
    (storeRecord p pos content s).store.headers = s.store.headers := by
  unfold storeRecord
  repeat' split
  all_goals simp

@[simp] theorem storePut_frame (r : StoreRec) (s : State) :
    (storePut r s).pending = s.pending ∧
    (storePut r s).phase = s.phase ∧
    (storePut r s).now = s.now ∧
    (storePut r s).pins = s.pins ∧
    (storePut r s).reg = s.reg ∧
    (storePut r s).line = s.line ∧
    (storePut r s).lib = s.lib ∧
    (storePut r s).runs = s.runs ∧
    (storePut r s).heat = s.heat ∧
    (storePut r s).clean = s.clean ∧
    (storePut r s).clock = s.clock ∧
    (storePut r s).sched = s.sched ∧
    (storePut r s).mon = s.mon ∧
    (storePut r s).dist = s.dist ∧
    (storePut r s).host = s.host ∧
    (storePut r s).store.staging = s.store.staging ∧
    (storePut r s).store.profile = s.store.profile ∧
    (storePut r s).store.hygiene = s.store.hygiene ∧
    (storePut r s).store.library = s.store.library ∧
    (storePut r s).store.headers = s.store.headers := by
  simp [storePut]

@[simp] theorem storeSealHeader_frame (k : Fin 4) (h : Header) (s : State) :
    (storeSealHeader k h s).pending = s.pending ∧
    (storeSealHeader k h s).phase = s.phase ∧
    (storeSealHeader k h s).now = s.now ∧
    (storeSealHeader k h s).pins = s.pins ∧
    (storeSealHeader k h s).reg = s.reg ∧
    (storeSealHeader k h s).line = s.line ∧
    (storeSealHeader k h s).lib = s.lib ∧
    (storeSealHeader k h s).runs = s.runs ∧
    (storeSealHeader k h s).heat = s.heat ∧
    (storeSealHeader k h s).clean = s.clean ∧
    (storeSealHeader k h s).clock = s.clock ∧
    (storeSealHeader k h s).sched = s.sched ∧
    (storeSealHeader k h s).mon = s.mon ∧
    (storeSealHeader k h s).dist = s.dist ∧
    (storeSealHeader k h s).host = s.host ∧
    (storeSealHeader k h s).store.staging = s.store.staging ∧
    (storeSealHeader k h s).store.profile = s.store.profile ∧
    (storeSealHeader k h s).store.hygiene = s.store.hygiene ∧
    (storeSealHeader k h s).store.library = s.store.library ∧
    (storeSealHeader k h s).store.headers = s.store.headers := by
  simp [storeSealHeader]

@[simp] theorem storeStaging_frame (x : Write) (s : State) :
    (storeStaging x s).pending = s.pending ∧
    (storeStaging x s).phase = s.phase ∧
    (storeStaging x s).now = s.now ∧
    (storeStaging x s).pins = s.pins ∧
    (storeStaging x s).reg = s.reg ∧
    (storeStaging x s).line = s.line ∧
    (storeStaging x s).lib = s.lib ∧
    (storeStaging x s).runs = s.runs ∧
    (storeStaging x s).heat = s.heat ∧
    (storeStaging x s).clean = s.clean ∧
    (storeStaging x s).clock = s.clock ∧
    (storeStaging x s).sched = s.sched ∧
    (storeStaging x s).mon = s.mon ∧
    (storeStaging x s).dist = s.dist ∧
    (storeStaging x s).host = s.host ∧
    (storeStaging x s).store.staging = s.store.staging ∧
    (storeStaging x s).store.profile = s.store.profile ∧
    (storeStaging x s).store.hygiene = s.store.hygiene ∧
    (storeStaging x s).store.library = s.store.library ∧
    (storeStaging x s).store.headers = s.store.headers := by
  simp [storeStaging]

@[simp] theorem applyNote_frame (b : BayId) (body : OrderBody) (note : Note) (id : Nat) (s : State) :
    (applyNote b body note id s).pending = s.pending ∧
    (applyNote b body note id s).phase = s.phase ∧
    (applyNote b body note id s).now = s.now ∧
    (applyNote b body note id s).pins = s.pins ∧
    (applyNote b body note id s).reg = s.reg ∧
    (applyNote b body note id s).store = s.store ∧
    (applyNote b body note id s).lib = s.lib ∧
    (applyNote b body note id s).heat = s.heat ∧
    (applyNote b body note id s).clock = s.clock ∧
    (applyNote b body note id s).sched = s.sched ∧
    (applyNote b body note id s).mon = s.mon ∧
    (applyNote b body note id s).host = s.host ∧
    (applyNote b body note id s).line.exchange = s.line.exchange ∧
    (applyNote b body note id s).line.cursor = s.line.cursor ∧
    (applyNote b body note id s).line.boundary = s.line.boundary ∧
    (applyNote b body note id s).line.extraAfter = s.line.extraAfter ∧
    (applyNote b body note id s).line.extraOver = s.line.extraOver ∧
    (applyNote b body note id s).runs.doorGrace = s.runs.doorGrace ∧
    (applyNote b body note id s).runs.nextId = s.runs.nextId := by
  unfold applyNote
  repeat' split
  all_goals simp

@[simp] theorem placeOrder_frame (b : BayId) (body : OrderBody) (note : Note) (s : State) :
    (placeOrder b body note s).pending = s.pending ∧
    (placeOrder b body note s).phase = s.phase ∧
    (placeOrder b body note s).now = s.now ∧
    (placeOrder b body note s).pins = s.pins ∧
    (placeOrder b body note s).reg = s.reg ∧
    (placeOrder b body note s).store = s.store ∧
    (placeOrder b body note s).lib = s.lib ∧
    (placeOrder b body note s).heat = s.heat ∧
    (placeOrder b body note s).clock = s.clock ∧
    (placeOrder b body note s).sched = s.sched ∧
    (placeOrder b body note s).mon = s.mon ∧
    (placeOrder b body note s).host = s.host ∧
    (placeOrder b body note s).line.exchange = s.line.exchange ∧
    (placeOrder b body note s).line.cursor = s.line.cursor ∧
    (placeOrder b body note s).line.boundary = s.line.boundary ∧
    (placeOrder b body note s).line.extraAfter = s.line.extraAfter ∧
    (placeOrder b body note s).line.extraOver = s.line.extraOver ∧
    (placeOrder b body note s).runs.doorGrace = s.runs.doorGrace ∧
    (placeOrder b body note s).runs.nextId = s.runs.nextId := by
  unfold placeOrder
  dsimp only
  repeat' split
  all_goals simp

@[simp] theorem offerHeld_frame (b : BayId) (s : State) :
    (offerHeld b s).pending = s.pending ∧
    (offerHeld b s).phase = s.phase ∧
    (offerHeld b s).now = s.now ∧
    (offerHeld b s).pins = s.pins ∧
    (offerHeld b s).reg = s.reg ∧
    (offerHeld b s).store = s.store ∧
    (offerHeld b s).lib = s.lib ∧
    (offerHeld b s).heat = s.heat ∧
    (offerHeld b s).clock = s.clock ∧
    (offerHeld b s).sched = s.sched ∧
    (offerHeld b s).mon = s.mon ∧
    (offerHeld b s).host = s.host ∧
    (offerHeld b s).line.exchange = s.line.exchange ∧
    (offerHeld b s).line.cursor = s.line.cursor ∧
    (offerHeld b s).line.boundary = s.line.boundary ∧
    (offerHeld b s).line.extraAfter = s.line.extraAfter ∧
    (offerHeld b s).line.extraOver = s.line.extraOver ∧
    (offerHeld b s).runs.doorGrace = s.runs.doorGrace ∧
    (offerHeld b s).runs.nextId = s.runs.nextId := by
  unfold offerHeld
  simp

@[simp] theorem withdraw_frame (b : BayId) (kinds : List OrderKind) (s : State) :
    (withdraw b kinds s).pending = s.pending ∧
    (withdraw b kinds s).phase = s.phase ∧
    (withdraw b kinds s).now = s.now ∧
    (withdraw b kinds s).pins = s.pins ∧
    (withdraw b kinds s).reg = s.reg ∧
    (withdraw b kinds s).store = s.store ∧
    (withdraw b kinds s).lib = s.lib ∧
    (withdraw b kinds s).heat = s.heat ∧
    (withdraw b kinds s).clock = s.clock ∧
    (withdraw b kinds s).sched = s.sched ∧
    (withdraw b kinds s).mon = s.mon ∧
    (withdraw b kinds s).host = s.host ∧
    (withdraw b kinds s).line.exchange = s.line.exchange ∧
    (withdraw b kinds s).line.cursor = s.line.cursor ∧
    (withdraw b kinds s).line.boundary = s.line.boundary ∧
    (withdraw b kinds s).line.extraAfter = s.line.extraAfter ∧
    (withdraw b kinds s).line.extraOver = s.line.extraOver ∧
    (withdraw b kinds s).runs.doorGrace = s.runs.doorGrace ∧
    (withdraw b kinds s).runs.nextId = s.runs.nextId := by
  simp [withdraw]

@[simp] theorem emptyQueue_frame (b : BayId) (s : State) :
    (emptyQueue b s).pending = s.pending ∧
    (emptyQueue b s).phase = s.phase ∧
    (emptyQueue b s).now = s.now ∧
    (emptyQueue b s).pins = s.pins ∧
    (emptyQueue b s).reg = s.reg ∧
    (emptyQueue b s).store = s.store ∧
    (emptyQueue b s).lib = s.lib ∧
    (emptyQueue b s).runs = s.runs ∧
    (emptyQueue b s).heat = s.heat ∧
    (emptyQueue b s).clean = s.clean ∧
    (emptyQueue b s).clock = s.clock ∧
    (emptyQueue b s).sched = s.sched ∧
    (emptyQueue b s).mon = s.mon ∧
    (emptyQueue b s).dist = s.dist ∧
    (emptyQueue b s).host = s.host ∧
    (emptyQueue b s).line.exchange = s.line.exchange ∧
    (emptyQueue b s).line.cursor = s.line.cursor ∧
    (emptyQueue b s).line.boundary = s.line.boundary ∧
    (emptyQueue b s).line.extraAfter = s.line.extraAfter ∧
    (emptyQueue b s).line.extraOver = s.line.extraOver := by
  simp [emptyQueue]

end Sys2Proof.Machine
end

