-- ==== Sys2Proof/Laws/Keeps.lean ====
section
/-! SUPPORT. What every operation but a start-up keeps: the commands that wait, the phase, the count, the contacts, and the bounds of `Bounds`;
and what every operation but the reading of the contacts keeps: the recorded presences. One lemma per operation stands in the files Keeps…. -/

namespace Sys2Proof.Machine

open Sys2Proof

/-- From `s` to `t` the queue, the phase, the count and the contacts are kept, and so are the bounds. -/
structure Steady (s t : State) : Prop where
  pending : t.pending = s.pending
  phase : t.phase = s.phase
  now : t.now = s.now
  pins : t.pins = s.pins
  bounds : Bounds s → Bounds t

/-- `Steady`, and every bay's recorded presence is kept. -/
structure Keeps (s t : State) : Prop where
  steady : Steady s t
  presence : ∀ b : BayId, t.reg[b].presence = s.reg[b].presence

theorem Steady.refl (s : State) : Steady s s := ⟨rfl, rfl, rfl, rfl, id⟩

theorem Steady.trans {s t u : State} (h : Steady s t) (k : Steady t u) : Steady s u :=
  ⟨k.pending.trans h.pending, k.phase.trans h.phase, k.now.trans h.now, k.pins.trans h.pins, k.bounds ∘ h.bounds⟩

theorem Keeps.refl (s : State) : Keeps s s := ⟨.refl s, fun _ => rfl⟩

theorem Keeps.trans {s t u : State} (h : Keeps s t) (k : Keeps t u) : Keeps s u :=
  ⟨h.steady.trans k.steady, fun b => (k.presence b).trans (h.presence b)⟩

theorem Keeps.each {α : Type} {s t : State} (l : List α) (f : α → State → State) (h : ∀ a u, Keeps u (f a u)) (hs : Keeps s t) :
    Keeps s (t.each l f) := State.each_keeps (Keeps s) l f (fun a u hu => hu.trans (h a u)) t hs

theorem Steady.each {α : Type} {s t : State} (l : List α) (f : α → State → State) (h : ∀ a u, Steady u (f a u)) (hs : Steady s t) :
    Steady s (t.each l f) := State.each_keeps (Steady s) l f (fun a u hu => hu.trans (h a u)) t hs

/-! ## One record replaced -/

theorem Steady.setReg (s : State) (b : BayId) (f : RegBay → RegBay) : Steady s (s.setReg b f) :=
  ⟨rfl, rfl, rfl, rfl, fun h => ⟨⟨h.host.notices, h.host.overflow, h.host.lost⟩, h.line, h.hygiene, h.calls, h.runIds, h.doorGrace, h.limit,
    h.idleTime, h.shares, h.staging⟩⟩

theorem Keeps.setReg {s t : State} (b : BayId) (f : RegBay → RegBay) (hf : ∀ r, (f r).presence = r.presence) (h : Keeps s t) :
    Keeps s (t.setReg b f) :=
  h.trans ⟨.setReg t b f, fun d => by
    show (upd t.reg b f)[d].presence = _
    rw [upd_get]; split
    · next e => subst e; exact hf _
    · rfl⟩

theorem Keeps.setLine {s t : State} (b : BayId) (f : LineBay → LineBay) (hf : ∀ l, LineBounds l → LineBounds (f l)) (h : Keeps s t) :
    Keeps s (t.setLine b f) :=
  h.trans ⟨⟨rfl, rfl, rfl, rfl, fun h => ⟨⟨h.host.notices, h.host.overflow, h.host.lost⟩, fun d => by
    show LineBounds (upd t.line.bays b f)[d]
    rw [upd_get]; split
    · exact hf _ (h.line b)
    · exact h.line d, h.hygiene, h.calls, h.runIds, h.doorGrace, h.limit, h.idleTime, h.shares, h.staging⟩⟩, fun _ => rfl⟩

theorem Keeps.setRun {s t : State} (b : BayId) (f : Run → Run) (h : Keeps s t) : Keeps s (t.setRun b f) :=
  h.trans ⟨⟨rfl, rfl, rfl, rfl, fun h => ⟨⟨h.host.notices, h.host.overflow, h.host.lost⟩, h.line, h.hygiene, h.calls, h.runIds, h.doorGrace,
    h.limit, h.idleTime, h.shares, h.staging⟩⟩, fun _ => rfl⟩

theorem Keeps.setHeat {s t : State} (b : BayId) (f : HeatBay → HeatBay) (hf : ∀ x, (f x).allowance = x.allowance) (h : Keeps s t) :
    Keeps s (t.setHeat b f) :=
  h.trans ⟨⟨rfl, rfl, rfl, rfl, fun h => ⟨⟨h.host.notices, h.host.overflow, h.host.lost⟩, h.line, h.hygiene, h.calls, h.runIds, h.doorGrace,
    h.limit, h.idleTime, fun d => by
      show (upd t.heat.bays b f)[d].allowance ≤ 16
      rw [upd_get]; split
      · rw [hf]; exact h.shares b
      · exact h.shares d, h.staging⟩⟩, fun _ => rfl⟩

theorem Keeps.setClean {s t : State} (b : BayId) (f : CleanBay → CleanBay) (hf : ∀ x, HygieneBounds x.hygiene → HygieneBounds (f x).hygiene)
    (h : Keeps s t) : Keeps s (t.setClean b f) :=
  h.trans ⟨⟨rfl, rfl, rfl, rfl, fun h => ⟨⟨h.host.notices, h.host.overflow, h.host.lost⟩, h.line, fun d => by
      show HygieneBounds (upd t.clean b f)[d].hygiene
      rw [upd_get]; split
      · exact hf _ (h.hygiene b)
      · exact h.hygiene d, h.calls, h.runIds, h.doorGrace, h.limit, h.idleTime, h.shares, h.staging⟩⟩, fun _ => rfl⟩

theorem Keeps.setCleanRec {s t : State} (b : BayId) (f : CleanRec → CleanRec) (h : Keeps s t) : Keeps s (t.setCleanRec b f) :=
  h.setClean b _ (fun _ hx => hx)

theorem Keeps.setMon {s t : State} (b : BayId) (f : MonBay → MonBay) (h : Keeps s t) : Keeps s (t.setMon b f) :=
  h.trans ⟨⟨rfl, rfl, rfl, rfl, fun h => ⟨⟨h.host.notices, h.host.overflow, h.host.lost⟩, h.line, h.hygiene, h.calls, h.runIds, h.doorGrace,
    h.limit, h.idleTime, h.shares, h.staging⟩⟩, fun _ => rfl⟩

theorem Keeps.setSlot {s t : State} (k : Fin 4) (f : Slot → Slot) (h : Keeps s t) : Keeps s (t.setSlot k f) :=
  h.trans ⟨⟨rfl, rfl, rfl, rfl, fun h => ⟨⟨h.host.notices, h.host.overflow, h.host.lost⟩, h.line, h.hygiene, h.calls, h.runIds, h.doorGrace,
    h.limit, h.idleTime, h.shares, h.staging⟩⟩, fun _ => rfl⟩

theorem Keeps.setChannel {s t : State} (c : Fin 4) (f : Channel → Channel) (h : Keeps s t) : Keeps s (t.setChannel c f) :=
  h.trans ⟨⟨rfl, rfl, rfl, rfl, fun h => ⟨⟨h.host.notices, h.host.overflow, h.host.lost⟩, h.line, h.hygiene, h.calls, h.runIds, h.doorGrace,
    h.limit, h.idleTime, h.shares, h.staging⟩⟩, fun _ => rfl⟩

/-! ## One block replaced -/

theorem Keeps.withLib {s t : State} (l : Library) (h : Keeps s t) : Keeps s { t with lib := l } :=
  h.trans ⟨⟨rfl, rfl, rfl, rfl, fun h => ⟨⟨h.host.notices, h.host.overflow, h.host.lost⟩, h.line, h.hygiene, h.calls, h.runIds, h.doorGrace,
    h.limit, h.idleTime, h.shares, h.staging⟩⟩, fun _ => rfl⟩

theorem Keeps.withSched {s t : State} (x : Schedule) (h : Keeps s t) : Keeps s { t with sched := x } :=
  h.trans ⟨⟨rfl, rfl, rfl, rfl, fun h => ⟨⟨h.host.notices, h.host.overflow, h.host.lost⟩, h.line, h.hygiene, h.calls, h.runIds, h.doorGrace,
    h.limit, h.idleTime, h.shares, h.staging⟩⟩, fun _ => rfl⟩

theorem Keeps.withClock {s t : State} (x : Backup) (h : Keeps s t) : Keeps s { t with clock := x } :=
  h.trans ⟨⟨rfl, rfl, rfl, rfl, fun h => ⟨⟨h.host.notices, h.host.overflow, h.host.lost⟩, h.line, h.hygiene, h.calls, h.runIds, h.doorGrace,
    h.limit, h.idleTime, h.shares, h.staging⟩⟩, fun _ => rfl⟩

theorem Keeps.withStore {s t : State} (x : Store) (hx : Memory.wf t.store.staging → Memory.wf x.staging) (h : Keeps s t) :
    Keeps s { t with store := x } :=
  h.trans ⟨⟨rfl, rfl, rfl, rfl, fun h => ⟨⟨h.host.notices, h.host.overflow, h.host.lost⟩, h.line, h.hygiene, h.calls, h.runIds, h.doorGrace,
    h.limit, h.idleTime, h.shares, hx h.staging⟩⟩, fun _ => rfl⟩

/-- The line controller replaced, its bays' records kept. -/
theorem Keeps.withLine {s t : State} (x : LineCtl) (hx : x.bays = t.line.bays) (h : Keeps s t) : Keeps s { t with line := x } :=
  h.trans ⟨⟨rfl, rfl, rfl, rfl, fun h => ⟨⟨h.host.notices, h.host.overflow, h.host.lost⟩, fun b => by
    show LineBounds x.bays[b]
    rw [hx]; exact h.line b, h.hygiene, h.calls, h.runIds, h.doorGrace,
    h.limit, h.idleTime, h.shares, h.staging⟩⟩, fun _ => rfl⟩

/-- The Run Engine replaced, its next id and its door grace in range. -/
theorem Keeps.withRuns {s t : State} (x : RunEngine) (hn : 1 ≤ x.nextId ∧ x.nextId ≤ 255 ∨ x.nextId = t.runs.nextId)
    (hd : 30 ≤ x.doorGrace ∧ x.doorGrace ≤ 900 ∨ x.doorGrace = t.runs.doorGrace) (h : Keeps s t) : Keeps s { t with runs := x } :=
  h.trans ⟨⟨rfl, rfl, rfl, rfl, fun h => ⟨⟨h.host.notices, h.host.overflow, h.host.lost⟩, h.line, h.hygiene, h.calls,
    hn.elim id (fun e => by show 1 ≤ x.nextId ∧ x.nextId ≤ 255; rw [e]; exact h.runIds),
    hd.elim id (fun e => by show 30 ≤ x.doorGrace ∧ x.doorGrace ≤ 900; rw [e]; exact h.doorGrace),
    h.limit, h.idleTime, h.shares, h.staging⟩⟩, fun _ => rfl⟩

/-- The Monitor replaced, the call queue no longer than its room. -/
theorem Keeps.withMon {s t : State} (x : Monitor) (hx : t.mon.calls.length ≤ 32 → x.calls.length ≤ 32) (h : Keeps s t) :
    Keeps s { t with mon := x } :=
  h.trans ⟨⟨rfl, rfl, rfl, rfl, fun h => ⟨⟨h.host.notices, h.host.overflow, h.host.lost⟩, h.line, h.hygiene, hx h.calls, h.runIds, h.doorGrace,
    h.limit, h.idleTime, h.shares, h.staging⟩⟩, fun _ => rfl⟩

/-- The Allocator replaced, its settings in range and its allowances at most 16. -/
theorem Keeps.withHeat {s t : State} (x : Allocator) (hl : 50 ≤ x.limit ∧ x.limit ≤ 4000 ∨ x.limit = t.heat.limit)
    (hi : 5 ≤ x.idleTime ∧ x.idleTime ≤ 240 ∨ x.idleTime = t.heat.idleTime)
    (hs : (∀ b : BayId, t.heat.bays[b].allowance ≤ 16) → ∀ b : BayId, x.bays[b].allowance ≤ 16) (h : Keeps s t) :
    Keeps s { t with heat := x } :=
  h.trans ⟨⟨rfl, rfl, rfl, rfl, fun h => ⟨⟨h.host.notices, h.host.overflow, h.host.lost⟩, h.line, h.hygiene, h.calls, h.runIds, h.doorGrace,
    hl.elim id (fun e => by show 50 ≤ x.limit ∧ x.limit ≤ 4000; rw [e]; exact h.limit),
    hi.elim id (fun e => by show 5 ≤ x.idleTime ∧ x.idleTime ≤ 240; rw [e]; exact h.idleTime), hs h.shares, h.staging⟩⟩, fun _ => rfl⟩

/-- The Host Link replaced, its notices, overflow and lost lines in their room. -/
theorem Keeps.withHost {s t : State} (x : HostLink) (hx : HostBounds t → HostBounds { t with host := x }) (h : Keeps s t) :
    Keeps s { t with host := x } :=
  h.trans ⟨⟨rfl, rfl, rfl, rfl, fun h => ⟨hx h.host, h.line, h.hygiene, h.calls, h.runIds, h.doorGrace, h.limit, h.idleTime, h.shares,
    h.staging⟩⟩, fun _ => rfl⟩

end Sys2Proof.Machine
end

