-- ==== Sys2Proof/Laws/KeepsOps.lean ====
section
/-! SUPPORT. What notices, writes and orders keep. -/

namespace Sys2Proof.Machine

open Sys2Proof

theorem queueNotice_keeps (kind : NoticeKind) (fields : List Tok) {s t : State} (hk : Keeps s t) :
    Keeps s (queueNotice kind fields t) := by
  unfold queueNotice
  dsimp only
  split
  · next hn =>
    refine Keeps.withHost _ (fun hb => ⟨?_, hb.overflow, hb.lost⟩) hk
    show (t.host.notices ++ _).length ≤ noticeRoom t
    simp only [List.length_append, List.length_singleton]
    omega
  · refine Keeps.withHost _ (fun hb => ⟨hb.notices, fun c f e => ?_, hb.lost⟩) hk
    dsimp only at e
    split at e
    · cases e; decide
    · cases e; exact Nat.min_le_right _ _

theorem beginWrite_keeps {s t : State} (hk : Keeps s t) : Keeps s (beginWrite t) := by
  unfold beginWrite
  split
  · exact Keeps.withStore _ id hk
  · exact hk

theorem storeRecord_keeps (p : Partition) (pos : Nat) (content : Option StoreRec) {s t : State} (hk : Keeps s t) :
    Keeps s (storeRecord p pos content t) := by
  unfold storeRecord
  exact beginWrite_keeps (Keeps.withStore _ id hk)

theorem storePut_keeps (r : StoreRec) {s t : State} (hk : Keeps s t) : Keeps s (storePut r t) := by
  unfold storePut
  repeat' with_reducible first | assumption | exact Keeps.refl _ | apply storeRecord_keeps

theorem storeSealHeader_keeps (k : Fin 4) (h : Header) {s t : State} (hk : Keeps s t) : Keeps s (storeSealHeader k h t) := by
  unfold storeSealHeader
  exact beginWrite_keeps (Keeps.withStore _ id hk)

theorem storeStaging_keeps (x : Write) {s t : State} (hk : Keeps s t) : Keeps s (storeStaging x t) := by
  unfold storeStaging
  exact beginWrite_keeps (Keeps.withStore _ id hk)

theorem applyNote_keeps (b : BayId) (body : OrderBody) (note : Note) (id : Nat) {s t : State} (hk : Keeps s t) :
    Keeps s (applyNote b body note id t) := by
  unfold applyNote
  repeat' with_reducible first
    | assumption | exact Keeps.refl _ | refine Keeps.setLine _ _ (fun _ hl => ⟨hl.queue, hl.ids, hl.misses⟩) ?_ | apply Keeps.setRun
    | apply Keeps.setCleanRec | apply Keeps.setChannel | split | dsimp only

theorem nextOrderId_range (n : Nat) : 1 ≤ nextOrderId n ∧ nextOrderId n ≤ 255 := by
  unfold nextOrderId
  split <;> omega

theorem placeOrder_keeps (b : BayId) (body : OrderBody) (note : Note) {s t : State} (hk : Keeps s t) :
    Keeps s (placeOrder b body note t) := by
  unfold placeOrder
  dsimp only
  split
  · split
    · exact applyNote_keeps _ _ _ _ (Keeps.setLine _ _ (fun l hl => ⟨by simpa using hl.queue, nextOrderId_range _, hl.misses⟩) hk)
    · split
      · next hq =>
        refine applyNote_keeps _ _ _ _ (hk.trans ?_)
        refine ⟨⟨rfl, rfl, rfl, rfl, fun k => ⟨⟨k.host.notices, k.host.overflow, k.host.lost⟩, fun d => ?_, k.hygiene, k.calls, k.runIds,
          k.doorGrace, k.limit, k.idleTime, k.shares, k.staging⟩⟩, fun _ => rfl⟩
        show LineBounds (upd t.line.bays b _)[d]
        rw [upd_get]
        split
        · refine ⟨?_, nextOrderId_range _, (k.line b).misses⟩
          simp only [List.length_append, List.length_singleton]
          unfold queueDepth at hq
          omega
        · exact k.line d
      · exact Keeps.setLine _ _ (fun l hl => ⟨hl.queue, hl.ids, hl.misses⟩) hk
  · exact hk

theorem offerHeld_keeps (b : BayId) {s t : State} (hk : Keeps s t) : Keeps s (offerHeld b t) := by
  unfold offerHeld
  exact Keeps.each _ _ (fun a u => placeOrder_keeps _ _ _ (.refl u)) (Keeps.setLine _ _ (fun _ hl => ⟨hl.queue, hl.ids, hl.misses⟩) hk)

theorem withdraw_keeps (b : BayId) (kinds : List OrderKind) {s t : State} (hk : Keeps s t) : Keeps s (withdraw b kinds t) := by
  unfold withdraw
  exact offerHeld_keeps _ (Keeps.setLine _ _ (fun l hl => ⟨(List.length_filter_le _ _).trans hl.queue, hl.ids, hl.misses⟩) hk)

theorem emptyQueue_keeps (b : BayId) {s t : State} (hk : Keeps s t) : Keeps s (emptyQueue b t) := by
  unfold emptyQueue
  exact Keeps.setLine _ _ (fun l hl => ⟨Nat.zero_le _, hl.ids, hl.misses⟩) hk

end Sys2Proof.Machine
end

