-- ==== Sys2Proof/Laws/KeepsLibrary.lean ====
section
/-! SUPPORT. What the Recipe Library's operations keep. -/

namespace Sys2Proof.Machine

open Sys2Proof

theorem install_keeps (number : Nat) (r : Revision) {s t : State} (hk : Keeps s t) : Keeps s (install number r t) := by
  unfold install
  repeat' with_reducible first | assumption | exact Keeps.refl _ | apply storePut_keeps | exact Keeps.withLib _ hk | split | dsimp only

theorem settleEntry_keeps (e : Entry) {s t : State} (hk : Keeps s t) : Keeps s (settleEntry e t) := by
  unfold settleEntry
  repeat' with_reducible first | assumption | exact Keeps.refl _ | exact Keeps.withLib _ hk | split

theorem pin_keeps (number : Nat) {s t : State} (hk : Keeps s t) : Keeps s (pin number t) := by
  unfold pin
  repeat' with_reducible first | assumption | exact Keeps.refl _ | exact Keeps.withLib _ hk | split

theorem releasePin_keeps (number revision : Nat) {s t : State} (hk : Keeps s t) : Keeps s (releasePin number revision t) := by
  unfold releasePin
  repeat' with_reducible first | assumption | exact Keeps.refl _ | apply settleEntry_keeps | exact Keeps.withLib _ hk | split

theorem abandonLoad_keeps {s t : State} (hk : Keeps s t) : Keeps s (abandonLoad t) := by
  unfold abandonLoad
  repeat' with_reducible first | assumption | exact Keeps.refl _ | exact Keeps.withLib _ hk | split

end Sys2Proof.Machine
end

