-- ==== Sys2Proof/Laws/KeepsHeat.lean ====
section
/-! SUPPORT. What the Heat Share Allocator's operations keep. -/

namespace Sys2Proof.Machine

open Sys2Proof

theorem sendAllowance_keeps (b : BayId) {s t : State} (hk : Keeps s t) : Keeps s (sendAllowance b t) := by
  unfold sendAllowance
  repeat' with_reducible first
    | assumption | exact Keeps.refl _ | apply placeOrder_keeps | refine Keeps.setHeat _ _ (fun _ => rfl) ?_ | split | dsimp only

/-- A class's share is at most 16. -/
theorem classShare_of (l : List Member) (ptr : BayId) (budget : Nat) (b : BayId) : (classShare l ptr budget).of b ≤ 16 := by
  unfold classShare ClassShare.of
  have hu : uniformShare budget (ratedSum l) ≤ 16 := by unfold uniformShare; split <;> omega
  dsimp only
  split
  · next hk => dsimp only; split <;> omega
  · next hk => dsimp only; split <;> simp_all

/-- A division gives a bay at most 16. -/
theorem divide_allowance (limit : Nat) (p : Pointers) (m : HeatClass → List Member) (c : Option HeatClass) (b : BayId) :
    (divide limit p m).allowance c b ≤ 16 := by
  unfold Division.allowance
  split
  · next k => cases k <;> exact classShare_of _ _ _ _
  · exact Nat.zero_le _

/-- The stretch of starvation leaves the allowance alone. -/
theorem starve_allowance (h : HeatBay) (starving : Bool) (sec : Nat) : (h.starve starving sec).allowance = h.allowance := by
  unfold HeatBay.starve
  split <;> rfl

theorem allot_allowance (s : State) (out : Option BayId) (d : Division) (b : BayId) (h : HeatBay) :
    (allot s out d b h).allowance = d.allowance (classIn s out b) b := by
  unfold allot
  exact starve_allowance _ _ _

theorem recomputeBut_keeps (out : Option BayId) {s t : State} (hk : Keeps s t) : Keeps s (recomputeBut out t) := by
  unfold recomputeBut
  exact Keeps.each _ _ (fun a u => sendAllowance_keeps _ (.refl u)) (Keeps.withHeat _ (.inr rfl) (.inr rfl) (fun _ d => by
    simp only [Fin.getElem_fin, Vector.getElem_ofFn, allot_allowance]
    exact divide_allowance _ _ _ _ _) hk)

theorem recompute_keeps {s t : State} (hk : Keeps s t) : Keeps s (recompute t) := by
  unfold recompute
  repeat' with_reducible first | assumption | exact Keeps.refl _ | apply recomputeBut_keeps

theorem touchIdle_keeps (b : BayId) {s t : State} (hk : Keeps s t) : Keeps s (touchIdle b t) := by
  unfold touchIdle
  repeat' with_reducible first | assumption | exact Keeps.refl _ | refine Keeps.setHeat _ _ (fun _ => rfl) ?_ | dsimp only

theorem wakeCause_keeps (b : BayId) {s t : State} (hk : Keeps s t) : Keeps s (wakeCause b t) := by
  unfold wakeCause
  repeat' with_reducible first
    | assumption | exact Keeps.refl _ | apply placeOrder_keeps | apply touchIdle_keeps | refine Keeps.setHeat _ _ (fun _ => rfl) ?_ | split
    | dsimp only

theorem examineStandby_keeps (b : BayId) {s t : State} (hk : Keeps s t) : Keeps s (examineStandby b t) := by
  unfold examineStandby
  repeat' with_reducible first
    | assumption | exact Keeps.refl _ | apply placeOrder_keeps | refine Keeps.setHeat _ _ (fun _ => rfl) ?_ | split | dsimp only

theorem lookAhead_keeps (b : BayId) {s t : State} (hk : Keeps s t) : Keeps s (lookAhead b t) := by
  unfold lookAhead
  repeat' with_reducible first
    | assumption | exact Keeps.refl _ | apply examineStandby_keeps | apply wakeCause_keeps | refine Keeps.setHeat _ _ (fun _ => rfl) ?_ | split
    | dsimp only

theorem lookAheadAll_keeps {s t : State} (hk : Keeps s t) : Keeps s (lookAheadAll t) := by
  unfold lookAheadAll
  repeat' with_reducible first | assumption | exact Keeps.refl _ | apply lookAhead_keeps | refine Keeps.each _ _ (fun _ _ => ?_) ?_

theorem dropDue_keeps (n : Fin 24) {s t : State} (hk : Keeps s t) : Keeps s (dropDue n t) := by
  unfold dropDue
  repeat' with_reducible first
    | assumption | exact Keeps.refl _ | refine Keeps.setHeat _ _ (fun _ => rfl) ?_ | refine Keeps.each _ _ (fun _ _ => ?_) ?_ | dsimp only

theorem takeDemand_keeps (b : BayId) (demand : Bool) {s t : State} (hk : Keeps s t) : Keeps s (takeDemand b demand t) := by
  unfold takeDemand
  repeat' with_reducible first
    | assumption | exact Keeps.refl _ | apply recompute_keeps | refine Keeps.setHeat _ _ (fun _ => rfl) ?_ | split | dsimp only

theorem takeDoor_keeps (b : BayId) (doorOpen : Bool) {s t : State} (hk : Keeps s t) : Keeps s (takeDoor b doorOpen t) := by
  unfold takeDoor
  repeat' with_reducible first
    | assumption | exact Keeps.refl _ | apply touchIdle_keeps | apply wakeCause_keeps | refine Keeps.setHeat _ _ (fun _ => rfl) ?_ | split
    | dsimp only

theorem heatPower_keeps (b : BayId) {s t : State} (hk : Keeps s t) : Keeps s (heatPower b t) := by
  unfold heatPower
  repeat' with_reducible first
    | assumption | exact Keeps.refl _ | apply recompute_keeps | apply touchIdle_keeps | refine Keeps.setHeat _ _ (fun _ => rfl) ?_ | split
    | dsimp only

theorem heatRelease_keeps (b : BayId) {s t : State} (hk : Keeps s t) : Keeps s (heatRelease b t) := by
  unfold heatRelease
  repeat' with_reducible first | assumption | exact Keeps.refl _ | apply recompute_keeps | apply touchIdle_keeps

theorem heatReady_keeps (b : BayId) {s t : State} (hk : Keeps s t) : Keeps s (heatReady b t) := by
  unfold heatReady
  repeat' with_reducible first | assumption | exact Keeps.refl _ | apply recompute_keeps | apply touchIdle_keeps

theorem clearStarvation_keeps (b : BayId) {s t : State} (hk : Keeps s t) : Keeps s (clearStarvation b t) := by
  unfold clearStarvation
  repeat' with_reducible first | assumption | exact Keeps.refl _ | refine Keeps.setHeat _ _ (fun _ => rfl) ?_ | dsimp only

theorem heatGone_keeps (b : BayId) {s t : State} (hk : Keeps s t) : Keeps s (heatGone b t) := by
  unfold heatGone
  repeat' with_reducible first | assumption | exact Keeps.refl _ | refine Keeps.setHeat _ _ (fun _ => rfl) ?_ | dsimp only

end Sys2Proof.Machine
end

