-- ==== Sys2Proof/Laws/KeepsMonitor.lean ====
section
/-! SUPPORT. What the Service Monitor's operations keep. -/

namespace Sys2Proof.Machine

open Sys2Proof

theorem Keeps.setCall {s t : State} (id : Nat) (f : Call → Call) (hk : Keeps s t) : Keeps s (t.setCall id f) :=
  Keeps.withMon _ (fun h => by simpa using h) hk

theorem Keeps.setLatch {s t : State} (b : BayId) (k : EventKind) (f : Latch → Latch) (hk : Keeps s t) : Keeps s (t.setLatch b k f) :=
  Keeps.setMon _ _ hk

theorem dispatch_keeps (l : Fin 2) (c : Call) {s t : State} (hk : Keeps s t) : Keeps s (dispatch l c t) := by
  unfold dispatch
  exact queueNotice_keeps _ _ (Keeps.withMon _ (fun h => h) (Keeps.setCall _ _ hk))

theorem arbiterOnce_keeps {s t : State} (hk : Keeps s t) : Keeps s (arbiterOnce t) := by
  unfold arbiterOnce
  repeat' with_reducible first | assumption | exact Keeps.refl _ | apply dispatch_keeps | split

theorem arbiter_keeps {s t : State} (hk : Keeps s t) : Keeps s (arbiter t) := by
  unfold arbiter
  repeat' with_reducible first | assumption | exact Keeps.refl _ | apply arbiterOnce_keeps

theorem freeCallLane_keeps (id : Nat) {s t : State} (hk : Keeps s t) : Keeps s (freeCallLane id t) := by
  unfold freeCallLane
  exact Keeps.withMon _ (fun h => h) hk

theorem eventNotice_keeps (b : BayId) (k : EventKind) (call : String) (id : Nat) {s t : State} (hk : Keeps s t) :
    Keeps s (eventNotice b k call id t) := by
  unfold eventNotice
  repeat' with_reducible first | assumption | exact Keeps.refl _ | apply queueNotice_keeps | split | dsimp only

/-- A call is raised where the queue has room for it. -/
theorem raiseCall_keeps (b : BayId) (k : EventKind) {s t : State} (hr : t.mon.calls.length < callRoom) (hk : Keeps s t) :
    Keeps s (raiseCall b k t) := by
  unfold raiseCall
  refine Keeps.withMon _ (fun _ => ?_) hk
  simp only [List.length_append, List.length_singleton]
  unfold callRoom at hr
  omega

theorem announce_keeps (b : BayId) (k : EventKind) {s t : State} (hk : Keeps s t) : Keeps s (announce b k t) := by
  unfold announce
  split
  · exact eventNotice_keeps _ _ _ _ hk
  · split
    · exact eventNotice_keeps _ _ _ _ hk
    · split
      · next hr => exact arbiter_keeps (eventNotice_keeps _ _ _ _ (raiseCall_keeps _ _ hr (Keeps.setLatch _ _ _ hk)))
      · exact eventNotice_keeps _ _ _ _ (Keeps.setLatch _ _ _ hk)

theorem newlySet_keeps (b : BayId) (k : EventKind) (forced : Bool) {s t : State} (hk : Keeps s t) :
    Keeps s (newlySet b k forced t) := by
  unfold newlySet
  repeat' with_reducible first | assumption | exact Keeps.refl _ | apply Keeps.setLatch | apply announce_keeps | split | dsimp only

theorem latch_keeps (b : BayId) (k : EventKind) (forced : Bool) {s t : State} (hk : Keeps s t) : Keeps s (latch b k forced t) := by
  unfold latch
  repeat' with_reducible first | assumption | exact Keeps.refl _ | apply newlySet_keeps | split

theorem report_keeps (b : BayId) (k : EventKind) {s t : State} (hk : Keeps s t) : Keeps s (report b k t) := by
  unfold report
  repeat' with_reducible first | assumption | exact Keeps.refl _ | apply latch_keeps

theorem setCondition_keeps (b : BayId) (k : EventKind) (v : Bool) {s t : State} (hk : Keeps s t) :
    Keeps s (setCondition b k v t) := by
  unfold setCondition
  repeat' with_reducible first | assumption | exact Keeps.refl _ | apply latch_keeps | apply Keeps.setMon | split | dsimp only

theorem clearLatch_keeps (b : BayId) (k : EventKind) {s t : State} (hk : Keeps s t) : Keeps s (clearLatch b k t) := by
  unfold clearLatch
  repeat' with_reducible first | assumption | exact Keeps.refl _ | apply Keeps.setLatch | apply examineStandby_keeps | split | dsimp only

theorem acknowledge_keeps (b : BayId) (k : EventKind) {s t : State} (hk : Keeps s t) : Keeps s (acknowledge b k t) := by
  unfold acknowledge
  repeat' with_reducible first | assumption | exact Keeps.refl _ | apply clearLatch_keeps | split

theorem takeFault_keeps (b : BayId) (code : Nat) {s t : State} (hk : Keeps s t) : Keeps s (takeFault b code t) := by
  unfold takeFault
  repeat' with_reducible first
    | assumption | exact Keeps.refl _ | apply Keeps.setCall | apply Keeps.setLatch | apply setCondition_keeps | apply Keeps.setMon | split
    | dsimp only

theorem rescanLatch_keeps (b : BayId) (k : EventKind) {s t : State} (hk : Keeps s t) : Keeps s (rescanLatch b k t) := by
  unfold rescanLatch
  dsimp only
  split
  · next hc =>
    split
    · refine arbiter_keeps (raiseCall_keeps _ _ ?_ (Keeps.setLatch _ _ _ hk))
      simp only [Bool.and_eq_true, decide_eq_true_eq] at hc
      exact hc.1.1.1
    · exact Keeps.setLatch _ _ _ hk
  · exact hk

theorem rescan_keeps {s t : State} (hk : Keeps s t) : Keeps s (rescan t) := by
  unfold rescan
  repeat' with_reducible first | assumption | exact Keeps.refl _ | apply rescanLatch_keeps | refine Keeps.each _ _ (fun _ _ => ?_) ?_ | dsimp only

theorem storeHold_keeps (b : BayId) {s t : State} (hk : Keeps s t) : Keeps s (storeHold b t) := by
  unfold storeHold
  repeat' with_reducible first | assumption | exact Keeps.refl _ | apply storeRecord_keeps | split | dsimp only

end Sys2Proof.Machine
end

