-- ==== Sys2Proof/Laws/KeepsRuns.lean ====
section
/-! SUPPORT. What the Run Engine's operations up to a run's end keep. -/

namespace Sys2Proof.Machine

open Sys2Proof

theorem runStep_keeps (b : BayId) (event : String) {s t : State} (hk : Keeps s t) : Keeps s (runStep b event t) := by
  unfold runStep
  repeat' with_reducible first | assumption | exact Keeps.refl _ | apply queueNotice_keeps | apply Keeps.setRun | split | dsimp only

theorem orderStep_keeps (b : BayId) {s t : State} (hk : Keeps s t) : Keeps s (orderStep b t) := by
  unfold orderStep
  repeat' with_reducible first
    | assumption | exact Keeps.refl _ | apply placeOrder_keeps | apply recompute_keeps | apply Keeps.setRun | split | dsimp only

theorem reorderStep_keeps (b : BayId) (r : Run) {s t : State} (hk : Keeps s t) : Keeps s (reorderStep b r t) := by
  unfold reorderStep
  repeat' with_reducible first | assumption | exact Keeps.refl _ | apply placeOrder_keeps | apply Keeps.setRun | split | dsimp only

theorem startRun_keeps (b : BayId) (e : Entry) {s t : State} (hk : Keeps s t) : Keeps s (startRun b e t) := by
  unfold startRun
  dsimp only
  split
  · refine recompute_keeps (wakeCause_keeps _ (Keeps.setRun _ _ (Keeps.withRuns (t := (pin e.number t).setReg b _) _ (.inl (nextOrderId_range _)) (.inr rfl) ?_)))
    exact Keeps.setReg _ _ (fun _ => rfl) (pin_keeps _ hk)
  · refine orderStep_keeps _ (Keeps.withRuns (t := (pin e.number t).setReg b _) _ (.inl (nextOrderId_range _)) (.inr rfl) ?_)
    exact Keeps.setReg _ _ (fun _ => rfl) (pin_keeps _ hk)

theorem runPowerOn_keeps (b : BayId) {s t : State} (hk : Keeps s t) : Keeps s (runPowerOn b t) := by
  unfold runPowerOn
  repeat' with_reducible first | assumption | exact Keeps.refl _ | apply orderStep_keeps | apply Keeps.setRun | split | dsimp only

theorem acceptStep_keeps (b : BayId) (id : Nat) {s t : State} (hk : Keeps s t) : Keeps s (acceptStep b id t) := by
  unfold acceptStep
  repeat' with_reducible first
    | assumption | exact Keeps.refl _ | apply recompute_keeps | apply runStep_keeps | apply Keeps.setRun | split | dsimp only

theorem sendSetpoint_keeps (b : BayId) (sp : Int) {s t : State} (hk : Keeps s t) : Keeps s (sendSetpoint b sp t) := by
  unfold sendSetpoint
  repeat' with_reducible first | assumption | exact Keeps.refl _ | apply placeOrder_keeps | apply Keeps.setRun | split | dsimp only

theorem reportEstimate_keeps (b : BayId) {s t : State} (hk : Keeps s t) : Keeps s (reportEstimate b t) := by
  unfold reportEstimate
  repeat' with_reducible first | assumption | exact Keeps.refl _ | apply runStep_keeps | split

theorem probeCall_keeps (b : BayId) (st : Step) (points : List Int) {s t : State} (hk : Keeps s t) :
    Keeps s (probeCall b st points t) := by
  unfold probeCall
  repeat' with_reducible first
    | assumption | exact Keeps.refl _ | apply report_keeps | apply reportEstimate_keeps | apply sendSetpoint_keeps | apply Keeps.setRun | split
    | dsimp only

end Sys2Proof.Machine
end

