-- ==== Sys2Proof/Laws/KeepsClean.lean ====
section
/-! SUPPORT. What the Cleaning Sequencer's operations keep. -/

namespace Sys2Proof.Machine

open Sys2Proof

theorem reportHygiene_keeps (b : BayId) {s t : State} (hk : Keeps s t) : Keeps s (reportHygiene b t) := by
  unfold reportHygiene
  exact setCondition_keeps _ _ _ (setCondition_keeps _ _ _ (setCondition_keeps _ _ _ hk))

/-- The hygiene record changes within its ranges. -/
theorem setHygiene_keeps (b : BayId) (f : Hygiene → Hygiene) {s t : State} (hf : ∀ x, HygieneBounds x → HygieneBounds (f x)) (hk : Keeps s t) :
    Keeps s (setHygiene b f t) := by
  unfold setHygiene
  refine reportHygiene_keeps _ (storePut_keeps _ (hk.trans ?_))
  refine ⟨⟨rfl, rfl, rfl, rfl, fun k => ⟨⟨k.host.notices, k.host.overflow, k.host.lost⟩, k.line, fun d => ?_, k.calls, k.runIds,
    k.doorGrace, k.limit, k.idleTime, k.shares, k.staging⟩⟩, fun _ => rfl⟩
  show HygieneBounds (upd t.clean b _)[d].hygiene
  rw [upd_get]
  split
  · exact hf _ (k.hygiene b)
  · exact k.hygiene d

theorem withdrawPhase_keeps (b : BayId) {s t : State} (hk : Keeps s t) : Keeps s (withdrawPhase b t) := by
  unfold withdrawPhase
  repeat' with_reducible first | assumption | exact Keeps.refl _ | apply withdraw_keeps | split | dsimp only

theorem enterPhase_keeps (b : BayId) (st : CleanState) {s t : State} (hk : Keeps s t) : Keeps s (enterPhase b st t) := by
  unfold enterPhase
  repeat' with_reducible first
    | assumption | exact Keeps.refl _ | apply placeOrder_keeps | apply withdrawPhase_keeps | apply Keeps.setCleanRec | split | dsimp only

theorem enterCooling_keeps (b : BayId) {s t : State} (hk : Keeps s t) : Keeps s (enterCooling b t) := by
  unfold enterCooling
  repeat' with_reducible first | assumption | exact Keeps.refl _ | apply placeOrder_keeps | apply Keeps.setCleanRec | dsimp only

theorem enterFirst_keeps (b : BayId) (c : CleanRec) {s t : State} (hk : Keeps s t) : Keeps s (enterFirst b c t) := by
  unfold enterFirst
  repeat' with_reducible first | assumption | apply enterPhase_keeps | apply recompute_keeps | split | dsimp only

theorem leaveRequested_keeps (b : BayId) {s t : State} (hk : Keeps s t) : Keeps s (leaveRequested b t) := by
  unfold leaveRequested
  repeat' with_reducible first | assumption | exact Keeps.refl _ | apply enterCooling_keeps | apply enterPhase_keeps | split | dsimp only

theorem startCleaning_keeps (b : BayId) (p : Program) (o : Origin) {s t : State} (hk : Keeps s t) :
    Keeps s (startCleaning b p o t) := by
  unfold startCleaning
  repeat' with_reducible first
    | assumption | exact Keeps.refl _ | apply leaveRequested_keeps | apply recompute_keeps | apply wakeCause_keeps
    | refine Keeps.setReg _ _ (fun _ => rfl) ?_ | refine Keeps.setClean _ _ (fun _ hx => hx) ?_ | apply Keeps.setCleanRec | split | dsimp only

theorem acceptPhase_keeps (b : BayId) (id : Nat) {s t : State} (hk : Keeps s t) : Keeps s (acceptPhase b id t) := by
  unfold acceptPhase
  repeat' with_reducible first | assumption | exact Keeps.refl _ | apply Keeps.setCleanRec | split | dsimp only

theorem forceRinse_keeps (b : BayId) (o : CleanOutcome) (r : CleanReason) {s t : State} (hk : Keeps s t) :
    Keeps s (forceRinse b o r t) := by
  unfold forceRinse
  repeat' with_reducible first
    | assumption | exact Keeps.refl _ | apply enterPhase_keeps | apply recompute_keeps | apply Keeps.setCleanRec | dsimp only

theorem soilAfter_le (p : Program) {n : Nat} (h : n ≤ 1250) : p.soilAfter n ≤ 1250 := by
  cases p
  exacts [h, (Nat.sub_le _ _).trans h, (Nat.sub_le _ _).trans h, Nat.zero_le _]

theorem rinseCompletion_keeps (b : BayId) (c : CleanRec) {s t : State} (hk : Keeps s t) : Keeps s (rinseCompletion b c t) := by
  unfold rinseCompletion
  refine setHygiene_keeps _ _ (fun x hx => ⟨?_, hx.detergent⟩) hk
  dsimp only
  split
  · exact hx.soil
  · exact soilAfter_le _ hx.soil

theorem takeDoses_keeps (b : BayId) (counter : Nat) {s t : State} (hk : Keeps s t) : Keeps s (takeDoses b counter t) := by
  unfold takeDoses
  dsimp only
  split
  · exact Keeps.setClean _ _ (fun _ h => h) hk
  · split
    · exact Keeps.setClean _ _ (fun _ h => h) hk
    · refine setHygiene_keeps _ _ (fun x hx => ⟨hx.soil, (Nat.sub_le _ _).trans hx.detergent⟩) ?_
      split
      · exact Keeps.setCleanRec _ _ (Keeps.setClean _ _ (fun _ h => h) hk)
      · exact Keeps.setClean _ _ (fun _ h => h) hk

theorem windowClean_keeps (e : Fin 24) (p : Program) (threshold : Nat) (b : BayId) {s t : State} (hk : Keeps s t) :
    Keeps s (windowClean e p threshold b t) := by
  unfold windowClean
  repeat' with_reducible first
    | assumption | exact Keeps.refl _ | apply report_keeps | apply startCleaning_keeps | refine Keeps.setClean _ _ (fun _ hx => hx) ?_ | split
    | dsimp only

theorem retryPending_keeps (b : BayId) {s t : State} (hk : Keeps s t) : Keeps s (retryPending b t) := by
  unfold retryPending
  repeat' with_reducible first
    | assumption | exact Keeps.refl _ | apply startCleaning_keeps | refine Keeps.setClean _ _ (fun _ hx => hx) ?_ | split | dsimp only

theorem cleanWindowLeft_keeps (b : BayId) {s t : State} (hk : Keeps s t) : Keeps s (cleanWindowLeft b t) := by
  unfold cleanWindowLeft
  repeat' with_reducible first
    | assumption | exact Keeps.refl _ | apply report_keeps | refine Keeps.setClean _ _ (fun _ hx => hx) ?_ | split | dsimp only

end Sys2Proof.Machine
end

