-- ==== Sys2Proof/Laws/KeepsTransfers.lean ====
section
/-! SUPPORT. What the Update Distributor's operations up to a transfer's end keep. -/

namespace Sys2Proof.Machine

open Sys2Proof

theorem setProgress_keeps (c : Fin 4) (b : BayId) (p : Progress) {s t : State} (hk : Keeps s t) :
    Keeps s (setProgress c b p t) := by
  unfold setProgress
  repeat' with_reducible first | assumption | exact Keeps.refl _ | apply Keeps.setChannel | dsimp only

theorem transferNotice_keeps (c : Fin 4) (b : BayId) (p : Progress) {s t : State} (hk : Keeps s t) :
    Keeps s (transferNotice c b p t) := by
  unfold transferNotice
  repeat' with_reducible first | assumption | exact Keeps.refl _ | apply queueNotice_keeps | split

theorem settleProgress_keeps (c : Fin 4) (b : BayId) (p : Progress) {s t : State} (hk : Keeps s t) :
    Keeps s (settleProgress c b p t) := by
  unfold settleProgress
  repeat' with_reducible first | assumption | exact Keeps.refl _ | apply setProgress_keeps | apply transferNotice_keeps

theorem dropUser_keeps (k : Fin 4) {s t : State} (hk : Keeps s t) : Keeps s (dropUser k t) := by
  unfold dropUser
  repeat' with_reducible first | assumption | exact Keeps.refl _ | apply Keeps.setSlot | dsimp only

theorem judgeDone_keeps (c : Fin 4) {s t : State} (hk : Keeps s t) : Keeps s (judgeDone c t) := by
  unfold judgeDone
  repeat' with_reducible first
    | assumption | exact Keeps.refl _ | apply dropUser_keeps | apply queueNotice_keeps | apply Keeps.setChannel | split | dsimp only

theorem placeBlock_keeps (c : Fin 4) (b : BayId) {s t : State} (hk : Keeps s t) : Keeps s (placeBlock c b t) := by
  unfold placeBlock
  repeat' with_reducible first | assumption | exact Keeps.refl _ | apply placeOrder_keeps | apply Keeps.setChannel | dsimp only

theorem placeBlocksUpTo_keeps (c : Fin 4) (b : BayId) (n : Nat) {s t : State} (hk : Keeps s t) :
    Keeps s (placeBlocksUpTo c b n t) := by
  induction n generalizing t with
  | zero => exact hk
  | succ k ih =>
    unfold placeBlocksUpTo
    split
    · exact ih (placeBlock_keeps _ _ hk)
    · exact hk

theorem placeBlocks_keeps (c : Fin 4) (b : BayId) {s t : State} (hk : Keeps s t) : Keeps s (placeBlocks c b t) := by
  unfold placeBlocks
  repeat' with_reducible first | assumption | exact Keeps.refl _ | apply placeBlocksUpTo_keeps

theorem flowBlocks_keeps (b : BayId) {s t : State} (hk : Keeps s t) : Keeps s (flowBlocks b t) := by
  unfold flowBlocks
  repeat' with_reducible first | assumption | exact Keeps.refl _ | apply placeBlocks_keeps | split

theorem reportSpace_keeps (b : BayId) {s t : State} (hk : Keeps s t) : Keeps s (reportSpace b t) :=
  flowBlocks_keeps _ (offerHeld_keeps _ hk)

theorem deliverBlock_keeps (b : BayId) (offset n : Nat) {s t : State} (hk : Keeps s t) : Keeps s (deliverBlock b offset n t) := by
  unfold deliverBlock
  repeat' with_reducible first | assumption | exact Keeps.refl _ | apply Keeps.setChannel | split | dsimp only

theorem discardBlock_keeps (b : BayId) (offset : Nat) {s t : State} (hk : Keeps s t) : Keeps s (discardBlock b offset t) := by
  unfold discardBlock
  repeat' with_reducible first | assumption | exact Keeps.refl _ | apply Keeps.setChannel | split | dsimp only

theorem offerIfComplete_keeps (c : Fin 4) (b : BayId) {s t : State} (hk : Keeps s t) : Keeps s (offerIfComplete c b t) := by
  unfold offerIfComplete
  repeat' with_reducible first
    | assumption | exact Keeps.refl _ | apply placeOrder_keeps | apply setProgress_keeps | apply withdraw_keeps | apply Keeps.setChannel | split
    | dsimp only

theorem acceptOffer_keeps (b : BayId) {s t : State} (hk : Keeps s t) : Keeps s (acceptOffer b t) := by
  unfold acceptOffer
  repeat' with_reducible first | assumption | exact Keeps.refl _ | apply Keeps.setChannel | split | dsimp only

theorem acceptDiscard_keeps (b : BayId) (id : Nat) {s t : State} (hk : Keeps s t) : Keeps s (acceptDiscard b id t) := by
  unfold acceptDiscard
  repeat' with_reducible first | assumption | exact Keeps.refl _ | apply placeBlocks_keeps | apply Keeps.setChannel | split | dsimp only

theorem beginTransfer_keeps (c : Fin 4) (b : BayId) {s t : State} (hk : Keeps s t) : Keeps s (beginTransfer c b t) := by
  unfold beginTransfer
  repeat' with_reducible first
    | assumption | exact Keeps.refl _ | apply placeOrder_keeps | apply recompute_keeps | apply setProgress_keeps | apply transferNotice_keeps
    | refine Keeps.setReg _ _ (fun _ => rfl) ?_ | apply Keeps.setChannel | dsimp only

theorem endWaiting_keeps (c : Fin 4) (b : BayId) (p : Progress) {s t : State} (hk : Keeps s t) : Keeps s (endWaiting c b p t) := by
  unfold endWaiting
  repeat' with_reducible first | assumption | exact Keeps.refl _ | apply examineStandby_keeps | apply settleProgress_keeps

theorem passVisit_keeps (released : Option BayId) (c : Fin 4) (b : BayId) {s t : State} (hk : Keeps s t) :
    Keeps s (passVisit released c b t) := by
  unfold passVisit
  repeat' with_reducible first
    | assumption | exact Keeps.refl _ | apply beginTransfer_keeps | apply endWaiting_keeps | apply setProgress_keeps | apply wakeCause_keeps | split
    | dsimp only

theorem pass_keeps (released : Option BayId) (c : Fin 4) {s t : State} (hk : Keeps s t) : Keeps s (pass released c t) := by
  unfold pass
  repeat' with_reducible first
    | assumption | exact Keeps.refl _ | apply judgeDone_keeps | apply passVisit_keeps | refine Keeps.each _ _ (fun _ _ => ?_) ?_

theorem retryPasses_keeps (released : Option BayId) {s t : State} (hk : Keeps s t) : Keeps s (retryPasses released t) := by
  unfold retryPasses
  repeat' with_reducible first | assumption | exact Keeps.refl _ | apply pass_keeps | refine Keeps.each _ _ (fun _ _ => ?_) ?_

theorem resend_keeps (c : Fin 4) (b : BayId) (offset : Nat) {s t : State} (hk : Keeps s t) : Keeps s (resend c b offset t) := by
  unfold resend
  repeat' with_reducible first
    | assumption | exact Keeps.refl _ | apply placeBlocks_keeps | apply withdraw_keeps | apply Keeps.setChannel | dsimp only

theorem windowMissed_keeps (b : BayId) {s t : State} (hk : Keeps s t) : Keeps s (windowMissed b t) := by
  unfold windowMissed
  repeat' with_reducible first
    | assumption | exact Keeps.refl _ | apply endWaiting_keeps | apply judgeDone_keeps | refine Keeps.each _ _ (fun _ _ => ?_) ?_ | split | dsimp only

end Sys2Proof.Machine
end

