-- ==== Sys2Proof/Laws/KeepsEndings.lean ====
section
/-! SUPPORT. What the endings of runs, cleanings and transfers, SAFE and the holds keep. -/

namespace Sys2Proof.Machine

open Sys2Proof

theorem discardReport_keeps (b : BayId) (o : Order) {s t : State} (hk : Keeps s t) : Keeps s (discardReport b o t) := by
  unfold discardReport
  repeat' with_reducible first | assumption | exact Keeps.refl _ | apply discardBlock_keeps | apply placeOrder_keeps | split | dsimp only

theorem placeSafe_keeps (b : BayId) {s t : State} (hk : Keeps s t) : Keeps s (placeSafe b t) := by
  unfold placeSafe
  dsimp only
  split
  · refine reportSpace_keeps _ (Keeps.each _ _ (fun o u => discardReport_keeps _ _ (.refl u)) ?_)
    exact Keeps.setLine _ _ (fun _ hl => ⟨by simp, nextOrderId_range _, hl.misses⟩) hk
  · exact hk

theorem handOn_keeps (h : HandOn) (b : BayId) {s t : State} (hk : Keeps s t) : Keeps s (handOn h b t) := by
  unfold handOn
  repeat' with_reducible first
    | assumption | exact Keeps.refl _ | apply heatRelease_keeps | apply retryPasses_keeps | apply retryPending_keeps | split

theorem release_keeps (b : BayId) {s t : State} (hk : Keeps s t) : Keeps s (release b t) := by
  unfold release
  repeat' with_reducible first | assumption | exact Keeps.refl _ | refine Keeps.setReg _ _ (fun _ => rfl) ?_ | dsimp only

theorem dropHeldRun_keeps (b : BayId) {s t : State} (hk : Keeps s t) : Keeps s (dropHeldRun b t) := by
  unfold dropHeldRun
  repeat' with_reducible first
    | assumption | exact Keeps.refl _ | refine Keeps.setLine _ _ (fun _ hl => ⟨hl.queue, hl.ids, hl.misses⟩) ?_ | dsimp only

theorem endOrder_keeps (e : EndOrder) (b : BayId) (runId : Nat) {s t : State} (hk : Keeps s t) :
    Keeps s (endOrder e b runId t) := by
  unfold endOrder
  repeat' with_reducible first | assumption | exact Keeps.refl _ | apply dropHeldRun_keeps | apply placeOrder_keeps | apply placeSafe_keeps | split

theorem endRun_keeps (b : BayId) (st : RunState) (reason : RunReason) (e : EndOrder) (h : HandOn) {s t : State} (hk :
    Keeps s t) : Keeps s (endRun b st reason e h t) := by
  unfold endRun
  split
  · exact hk
  · refine queueNotice_keeps _ _ (handOn_keeps _ _ (release_keeps _ (Keeps.setRun _ _ (setHygiene_keeps _ _ (fun x hx => ?_) ?_))))
    · exact ⟨Nat.min_le_right _ _, hx.detergent⟩
    · exact releasePin_keeps _ _ (endOrder_keeps _ _ _ (Keeps.setRun _ _ hk))

theorem abortRun_keeps (b : BayId) (reason : RunReason) {s t : State} (hk : Keeps s t) : Keeps s (abortRun b reason t) := by
  unfold abortRun
  repeat' with_reducible first | assumption | exact Keeps.refl _ | apply endRun_keeps

theorem dropHeldPhase_keeps (b : BayId) {s t : State} (hk : Keeps s t) : Keeps s (dropHeldPhase b t) := by
  unfold dropHeldPhase
  repeat' with_reducible first
    | assumption | exact Keeps.refl _ | refine Keeps.setLine _ _ (fun _ hl => ⟨hl.queue, hl.ids, hl.misses⟩) ?_ | dsimp only

theorem endClean_keeps (b : BayId) (st : CleanState) (o : CleanOutcome) (r : CleanReason) (safe : Bool) (h :
    HandOn) {s t : State} (hk : Keeps s t) : Keeps s (endClean b st o r safe h t) := by
  unfold endClean
  repeat' with_reducible first
    | assumption | exact Keeps.refl _ | apply dropHeldPhase_keeps | apply handOn_keeps | apply placeSafe_keeps | apply queueNotice_keeps
    | apply release_keeps | apply Keeps.setCleanRec | split | dsimp only

theorem endDrying_keeps (b : BayId) (c : CleanRec) {s t : State} (hk : Keeps s t) : Keeps s (endDrying b c t) := by
  unfold endDrying
  repeat' with_reducible first | assumption | exact Keeps.refl _ | apply endClean_keeps | split

theorem endPhase_keeps (b : BayId) {s t : State} (hk : Keeps s t) : Keeps s (endPhase b t) := by
  unfold endPhase
  repeat' with_reducible first
    | assumption | exact Keeps.refl _ | apply endDrying_keeps | apply enterPhase_keeps | apply recompute_keeps | apply rinseCompletion_keeps | split

theorem setHold_keeps (b : BayId) (k : HoldKind) (releasePending : Bool) {s t : State} (hk : Keeps s t) :
    Keeps s (setHold b k releasePending t) := by
  unfold setHold
  repeat' with_reducible first | assumption | exact Keeps.refl _ | apply storeHold_keeps | apply Keeps.setMon | dsimp only

theorem takeHold_keeps (b : BayId) {s t : State} (hk : Keeps s t) : Keeps s (takeHold b t) := by
  unfold takeHold
  repeat' with_reducible first | assumption | exact Keeps.refl _ | apply setHold_keeps | split

theorem actDeferred_keeps (b : BayId) {s t : State} (hk : Keeps s t) : Keeps s (actDeferred b t) := by
  unfold actDeferred
  repeat' with_reducible first | assumption | exact Keeps.refl _ | apply takeHold_keeps | apply Keeps.setMon | split | dsimp only

theorem endTransfer_keeps (c : Fin 4) (b : BayId) (p : Progress) (judge : Bool) (h : HandOn) {s t : State} (hk :
    Keeps s t) : Keeps s (endTransfer c b p judge h t) := by
  unfold endTransfer
  repeat' with_reducible first
    | assumption | exact Keeps.refl _ | apply actDeferred_keeps | apply handOn_keeps | apply judgeDone_keeps | apply placeOrder_keeps
    | apply release_keeps | apply report_keeps | apply setProgress_keeps | apply transferNotice_keeps | apply withdraw_keeps
    | refine Keeps.setLine _ _ (fun _ hl => ⟨hl.queue, hl.ids, hl.misses⟩) ?_ | apply Keeps.setChannel | split | dsimp only

theorem blockMiss_keeps (c : Fin 4) (b : BayId) (offset : Nat) {s t : State} (hk : Keeps s t) :
    Keeps s (blockMiss c b offset t) := by
  unfold blockMiss
  repeat' with_reducible first
    | assumption | exact Keeps.refl _ | apply endTransfer_keeps | apply resend_keeps | apply Keeps.setChannel | split | dsimp only

theorem endJobHeld_keeps (b : BayId) {s t : State} (hk : Keeps s t) : Keeps s (endJobHeld b t) := by
  unfold endJobHeld
  repeat' with_reducible first
    | assumption | exact Keeps.refl _ | apply endClean_keeps | apply endRun_keeps | apply endTransfer_keeps | split | dsimp only

theorem handOnIfEnded_keeps (before : Activity) (b : BayId) {s t : State} (hk : Keeps s t) :
    Keeps s (handOnIfEnded before b t) := by
  unfold handOnIfEnded
  repeat' with_reducible first | assumption | exact Keeps.refl _ | apply handOn_keeps | split

end Sys2Proof.Machine
end

