-- ==== Sys2Proof/Laws/KeepsRegistry.lean ====
section
/-! SUPPORT. What the Bay Registry's operations keep. -/

namespace Sys2Proof.Machine

open Sys2Proof

theorem ovenSilent_keeps (b : BayId) {s t : State} (hk : Keeps s t) : Keeps s (ovenSilent b t) := by
  unfold ovenSilent
  repeat' with_reducible first
    | assumption | exact Keeps.refl _ | apply setCondition_keeps | refine Keeps.setClean _ _ (fun _ hx => hx) ?_ | apply Keeps.setMon
    | exact Keeps.withLine _ rfl hk | dsimp only

theorem enterInterrogating_keeps (b : BayId) {s t : State} (hk : Keeps s t) : Keeps s (enterInterrogating b t) := by
  unfold enterInterrogating
  repeat' with_reducible first
    | assumption | exact Keeps.refl _ | apply heatPower_keeps | apply placeOrder_keeps | apply sendAllowance_keeps
    | refine Keeps.setReg _ _ (fun _ => rfl) ?_ | refine Keeps.setHeat _ _ (fun _ => rfl) ?_ | split | dsimp only

theorem enterState_keeps (b : BayId) (st old : BayState) {s t : State} (hk : Keeps s t) : Keeps s (enterState b st old t) := by
  unfold enterState
  repeat' with_reducible first
    | assumption | exact Keeps.refl _ | apply clearStarvation_keeps | apply emptyQueue_keeps | apply enterInterrogating_keeps | apply heatGone_keeps
    | apply heatReady_keeps | apply ovenSilent_keeps | apply recompute_keeps | apply setCondition_keeps
    | refine Keeps.setLine _ _ (fun _ hl => ⟨hl.queue, hl.ids, hl.misses⟩) ?_ | split | dsimp only

theorem leaveState_keeps (b : BayId) (old : BayState) {s t : State} (hk : Keeps s t) : Keeps s (leaveState b old t) := by
  unfold leaveState
  repeat' with_reducible first | assumption | exact Keeps.refl _ | apply setCondition_keeps | split

theorem setBayState_keeps (b : BayId) (st : BayState) (cause : BayCause) {s t : State} (hk : Keeps s t) :
    Keeps s (setBayState b st cause t) := by
  unfold setBayState
  repeat' with_reducible first
    | assumption | exact Keeps.refl _ | apply enterState_keeps | apply leaveState_keeps | apply queueNotice_keeps
    | refine Keeps.setReg _ _ (fun _ => rfl) ?_ | split | dsimp only

theorem abandonContext_keeps (b : BayId) {s t : State} (hk : Keeps s t) : Keeps s (abandonContext b t) := by
  unfold abandonContext
  repeat' with_reducible first | assumption | exact Keeps.refl _ | apply report_keeps | refine Keeps.setReg _ _ (fun _ => rfl) ?_ | split | dsimp only

theorem endJobTorn_keeps (b : BayId) (lost : Bool) {s t : State} (hk : Keeps s t) : Keeps s (endJobTorn b lost t) := by
  unfold endJobTorn
  repeat' with_reducible first | assumption | exact Keeps.refl _ | apply endClean_keeps | apply endRun_keeps | apply endTransfer_keeps | split

theorem teardown_keeps (b : BayId) (lost : Bool) {s t : State} (hk : Keeps s t) : Keeps s (teardown b lost t) := by
  unfold teardown
  exact recomputeBut_keeps _ (clearStarvation_keeps _ (Keeps.setReg _ _ (fun _ => rfl)
    (Keeps.setLine _ _ (fun _ hl => ⟨hl.queue, hl.ids, Nat.zero_le _⟩)
      (emptyQueue_keeps _ (endJobTorn_keeps _ _ (abandonContext_keeps _ hk))))))

theorem tearDownTo_keeps (b : BayId) (lost owed : Bool) (st : BayState) (cause : BayCause) {s t : State} (hk :
    Keeps s t) : Keeps s (tearDownTo b lost owed st cause t) := by
  unfold tearDownTo
  repeat' with_reducible first
    | assumption | exact Keeps.refl _ | apply handOn_keeps | apply setBayState_keeps | apply teardown_keeps | split | dsimp only

theorem goLost_keeps (b : BayId) (owed : Bool) {s t : State} (hk : Keeps s t) : Keeps s (goLost b owed t) := by
  unfold goLost
  repeat' with_reducible first | assumption | exact Keeps.refl _ | apply tearDownTo_keeps

theorem countPoll_keeps (b : BayId) {s t : State} (hk : Keeps s t) : Keeps s (countPoll b t) := by
  unfold countPoll
  repeat' with_reducible first | assumption | exact Keeps.refl _ | apply goLost_keeps | refine Keeps.setReg _ _ (fun _ => rfl) ?_ | split | dsimp only

theorem supplyOutcome_keeps (b : BayId) (i : Identity) (supply circuitMax : Nat) (pass : BayCause) {s t : State} (hk :
    Keeps s t) : Keeps s (supplyOutcome b i supply circuitMax pass t) := by
  unfold supplyOutcome
  repeat' with_reducible first | assumption | exact Keeps.refl _ | apply pass_keeps | apply setBayState_keeps | split

theorem dropCommission_keeps (b : BayId) {s t : State} (hk : Keeps s t) : Keeps s (dropCommission b t) := by
  unfold dropCommission
  repeat' with_reducible first | assumption | exact Keeps.refl _ | apply storeRecord_keeps | refine Keeps.setReg _ _ (fun _ => rfl) ?_ | dsimp only

theorem takeIdentity_keeps (b : BayId) (i : Identity) {s t : State} (hk : Keeps s t) : Keeps s (takeIdentity b i t) := by
  unfold takeIdentity
  repeat' with_reducible first
    | assumption | exact Keeps.refl _ | apply dropCommission_keeps | apply setBayState_keeps | apply supplyOutcome_keeps
    | refine Keeps.setReg _ _ (fun _ => rfl) ?_ | split | dsimp only

theorem cleanPowerOn_keeps (b : BayId) {s t : State} (hk : Keeps s t) : Keeps s (cleanPowerOn b t) := by
  unfold cleanPowerOn
  repeat' with_reducible first
    | assumption | exact Keeps.refl _ | apply leaveRequested_keeps | apply recompute_keeps | apply retryPending_keeps | apply Keeps.setCleanRec
    | split | dsimp only

theorem takePower_keeps (b : BayId) (p : Power) {s t : State} (hk : Keeps s t) : Keeps s (takePower b p t) := by
  unfold takePower
  repeat' with_reducible first
    | assumption | exact Keeps.refl _ | apply cleanPowerOn_keeps | apply heatPower_keeps | apply retryPasses_keeps | apply runPowerOn_keeps
    | refine Keeps.setReg _ _ (fun _ => rfl) ?_ | split | dsimp only

theorem storeCommission_keeps (b : BayId) (c : Commission) {s t : State} (hk : Keeps s t) : Keeps s (storeCommission b c t) := by
  unfold storeCommission
  repeat' with_reducible first | assumption | exact Keeps.refl _ | apply storePut_keeps

theorem completeContext_keeps (b : BayId) (c : CommContext) {s t : State} (hk : Keeps s t) : Keeps s (completeContext b c t) := by
  unfold completeContext
  repeat' with_reducible first
    | assumption | exact Keeps.refl _ | apply setBayState_keeps | apply storeCommission_keeps | refine Keeps.setReg _ _ (fun _ => rfl) ?_ | split
    | dsimp only

theorem abandonTo_keeps (b : BayId) {s t : State} (hk : Keeps s t) : Keeps s (abandonTo b t) := by
  unfold abandonTo
  repeat' with_reducible first | assumption | exact Keeps.refl _ | apply abandonContext_keeps | apply setBayState_keeps | split

/-! The reading of the contacts keeps all but the recorded presence of the bay. -/

theorem becomePresent_steady (b : BayId) (s : State) : Steady s (becomePresent b s) := by
  unfold becomePresent
  exact (Steady.setReg s b _).trans (setCondition_keeps _ _ _ (setBayState_keeps _ _ _ (.refl _))).steady

theorem becomePartial_steady (b : BayId) (s : State) : Steady s (becomePartial b s) := by
  unfold becomePartial
  dsimp only
  refine (Steady.setReg s b (fun x => { x with presence := .partly })).trans (Keeps.steady (Keeps.setReg _ _ (fun _ => rfl) ?_))
  split
  · exact tearDownTo_keeps _ _ _ _ _ (.refl _)
  · exact setBayState_keeps _ _ _ (.refl _)

theorem becomeAbsent_steady (b : BayId) (s : State) : Steady s (becomeAbsent b s) := by
  unfold becomeAbsent
  dsimp only
  refine (Steady.setReg s b (fun x => { x with presence := .absent })).trans (Keeps.steady (setCondition_keeps _ _ _ ?_))
  split
  · refine Keeps.setReg _ _ (fun _ => rfl) ?_
    split
    · exact tearDownTo_keeps _ _ _ _ _ (.refl _)
    · exact setBayState_keeps _ _ _ (.refl _)
  · refine heatPower_keeps _ (Keeps.setReg _ _ (fun _ => rfl) ?_)
    split
    · exact tearDownTo_keeps _ _ _ _ _ (.refl _)
    · exact setBayState_keeps _ _ _ (.refl _)

theorem readContacts_steady (b : BayId) (s : State) : Steady s (readContacts b s) := by
  unfold readContacts
  dsimp only
  split
  · exact .refl s
  · split
    · exact becomePresent_steady b s
    · exact becomePartial_steady b s
    · exact becomeAbsent_steady b s


end Sys2Proof.Machine
end

