-- ==== Sys2Proof/Laws/KeepsLink.lean ====
section
/-! SUPPORT. What the Host Link's operations keep, whatever the owners of the verbs do. -/

namespace Sys2Proof.Machine

open Sys2Proof

/-! ## The forms of an owner's answer -/

theorem okay_keeps (v : Verb) (fields : List Tok) {s t : State} (hk : Keeps s t) : Keeps s (okay v fields t).1 := hk

theorem refuse_keeps (v : Verb) (r : Reason) {s t : State} (hk : Keeps s t) : Keeps s (refuse v r t).1 := hk

theorem withFields_keeps {α : Type} (v : Verb) (parse : List Txt → Option α) (owner : α → State → Served) (f : List Txt) {s t : State}
    (ho : ∀ a, Keeps s (owner a t).1) (hk : Keeps s t) : Keeps s (withFields v parse owner f t).1 := by
  unfold withFields
  split
  · exact ho _
  · exact hk

theorem onBay_keeps (v : Verb) (n : Nat) (k : BayId → State → Served) {s t : State} (ho : ∀ b, Keeps s (k b t).1) (hk : Keeps s t) :
    Keeps s (onBay v n k t).1 := by
  unfold onBay
  split
  · exact ho _
  · exact hk

/-! ## The Host Link -/

theorem pump_keeps {s t : State} (hk : Keeps s t) : Keeps s (pump t) := by
  unfold pump
  split
  · exact Keeps.withHost _ (fun hb => ⟨hb.notices, hb.overflow, hb.lost⟩) hk
  · exact Keeps.withHost _ (fun hb => ⟨hb.notices, hb.overflow, hb.lost⟩) hk
  · exact hk

theorem freeBuffer_keeps {s t : State} (hk : Keeps s t) : Keeps s (freeBuffer t) :=
  Keeps.withHost _ (fun hb => ⟨hb.notices, hb.overflow, hb.lost⟩) hk

/-- Taking a line keeps what the owners keep. -/
theorem takeLine_keeps (owners : Verb → List Txt → State → Served) (ho : ∀ v f u, Keeps u (owners v f u).1) (early : Bool)
    (l : InLine) {s t : State} (hk : Keeps s t) : Keeps s (takeLine owners early l t) := by
  unfold takeLine
  refine Keeps.withHost _ (fun hb => ⟨hb.notices, hb.overflow, hb.lost⟩) ?_
  unfold serveLine
  split
  · exact hk
  · split <;> exact hk
  · split
    · exact hk
    · exact hk.trans (ho _ _ _)

theorem loseLine_keeps {s t : State} (hk : Keeps s t) : Keeps s (loseLine t) := by
  unfold loseLine
  exact Keeps.withHost _ (fun hb => ⟨hb.notices, hb.overflow, Nat.min_le_right _ _⟩) hk

theorem answerLost_keeps {s t : State} (hk : Keeps s t) : Keeps s (answerLost t) := by
  unfold answerLost
  exact Keeps.withHost _ (fun hb => ⟨hb.notices, hb.overflow, (Nat.sub_le _ _).trans hb.lost⟩) hk

theorem noticeGone_keeps {s t : State} (hk : Keeps s t) : Keeps s (noticeGone t) := by
  unfold noticeGone
  dsimp only
  split
  · split
    · refine queueNotice_keeps _ _ (Keeps.withHost _ (fun hb => ⟨?_, fun _ _ e => by simp at e, hb.lost⟩) hk)
      exact (by simp : t.host.notices.tail.length ≤ t.host.notices.length).trans hb.notices
    · refine Keeps.withHost _ (fun hb => ⟨?_, hb.overflow, hb.lost⟩) hk
      exact (by simp : t.host.notices.tail.length ≤ t.host.notices.length).trans hb.notices
  · exact hk

theorem emptyArrives_keeps {s t : State} (hk : Keeps s t) : Keeps s (emptyArrives t) := by
  unfold emptyArrives
  repeat' with_reducible first | assumption | exact Keeps.refl _ | apply loseLine_keeps | split

theorem receive_keeps (owners : Verb → List Txt → State → Served) (ho : ∀ v f u, Keeps u (owners v f u).1) (l : InLine) {s t : State}
    (hk : Keeps s t) : Keeps s (receive owners l t) := by
  unfold receive
  split
  · exact hk
  · split
    · exact loseLine_keeps hk
    · split
      · exact Keeps.withHost _ (fun hb => ⟨hb.notices, hb.overflow, hb.lost⟩) hk
      · exact takeLine_keeps owners ho _ l hk

theorem takeNext_keeps (owners : Verb → List Txt → State → Served) (ho : ∀ v f u, Keeps u (owners v f u).1) {s t : State}
    (hk : Keeps s t) : Keeps s (takeNext owners t) := by
  unfold takeNext
  split
  · split
    · exact takeLine_keeps owners ho _ _ (freeBuffer_keeps hk)
    · exact answerLost_keeps hk
  · split
    · exact hk
    · exact answerLost_keeps hk

theorem replyGone_keeps (owners : Verb → List Txt → State → Served) (ho : ∀ v f u, Keeps u (owners v f u).1) {s t : State}
    (hk : Keeps s t) : Keeps s (replyGone owners t) := by
  unfold replyGone
  dsimp only
  split
  · split
    · exact freeBuffer_keeps (Keeps.withHost _ (fun hb => ⟨hb.notices, hb.overflow, hb.lost⟩) hk)
    · exact takeNext_keeps owners ho (Keeps.withHost _ (fun hb => ⟨hb.notices, hb.overflow, hb.lost⟩) hk)
  · exact hk


end Sys2Proof.Machine
end

