-- ==== Sys2Proof/Laws/KeepsBay.lean ====
section
/-! SUPPORT. What the requests to the Bay Registry and its expiries keep. -/

namespace Sys2Proof.Machine

open Sys2Proof

theorem serveShowBay_keeps (f : List Txt) {s t : State} (hk : Keeps s t) : Keeps s (serveShowBay f t).1 := by
  unfold serveShowBay
  repeat' with_reducible first
    | assumption | exact Keeps.refl _ | apply okay_keeps | refine withFields_keeps _ _ _ _ (fun _ => ?_) hk
    | refine onBay_keeps _ _ _ (fun _ => ?_) hk | dsimp only | split

theorem completeReply_keeps (v : Verb) (b : BayId) (c : CommContext) {s t : State} (hk : Keeps s t) :
    Keeps s (completeReply v b c t).1 := by
  unfold completeReply
  repeat' with_reducible first | assumption | exact Keeps.refl _ | apply okay_keeps | apply completeContext_keeps | split | dsimp only

theorem beginSequence_keeps (p : BeginFields) (before : BayState) {s t : State} (hk : Keeps s t) :
    Keeps s (beginSequence p before t).1 := by
  unfold beginSequence
  repeat' with_reducible first
    | assumption | exact Keeps.refl _ | apply okay_keeps | apply completeReply_keeps | apply setBayState_keeps
    | refine Keeps.setReg _ _ (fun _ => rfl) ?_ | split | dsimp only

theorem serveCommissionBegin_keeps (f : List Txt) {s t : State} (hk : Keeps s t) : Keeps s (serveCommissionBegin f t).1 := by
  unfold serveCommissionBegin
  repeat' with_reducible first
    | assumption | exact Keeps.refl _ | apply refuse_keeps | refine withFields_keeps _ _ _ _ (fun _ => ?_) hk | apply beginSequence_keeps | split
    | dsimp only

theorem outOfTurn_keeps (v : Verb) (b : BayId) {s t : State} (hk : Keeps s t) : Keeps s (outOfTurn v b t).1 := by
  unfold outOfTurn
  repeat' with_reducible first | assumption | exact Keeps.refl _ | apply refuse_keeps | apply abandonTo_keeps | dsimp only | split

theorem serveCommissionLimits_keeps (f : List Txt) {s t : State} (hk : Keeps s t) : Keeps s (serveCommissionLimits f t).1 := by
  unfold serveCommissionLimits
  repeat' with_reducible first
    | assumption | exact Keeps.refl _ | apply okay_keeps | apply refuse_keeps | refine withFields_keeps _ _ _ _ (fun _ => ?_) hk
    | refine onBay_keeps _ _ _ (fun _ => ?_) hk | apply completeReply_keeps | apply outOfTurn_keeps | refine Keeps.setReg _ _ (fun _ => rfl) ?_
    | split | dsimp only

theorem serveCommissionOptions_keeps (f : List Txt) {s t : State} (hk : Keeps s t) : Keeps s (serveCommissionOptions f t).1 := by
  unfold serveCommissionOptions
  repeat' with_reducible first
    | assumption | exact Keeps.refl _ | apply refuse_keeps | refine withFields_keeps _ _ _ _ (fun _ => ?_) hk
    | refine onBay_keeps _ _ _ (fun _ => ?_) hk | apply completeReply_keeps | apply outOfTurn_keeps | split | dsimp only

theorem serveDecommission_keeps (f : List Txt) {s t : State} (hk : Keeps s t) : Keeps s (serveDecommission f t).1 := by
  unfold serveDecommission
  repeat' with_reducible first
    | assumption | exact Keeps.refl _ | apply okay_keeps | apply refuse_keeps | refine withFields_keeps _ _ _ _ (fun _ => ?_) hk
    | refine onBay_keeps _ _ _ (fun _ => ?_) hk | apply dropCommission_keeps | apply setBayState_keeps | apply teardown_keeps | split | dsimp only

theorem serveSetMenu_keeps (f : List Txt) {s t : State} (hk : Keeps s t) : Keeps s (serveSetMenu f t).1 := by
  unfold serveSetMenu
  repeat' with_reducible first
    | assumption | exact Keeps.refl _ | apply okay_keeps | apply refuse_keeps | refine withFields_keeps _ _ _ _ (fun _ => ?_) hk
    | refine onBay_keeps _ _ _ (fun _ => ?_) hk | apply storeCommission_keeps | refine Keeps.setReg _ _ (fun _ => rfl) ?_ | split | dsimp only

end Sys2Proof.Machine
end

