-- ==== Sys2Proof/Laws/KeepsCleanRequests.lean ====
section
/-! SUPPORT. What the requests to the Sequencer and its expiries keep. -/

namespace Sys2Proof.Machine

open Sys2Proof

theorem serveCleanStart_keeps (f : List Txt) {s t : State} (hk : Keeps s t) : Keeps s (serveCleanStart f t).1 := by
  unfold serveCleanStart
  repeat' with_reducible first
    | assumption | exact Keeps.refl _ | apply okay_keeps | apply refuse_keeps | refine withFields_keeps _ _ _ _ (fun _ => ?_) hk
    | refine onBay_keeps _ _ _ (fun _ => ?_) hk | apply startCleaning_keeps | split | dsimp only

theorem abortClean_keeps (b : BayId) (st : CleanState) {s t : State} (hk : Keeps s t) : Keeps s (abortClean b st t).1 := by
  unfold abortClean
  repeat' with_reducible first | assumption | exact Keeps.refl _ | apply endClean_keeps | apply forceRinse_keeps | split

theorem serveCleanAbort_keeps (f : List Txt) {s t : State} (hk : Keeps s t) : Keeps s (serveCleanAbort f t).1 := by
  unfold serveCleanAbort
  repeat' with_reducible first
    | assumption | exact Keeps.refl _ | apply okay_keeps | apply refuse_keeps | refine withFields_keeps _ _ _ _ (fun _ => ?_) hk
    | refine onBay_keeps _ _ _ (fun _ => ?_) hk | apply abortClean_keeps | split | dsimp only

theorem serveSetDetergent_keeps (f : List Txt) {s t : State} (hk : Keeps s t) : Keeps s (serveSetDetergent f t).1 := by
  unfold serveSetDetergent
  refine withFields_keeps _ _ _ _ (fun p => onBay_keeps _ _ _ (fun b => ?_) hk) hk
  split
  · next hn =>
    refine okay_keeps _ _ (setHygiene_keeps _ _ (fun x hx => ⟨hx.soil, hn⟩) hk)
  · exact refuse_keeps _ _ hk

theorem serveShowCleaning_keeps (f : List Txt) {s t : State} (hk : Keeps s t) : Keeps s (serveShowCleaning f t).1 := by
  unfold serveShowCleaning
  repeat' with_reducible first
    | assumption | exact Keeps.refl _ | apply okay_keeps | apply refuse_keeps | refine withFields_keeps _ _ _ _ (fun _ => ?_) hk
    | refine onBay_keeps _ _ _ (fun _ => ?_) hk | split | dsimp only

theorem serveShowHygiene_keeps (f : List Txt) {s t : State} (hk : Keeps s t) : Keeps s (serveShowHygiene f t).1 := by
  unfold serveShowHygiene
  repeat' with_reducible first
    | assumption | exact Keeps.refl _ | apply okay_keeps | refine withFields_keeps _ _ _ _ (fun _ => ?_) hk
    | refine onBay_keeps _ _ _ (fun _ => ?_) hk | dsimp only | split

theorem phaseDurationEnds_keeps (b : BayId) {s t : State} (hk : Keeps s t) : Keeps s (phaseDurationEnds b t) := by
  unfold phaseDurationEnds
  repeat' with_reducible first | assumption | exact Keeps.refl _ | apply endPhase_keeps | apply Keeps.setCleanRec | split | dsimp only

theorem overrunExpires_keeps (b : BayId) {s t : State} (hk : Keeps s t) : Keeps s (overrunExpires b t) := by
  unfold overrunExpires
  repeat' with_reducible first
    | assumption | exact Keeps.refl _ | apply endClean_keeps | apply forceRinse_keeps | apply report_keeps | split | dsimp only

theorem cleanWakeExpires_keeps (b : BayId) {s t : State} (hk : Keeps s t) : Keeps s (cleanWakeExpires b t) := by
  unfold cleanWakeExpires
  repeat' with_reducible first | assumption | exact Keeps.refl _ | apply endClean_keeps | apply report_keeps | split

theorem coolingExpires_keeps (b : BayId) {s t : State} (hk : Keeps s t) : Keeps s (coolingExpires b t) := by
  unfold coolingExpires
  repeat' with_reducible first | assumption | exact Keeps.refl _ | apply endClean_keeps | apply report_keeps | split

theorem cleanDoorExpires_keeps (b : BayId) {s t : State} (hk : Keeps s t) : Keeps s (cleanDoorExpires b t) := by
  unfold cleanDoorExpires
  repeat' with_reducible first | assumption | exact Keeps.refl _ | apply endClean_keeps | apply report_keeps | split

end Sys2Proof.Machine
end

