-- ==== Sys2Proof/Laws/KeepsRecords.lean ====
section
/-! SUPPORT. What the use of status records and the windows keep. -/

namespace Sys2Proof.Machine

open Sys2Proof

theorem serviceTake_keeps (b : BayId) {s t : State} (hk : Keeps s t) : Keeps s (serviceTake b t) := by
  unfold serviceTake
  repeat' with_reducible first
    | assumption | exact Keeps.refl _ | apply endJobHeld_keeps | apply handOnIfEnded_keeps | apply takeHold_keeps | apply Keeps.setMon | split
    | dsimp only

theorem serviceLeave_keeps (b : BayId) {s t : State} (hk : Keeps s t) : Keeps s (serviceLeave b t) := by
  unfold serviceLeave
  repeat' with_reducible first | assumption | exact Keeps.refl _ | apply setHold_keeps | apply Keeps.setMon | split | dsimp only

theorem takeMode_keeps (b : BayId) (service : Bool) {s t : State} (hk : Keeps s t) : Keeps s (takeMode b service t) := by
  unfold takeMode
  repeat' with_reducible first
    | assumption | exact Keeps.refl _ | apply serviceLeave_keeps | apply serviceTake_keeps | apply Keeps.setMon | split | dsimp only

theorem advanceRun_keeps (b : BayId) {s t : State} (hk : Keeps s t) : Keeps s (advanceRun b t) := by
  unfold advanceRun
  repeat' with_reducible first
    | assumption | exact Keeps.refl _ | apply endRun_keeps | apply orderStep_keeps | apply Keeps.setRun | split | dsimp only

theorem endStep_keeps (b : BayId) (st : Step) {s t : State} (hk : Keeps s t) : Keeps s (endStep b st t) := by
  unfold endStep
  repeat' with_reducible first
    | assumption | exact Keeps.refl _ | apply advanceRun_keeps | apply recompute_keeps | apply runStep_keeps | apply Keeps.setRun | split | dsimp only

theorem useRecord_keeps (b : BayId) (st : Step) (rec' : Report) {s t : State} (hk : Keeps s t) :
    Keeps s (useRecord b st rec' t) := by
  unfold useRecord
  repeat' with_reducible first | assumption | exact Keeps.refl _ | apply endStep_keeps | apply probeCall_keeps | split | dsimp only

theorem runningRecord_keeps (b : BayId) (rec' : Report) {s t : State} (hk : Keeps s t) : Keeps s (runningRecord b rec' t) := by
  unfold runningRecord
  repeat' with_reducible first | assumption | exact Keeps.refl _ | apply reorderStep_keeps | apply useRecord_keeps | split

theorem pauseRun_keeps (b : BayId) {s t : State} (hk : Keeps s t) : Keeps s (pauseRun b t) := by
  unfold pauseRun
  repeat' with_reducible first | assumption | exact Keeps.refl _ | apply recompute_keeps | apply runStep_keeps | apply Keeps.setRun | dsimp only

theorem resumeRun_keeps (b : BayId) {s t : State} (hk : Keeps s t) : Keeps s (resumeRun b t) := by
  unfold resumeRun
  repeat' with_reducible first
    | assumption | exact Keeps.refl _ | apply recompute_keeps | apply runStep_keeps | apply Keeps.setRun | split | dsimp only

theorem promptingRecord_keeps (b : BayId) (r : Run) (rec' : Report) {s t : State} (hk : Keeps s t) :
    Keeps s (promptingRecord b r rec' t) := by
  unfold promptingRecord
  repeat' with_reducible first
    | assumption | exact Keeps.refl _ | apply advanceRun_keeps | apply reorderStep_keeps | apply Keeps.setRun | split | dsimp only

theorem runStandby_keeps (b : BayId) (r : Run) {s t : State} (hk : Keeps s t) : Keeps s (runStandby b r t) := by
  unfold runStandby
  repeat' with_reducible first | assumption | exact Keeps.refl _ | apply wakeCause_keeps | apply Keeps.setRun | split | dsimp only

theorem runDoor_keeps (b : BayId) (r : Run) (rec' : Report) {s t : State} (hk : Keeps s t) : Keeps s (runDoor b r rec' t) := by
  unfold runDoor
  repeat' with_reducible first
    | assumption | exact Keeps.refl _ | apply pauseRun_keeps | apply promptingRecord_keeps | apply resumeRun_keeps | apply runningRecord_keeps | split
    | dsimp only

theorem runRecord_keeps (b : BayId) (rec' : Report) {s t : State} (hk : Keeps s t) : Keeps s (runRecord b rec' t) := by
  unfold runRecord
  repeat' with_reducible first
    | assumption | exact Keeps.refl _ | apply abortRun_keeps | apply runDoor_keeps | apply runStandby_keeps | apply Keeps.setRun | split | dsimp only

theorem cleanProgress_keeps (b : BayId) (cabinet : Int) {s t : State} (hk : Keeps s t) : Keeps s (cleanProgress b cabinet t) := by
  unfold cleanProgress
  repeat' with_reducible first | assumption | exact Keeps.refl _ | apply endPhase_keeps | apply enterFirst_keeps | apply recompute_keeps | split

theorem cleanOff_keeps (b : BayId) (c : CleanRec) {s t : State} (hk : Keeps s t) : Keeps s (cleanOff b c t) := by
  unfold cleanOff
  repeat' with_reducible first | assumption | exact Keeps.refl _ | apply endClean_keeps | apply report_keeps | split

theorem cleanFault_keeps (b : BayId) (fault : Nat) (c : CleanRec) {s t : State} (hk : Keeps s t) :
    Keeps s (cleanFault b fault c t) := by
  unfold cleanFault
  repeat' with_reducible first | assumption | exact Keeps.refl _ | apply forceRinse_keeps | apply report_keeps | split

theorem cleanRecord_keeps (b : BayId) (rec' : Report) {s t : State} (hk : Keeps s t) : Keeps s (cleanRecord b rec' t) := by
  unfold cleanRecord
  repeat' with_reducible first
    | assumption | exact Keeps.refl _ | apply cleanFault_keeps | apply cleanOff_keeps | apply cleanProgress_keeps | apply takeDoses_keeps
    | apply wakeCause_keeps | apply Keeps.setCleanRec | split | dsimp only

theorem takeAck_keeps (c : Fin 4) (b : BayId) (ack : Nat) {s t : State} (hk : Keeps s t) : Keeps s (takeAck c b ack t) := by
  unfold takeAck
  repeat' with_reducible first | assumption | exact Keeps.refl _ | apply blockMiss_keeps | apply Keeps.setChannel | split | dsimp only

theorem takeRejected_keeps (c : Fin 4) (b : BayId) (image : Nat) {s t : State} (hk : Keeps s t) :
    Keeps s (takeRejected c b image t) := by
  unfold takeRejected
  repeat' with_reducible first | assumption | exact Keeps.refl _ | apply blockMiss_keeps | split | dsimp only

theorem useBlocks_keeps (c : Fin 4) (b : BayId) (rec' : Report) {s t : State} (hk : Keeps s t) :
    Keeps s (useBlocks c b rec' t) := by
  unfold useBlocks
  repeat' with_reducible first
    | assumption | exact Keeps.refl _ | apply offerIfComplete_keeps | apply placeBlocks_keeps | apply takeAck_keeps | apply takeRejected_keeps
    | apply Keeps.setChannel | split | dsimp only

theorem useImage_keeps (c : Fin 4) (b : BayId) (image : Nat) {s t : State} (hk : Keeps s t) : Keeps s (useImage c b image t) := by
  unfold useImage
  repeat' with_reducible first
    | assumption | exact Keeps.refl _ | apply endTransfer_keeps | apply placeOrder_keeps | apply Keeps.setChannel | split | dsimp only

theorem transferRecord_keeps (b : BayId) (rec' : Report) {s t : State} (hk : Keeps s t) : Keeps s (transferRecord b rec' t) := by
  unfold transferRecord
  repeat' with_reducible first
    | assumption | exact Keeps.refl _ | apply useBlocks_keeps | apply useImage_keeps | apply wakeCause_keeps | split | dsimp only

theorem denyRun_keeps (b : BayId) (index : Nat) (r : Reason) {s t : State} (hk : Keeps s t) : Keeps s (denyRun b index r t) := by
  unfold denyRun
  repeat' with_reducible first | assumption | exact Keeps.refl _ | apply placeOrder_keeps | apply queueNotice_keeps

theorem denyRinse_keeps (b : BayId) (r : Reason) {s t : State} (hk : Keeps s t) : Keeps s (denyRinse b r t) := by
  unfold denyRinse
  repeat' with_reducible first | assumption | exact Keeps.refl _ | apply placeOrder_keeps | apply queueNotice_keeps

theorem servePanel_keeps (b : BayId) (index : Nat) {s t : State} (hk : Keeps s t) : Keeps s (servePanel b index t) := by
  unfold servePanel
  repeat' with_reducible first
    | assumption | exact Keeps.refl _ | apply denyRinse_keeps | apply denyRun_keeps | apply startCleaning_keeps | apply startRun_keeps
    | apply wakeCause_keeps | split | dsimp only

theorem openEffects_keeps (n : Fin 24) (e : SchedEntry) {s t : State} (hk : Keeps s t) : Keeps s (openEffects n e t) := by
  unfold openEffects
  repeat' with_reducible first
    | assumption | exact Keeps.refl _ | apply retryPasses_keeps | apply wakeCause_keeps | apply windowClean_keeps
    | refine Keeps.each _ _ (fun _ _ => ?_) ?_ | split | dsimp only

theorem openWindow_keeps (n : Fin 24) (e : SchedEntry) {s t : State} (hk : Keeps s t) : Keeps s (openWindow n e t) := by
  unfold openWindow
  exact openEffects_keeps _ _ (queueNotice_keeps _ _ (Keeps.withSched _ hk))

theorem closeEffect_keeps (k : WindowKind) (b : BayId) {s t : State} (hk : Keeps s t) : Keeps s (closeEffect k b t) := by
  unfold closeEffect
  repeat' with_reducible first
    | assumption | exact Keeps.refl _ | apply cleanWindowLeft_keeps | apply examineStandby_keeps | apply windowMissed_keeps | split

theorem closeEntryWindow_keeps (n : Fin 24) (cause : String) {s t : State} (hk : Keeps s t) :
    Keeps s (closeEntryWindow n cause t) := by
  unfold closeEntryWindow
  split
  · exact hk
  · exact Keeps.each _ _ (fun a u => closeEffect_keeps _ _ (.refl u)) (queueNotice_keeps _ _ (Keeps.withSched _ hk))

theorem matchEntry_keeps (c : Calendar) (n : Fin 24) {s t : State} (hk : Keeps s t) : Keeps s (matchEntry c n t) := by
  unfold matchEntry
  repeat' with_reducible first | assumption | exact Keeps.refl _ | apply openWindow_keeps | split

theorem matchBoundary_keeps {s t : State} (hk : Keeps s t) : Keeps s (matchBoundary t) := by
  unfold matchBoundary
  repeat' with_reducible first | assumption | exact Keeps.refl _ | apply matchEntry_keeps | refine Keeps.each _ _ (fun _ _ => ?_) ?_ | split

theorem minuteBoundary_keeps {s t : State} (hk : Keeps s t) : Keeps s (minuteBoundary t) := by
  unfold minuteBoundary
  repeat' with_reducible first | assumption | exact Keeps.refl _ | apply lookAheadAll_keeps | apply matchBoundary_keeps

theorem updateClock_keeps {s t : State} (hk : Keeps s t) : Keeps s (updateClock t) := by
  unfold updateClock
  dsimp only
  split
  · exact minuteBoundary_keeps (Keeps.withClock _ hk)
  · exact Keeps.withClock _ hk

end Sys2Proof.Machine
end

