-- ==== Sys2Proof/Laws/KeepsClock.lean ====
section
/-! SUPPORT. What the requests to the Site Clock and the Schedule Table and its expiries keep. -/

namespace Sys2Proof.Machine

open Sys2Proof

theorem setCalendar_keeps (c : Calendar) (dst : Bool) {s t : State} (hk : Keeps s t) : Keeps s (setCalendar c dst t) := by
  unfold setCalendar
  exact lookAheadAll_keeps (Keeps.withClock _ hk)

theorem serveSetClock_keeps (f : List Txt) {s t : State} (hk : Keeps s t) : Keeps s (serveSetClock f t).1 := by
  unfold serveSetClock
  repeat' with_reducible first
    | assumption | exact Keeps.refl _ | apply okay_keeps | apply refuse_keeps | refine withFields_keeps _ _ _ _ (fun _ => ?_) hk
    | apply setCalendar_keeps | split | dsimp only

theorem setRule_keeps (r : DstRule) {s t : State} (hk : Keeps s t) : Keeps s (setRule r t) := by
  unfold setRule
  exact lookAheadAll_keeps (storePut_keeps _ (Keeps.withClock _ hk))

theorem serveSetDst_keeps (f : List Txt) {s t : State} (hk : Keeps s t) : Keeps s (serveSetDst f t).1 := by
  unfold serveSetDst
  repeat' with_reducible first
    | assumption | exact Keeps.refl _ | apply okay_keeps | apply refuse_keeps | refine withFields_keeps _ _ _ _ (fun _ => ?_) hk | apply setRule_keeps
    | split | dsimp only

theorem serveShowClock_keeps (f : List Txt) {s t : State} (hk : Keeps s t) : Keeps s (serveShowClock f t).1 := by
  unfold serveShowClock
  repeat' with_reducible first
    | assumption | exact Keeps.refl _ | apply okay_keeps | refine withFields_keeps _ _ _ _ (fun _ => ?_) hk | dsimp only | split

theorem setEntry_keeps (n : Fin 24) (e : Option SchedEntry) {s t : State} (hk : Keeps s t) : Keeps s (setEntry n e t) := by
  unfold setEntry
  repeat' with_reducible first | assumption | exact Keeps.refl _ | exact Keeps.withSched _ hk | dsimp only

theorem entryChanged_keeps (n : Fin 24) {s t : State} (hk : Keeps s t) : Keeps s (entryChanged n t) := by
  unfold entryChanged
  repeat' with_reducible first | assumption | exact Keeps.refl _ | apply dropDue_keeps | apply lookAheadAll_keeps

theorem rewriteEntry_keeps (n : Fin 24) (e : SchedEntry) {s t : State} (hk : Keeps s t) : Keeps s (rewriteEntry n e t) := by
  unfold rewriteEntry
  repeat' with_reducible first
    | assumption | exact Keeps.refl _ | apply closeEntryWindow_keeps | apply entryChanged_keeps | apply setEntry_keeps | apply storePut_keeps

theorem serveScheduleSet_keeps (f : List Txt) {s t : State} (hk : Keeps s t) : Keeps s (serveScheduleSet f t).1 := by
  unfold serveScheduleSet
  repeat' with_reducible first
    | assumption | exact Keeps.refl _ | apply okay_keeps | apply refuse_keeps | refine withFields_keeps _ _ _ _ (fun _ => ?_) hk
    | apply rewriteEntry_keeps | split | dsimp only

theorem clearEntry_keeps (n : Fin 24) {s t : State} (hk : Keeps s t) : Keeps s (clearEntry n t) := by
  unfold clearEntry
  repeat' with_reducible first
    | assumption | exact Keeps.refl _ | apply closeEntryWindow_keeps | apply entryChanged_keeps | apply setEntry_keeps | apply storeRecord_keeps

theorem serveScheduleClear_keeps (f : List Txt) {s t : State} (hk : Keeps s t) : Keeps s (serveScheduleClear f t).1 := by
  unfold serveScheduleClear
  repeat' with_reducible first
    | assumption | exact Keeps.refl _ | apply okay_keeps | apply refuse_keeps | refine withFields_keeps _ _ _ _ (fun _ => ?_) hk
    | apply clearEntry_keeps | split | dsimp only

theorem serveShowSchedule_keeps (f : List Txt) {s t : State} (hk : Keeps s t) : Keeps s (serveShowSchedule f t).1 := by
  unfold serveShowSchedule
  repeat' with_reducible first
    | assumption | exact Keeps.refl _ | apply okay_keeps | apply refuse_keeps | refine withFields_keeps _ _ _ _ (fun _ => ?_) hk | split | dsimp only

theorem serveShowWindows_keeps (f : List Txt) {s t : State} (hk : Keeps s t) : Keeps s (serveShowWindows f t).1 := by
  unfold serveShowWindows
  repeat' with_reducible first
    | assumption | exact Keeps.refl _ | apply okay_keeps | refine withFields_keeps _ _ _ _ (fun _ => ?_) hk | split | dsimp only

theorem windowExpires_keeps (n : Fin 24) {s t : State} (hk : Keeps s t) : Keeps s (windowExpires n t) := by
  unfold windowExpires
  repeat' with_reducible first | assumption | exact Keeps.refl _ | apply closeEntryWindow_keeps | split

end Sys2Proof.Machine
end

