-- ==== Sys2Proof/Laws/KeepsRun.lean ====
section
/-! SUPPORT. What the requests to the Run Engine and its expiries keep. -/

namespace Sys2Proof.Machine

open Sys2Proof

theorem serveRunStart_keeps (f : List Txt) {s t : State} (hk : Keeps s t) : Keeps s (serveRunStart f t).1 := by
  unfold serveRunStart
  repeat' with_reducible first
    | assumption | exact Keeps.refl _ | apply okay_keeps | apply refuse_keeps | refine withFields_keeps _ _ _ _ (fun _ => ?_) hk
    | refine onBay_keeps _ _ _ (fun _ => ?_) hk | apply startRun_keeps | split | dsimp only

theorem servePromptDone_keeps (f : List Txt) {s t : State} (hk : Keeps s t) : Keeps s (servePromptDone f t).1 := by
  unfold servePromptDone
  repeat' with_reducible first
    | assumption | exact Keeps.refl _ | apply okay_keeps | apply refuse_keeps | refine withFields_keeps _ _ _ _ (fun _ => ?_) hk
    | refine onBay_keeps _ _ _ (fun _ => ?_) hk | apply advanceRun_keeps | split | dsimp only

theorem serveRunAbort_keeps (f : List Txt) {s t : State} (hk : Keeps s t) : Keeps s (serveRunAbort f t).1 := by
  unfold serveRunAbort
  repeat' with_reducible first
    | assumption | exact Keeps.refl _ | apply okay_keeps | apply refuse_keeps | refine withFields_keeps _ _ _ _ (fun _ => ?_) hk
    | refine onBay_keeps _ _ _ (fun _ => ?_) hk | apply abortRun_keeps | split | dsimp only

theorem serveRunClear_keeps (f : List Txt) {s t : State} (hk : Keeps s t) : Keeps s (serveRunClear f t).1 := by
  unfold serveRunClear
  refine withFields_keeps _ _ _ _ (fun n => onBay_keeps _ _ _ (fun b => ?_) hk) hk
  split
  · exact hk
  · split
    · exact Keeps.withRuns _ (.inr rfl) (.inr rfl) hk
    · exact hk

theorem serveShowRun_keeps (f : List Txt) {s t : State} (hk : Keeps s t) : Keeps s (serveShowRun f t).1 := by
  unfold serveShowRun
  repeat' with_reducible first
    | assumption | exact Keeps.refl _ | apply okay_keeps | apply refuse_keeps | refine withFields_keeps _ _ _ _ (fun _ => ?_) hk
    | refine onBay_keeps _ _ _ (fun _ => ?_) hk | split | dsimp only

theorem clampTo_range (lo n hi : Nat) (h : lo ≤ hi) : lo ≤ clampTo lo n hi ∧ clampTo lo n hi ≤ hi := by
  unfold clampTo
  omega

theorem storeSite_keeps {s t : State} (hk : Keeps s t) : Keeps s (storeSite t) := by
  unfold storeSite
  exact storePut_keeps _ hk

theorem serveSetDoorGrace_keeps (f : List Txt) {s t : State} (hk : Keeps s t) : Keeps s (serveSetDoorGrace f t).1 := by
  unfold serveSetDoorGrace
  refine withFields_keeps _ _ _ _ (fun n => okay_keeps _ _ (storeSite_keeps (Keeps.withRuns _ (.inr rfl) (.inl (clampTo_range _ _ _ (by decide))) hk))) hk

theorem runWakeExpires_keeps (b : BayId) {s t : State} (hk : Keeps s t) : Keeps s (runWakeExpires b t) := by
  unfold runWakeExpires
  repeat' with_reducible first | assumption | exact Keeps.refl _ | apply abortRun_keeps | split

theorem maximumTimeExpires_keeps (b : BayId) {s t : State} (hk : Keeps s t) : Keeps s (maximumTimeExpires b t) := by
  unfold maximumTimeExpires
  repeat' with_reducible first | assumption | exact Keeps.refl _ | apply abortRun_keeps | apply report_keeps | split

theorem promptExpires_keeps (b : BayId) {s t : State} (hk : Keeps s t) : Keeps s (promptExpires b t) := by
  unfold promptExpires
  repeat' with_reducible first | assumption | exact Keeps.refl _ | apply abortRun_keeps | split

theorem runDoorExpires_keeps (b : BayId) {s t : State} (hk : Keeps s t) : Keeps s (runDoorExpires b t) := by
  unfold runDoorExpires
  repeat' with_reducible first | assumption | exact Keeps.refl _ | apply abortRun_keeps | apply report_keeps | split

theorem runawayExpires_keeps (b : BayId) {s t : State} (hk : Keeps s t) : Keeps s (runawayExpires b t) := by
  unfold runawayExpires
  repeat' with_reducible first | assumption | exact Keeps.refl _ | apply abortRun_keeps | apply report_keeps | split

end Sys2Proof.Machine
end

