-- ==== Sys2Proof/Laws/KeepsHeatRequests.lean ====
section
/-! SUPPORT. What the requests to the Allocator and its expiries keep. -/

namespace Sys2Proof.Machine

open Sys2Proof

theorem serveSetLimit_keeps (f : List Txt) {s t : State} (hk : Keeps s t) : Keeps s (serveSetLimit f t).1 := by
  unfold serveSetLimit
  exact withFields_keeps _ _ _ _ (fun n => okay_keeps _ _ (recompute_keeps (storeSite_keeps
    (Keeps.withHeat _ (.inl (clampTo_range _ _ _ (by decide))) (.inr rfl) id hk)))) hk

theorem serveSetStandbyIdle_keeps (f : List Txt) {s t : State} (hk : Keeps s t) : Keeps s (serveSetStandbyIdle f t).1 := by
  unfold serveSetStandbyIdle
  exact withFields_keeps _ _ _ _ (fun n => okay_keeps _ _ (Keeps.each _ _ (fun b u => examineStandby_keeps b (.refl u)) (storeSite_keeps
    (Keeps.withHeat _ (.inr rfl) (.inl (clampTo_range _ _ _ (by decide))) id hk)))) hk

theorem serveWake_keeps (f : List Txt) {s t : State} (hk : Keeps s t) : Keeps s (serveWake f t).1 := by
  unfold serveWake
  repeat' with_reducible first
    | assumption | exact Keeps.refl _ | apply okay_keeps | apply refuse_keeps | refine withFields_keeps _ _ _ _ (fun _ => ?_) hk
    | refine onBay_keeps _ _ _ (fun _ => ?_) hk | apply wakeCause_keeps | split | dsimp only

theorem serveShowHeat_keeps (f : List Txt) {s t : State} (hk : Keeps s t) : Keeps s (serveShowHeat f t).1 := by
  unfold serveShowHeat
  repeat' with_reducible first
    | assumption | exact Keeps.refl _ | apply okay_keeps | refine withFields_keeps _ _ _ _ (fun _ => ?_) hk
    | refine onBay_keeps _ _ _ (fun _ => ?_) hk | split | dsimp only

theorem starvationExpires_keeps (b : BayId) {s t : State} (hk : Keeps s t) : Keeps s (starvationExpires b t) := by
  unfold starvationExpires
  repeat' with_reducible first
    | assumption | exact Keeps.refl _ | apply report_keeps | refine Keeps.setHeat _ _ (fun _ => rfl) ?_ | split | dsimp only

theorem idleExpires_keeps (b : BayId) {s t : State} (hk : Keeps s t) : Keeps s (idleExpires b t) := by
  unfold idleExpires
  repeat' with_reducible first | assumption | exact Keeps.refl _ | apply examineStandby_keeps | split

end Sys2Proof.Machine
end

