-- ==== Sys2Proof/Laws/KeepsLine.lean ====
section
/-! SUPPORT. What the oven line's operations keep. -/

namespace Sys2Proof.Machine

open Sys2Proof

theorem skipBays_keeps {s t : State} (hk : Keeps s t) : Keeps s (skipBays t) := by
  unfold skipBays
  repeat' with_reducible first | assumption | exact Keeps.refl _ | exact Keeps.withLine _ rfl hk | split

theorem deliveryReport_keeps (b : BayId) (o : Order) {s t : State} (hk : Keeps s t) : Keeps s (deliveryReport b o t) := by
  unfold deliveryReport
  repeat' with_reducible first | assumption | exact Keeps.refl _ | apply deliverBlock_keeps | split

theorem sendPoll_keeps (b : BayId) {s t : State} (hk : Keeps s t) : Keeps s (sendPoll b t) := by
  unfold sendPoll
  refine Keeps.each _ _ (fun o u => deliveryReport_keeps _ _ (.refl u)) (Keeps.withLine _ rfl (Keeps.setLine _ _ (fun l hl => ⟨?_, hl.ids, hl.misses⟩) hk))
  dsimp only
  rw [List.length_append, List.length_map, ← List.length_append, List.take_append_drop]
  exact hl.queue

theorem sendExtra_keeps {s t : State} (hk : Keeps s t) : Keeps s (sendExtra t) := by
  unfold sendExtra
  split
  · exact hk
  · split
    · exact hk
    · split
      · exact sendPoll_keeps _ (Keeps.withLine _ rfl hk)
      · exact Keeps.withLine _ rfl hk

theorem sendNext_keeps {s t : State} (hk : Keeps s t) : Keeps s (sendNext t) := by
  unfold sendNext
  split
  · exact hk
  · split
    · exact sendPoll_keeps _ (Keeps.withLine _ rfl hk)
    · exact sendExtra_keeps (Keeps.withLine _ rfl hk)

theorem startCycle_keeps {s t : State} (hk : Keeps s t) : Keeps s (startCycle t) := by
  unfold startCycle
  split
  · exact skipBays_keeps (Keeps.withLine _ rfl hk)
  · exact hk

theorem missPoll_keeps (b : BayId) (w : Bool) {s t : State} (hk : Keeps s t) : Keeps s (missPoll b w t) := by
  unfold missPoll
  dsimp only
  split
  · exact hk
  · have hm := Keeps.setLine b (fun l => { l with misses := min (t.line.bays[b].misses + 1) 3 })
      (fun _ hl => ⟨hl.queue, hl.ids, Nat.min_le_right _ _⟩) hk
    refine countPoll_keeps _ ?_
    split
    · exact goLost_keeps _ _ hm
    · exact hm

theorem closeWindow_keeps {s t : State} (hk : Keeps s t) : Keeps s (closeWindow t) := by
  unfold closeWindow
  split
  · exact hk
  · split
    · refine skipBays_keeps ?_
      split
      · exact Keeps.withLine _ rfl hk
      · exact missPoll_keeps _ _ (Keeps.withLine _ rfl hk)
    · exact hk

/-- What a frame that is no valid answer does to the exchange (R23): within the window of an awaited answer it spoils it, and else nothing. -/
theorem Exchange.spoil_cases (x : Exchange) (now : Nat) :
    (x.answer = .awaited ∧ x.limit ≤ now * 1000 + answerLimit ∧ x.spoil now = { x with answer := .spoilt }) ∨
    ((x.answer ≠ .awaited ∨ now * 1000 + answerLimit < x.limit) ∧ x.spoil now = x) := by
  unfold Exchange.spoil Exchange.begun
  split
  · rename_i h
    exact .inl ⟨h.1, by simpa using h.2, rfl⟩
  · rename_i h
    refine .inr ⟨?_, rfl⟩
    by_cases ha : x.answer = .awaited
    · exact .inr (by simpa [ha] using h)
    · exact .inl ha

theorem spoil_keeps {s t : State} (hk : Keeps s t) : Keeps s (spoil t) := by
  unfold spoil
  repeat' with_reducible first | assumption | exact Keeps.refl _ | exact Keeps.withLine _ rfl hk | split | dsimp only

theorem removeOrder_keeps (b : BayId) (id : Nat) {s t : State} (hk : Keeps s t) : Keeps s (removeOrder b id t) := by
  unfold removeOrder
  split
  · exact reportSpace_keeps _ (Keeps.setLine _ _ (fun l hl => ⟨(List.length_filter_le _ _).trans hl.queue, hl.ids, hl.misses⟩) hk)
  · exact hk

theorem acceptReport_keeps (b : BayId) (o : Order) {s t : State} (hk : Keeps s t) : Keeps s (acceptReport b o t) := by
  unfold acceptReport
  repeat' with_reducible first
    | assumption | exact Keeps.refl _ | apply acceptDiscard_keeps | apply acceptOffer_keeps | apply acceptPhase_keeps | apply acceptStep_keeps
    | apply flowBlocks_keeps | split

theorem acceptOrders_keeps (b : BayId) (l : List Order) {s t : State} (hk : Keeps s t) : Keeps s (acceptOrders b l t) := by
  unfold acceptOrders
  repeat' with_reducible first
    | assumption | exact Keeps.refl _ | apply acceptReport_keeps | apply removeOrder_keeps | refine Keeps.each _ _ (fun _ _ => ?_) ?_ | dsimp only

theorem takeAnswer_keeps (b : BayId) {s t : State} (hk : Keeps s t) : Keeps s (takeAnswer b t) := by
  unfold takeAnswer
  exact Keeps.withLine _ rfl (Keeps.setLine _ _ (fun _ hl => ⟨hl.queue, hl.ids, Nat.zero_le _⟩) hk)

theorem stepCheck_keeps (b : BayId) (stepId : Nat) {s t : State} (hk : Keeps s t) : Keeps s (stepCheck b stepId t) := by
  unfold stepCheck
  repeat' with_reducible first
    | assumption | exact Keeps.refl _ | apply placeSafe_keeps | refine Keeps.setReg _ _ (fun _ => rfl) ?_ | split | dsimp only

theorem keepLatest_keeps (b : BayId) (r : Report) {s t : State} (hk : Keeps s t) : Keeps s (keepLatest b r t) := by
  unfold keepLatest
  repeat' with_reducible first
    | assumption | exact Keeps.refl _ | apply Keeps.setRun | refine Keeps.setClean _ _ (fun _ hx => hx) ?_ | split | dsimp only

theorem registryRecord_keeps (b : BayId) (r : Report) {s t : State} (hk : Keeps s t) : Keeps s (registryRecord b r t) := by
  unfold registryRecord
  repeat' with_reducible first
    | assumption | exact Keeps.refl _ | apply setBayState_keeps | apply stepCheck_keeps | apply takePower_keeps | split | dsimp only

theorem handParts_keeps (b : BayId) (r : Report) {s t : State} (hk : Keeps s t) : Keeps s (handParts b r t) := by
  unfold handParts
  repeat' with_reducible first
    | assumption | exact Keeps.refl _ | apply cleanRecord_keeps | apply keepLatest_keeps | apply registryRecord_keeps | apply runRecord_keeps
    | apply servePanel_keeps | apply takeDemand_keeps | apply takeDoor_keeps | apply takeFault_keeps | apply takeMode_keeps
    | apply transferRecord_keeps | split | dsimp only

theorem takeStatus_keeps (body : StatusBody) {s t : State} (hk : Keeps s t) : Keeps s (takeStatus body t) := by
  unfold takeStatus
  repeat' with_reducible first
    | assumption | exact Keeps.refl _ | apply acceptOrders_keeps | apply countPoll_keeps | apply handParts_keeps | apply spoil_keeps
    | apply takeAnswer_keeps | split | dsimp only

theorem takeReturn_keeps (b : BayId) (i : Identity) {s t : State} (hk : Keeps s t) : Keeps s (takeReturn b i t) := by
  unfold takeReturn
  repeat' with_reducible first
    | assumption | exact Keeps.refl _ | apply endTransfer_keeps | refine Keeps.setReg _ _ (fun _ => rfl) ?_
    | refine Keeps.setLine _ _ (fun _ hl => ⟨hl.queue, hl.ids, hl.misses⟩) ?_ | split | dsimp only

theorem handIdentity_keeps (b : BayId) (body : IdentityBody) {s t : State} (hk : Keeps s t) : Keeps s (handIdentity b body t) := by
  unfold handIdentity
  repeat' with_reducible first
    | assumption | exact Keeps.refl _ | apply countPoll_keeps | apply setBayState_keeps | apply takeIdentity_keeps | apply takeReturn_keeps | split

theorem takeIdentityRecord_keeps (body : IdentityBody) {s t : State} (hk : Keeps s t) : Keeps s (takeIdentityRecord body t) := by
  unfold takeIdentityRecord
  repeat' with_reducible first
    | assumption | exact Keeps.refl _ | apply acceptOrders_keeps | apply handIdentity_keeps | apply spoil_keeps | apply takeAnswer_keeps | split | dsimp only

theorem graceExpires_keeps (b : BayId) {s t : State} (hk : Keeps s t) : Keeps s (graceExpires b t) := by
  unfold graceExpires
  repeat' with_reducible first
    | assumption | exact Keeps.refl _ | apply endTransfer_keeps | apply goLost_keeps
    | refine Keeps.setLine _ _ (fun _ hl => ⟨hl.queue, hl.ids, hl.misses⟩) ?_ | split | dsimp only

end Sys2Proof.Machine
end

