-- ==== Sys2Proof/Laws/KeepsRecipe.lean ====
section
/-! SUPPORT. What the requests to the Recipe Library and its expiries keep. -/

namespace Sys2Proof.Machine

open Sys2Proof

theorem openLoad_keeps (number count : Nat) (r : Revision) {s t : State} (hk : Keeps s t) :
    Keeps s (openLoad number count r t) := by
  unfold openLoad
  repeat' with_reducible first | assumption | exact Keeps.refl _ | exact Keeps.withLib _ hk | exact Keeps.withLine _ rfl hk

theorem serveRecipeBegin_keeps (f : List Txt) {s t : State} (hk : Keeps s t) : Keeps s (serveRecipeBegin f t).1 := by
  unfold serveRecipeBegin
  repeat' with_reducible first
    | assumption | exact Keeps.refl _ | apply okay_keeps | apply refuse_keeps | refine withFields_keeps _ _ _ _ (fun _ => ?_) hk
    | apply openLoad_keeps | split | dsimp only

theorem installReply_keeps (k number revision : Nat) (i : Installed) {s t : State} (hk : Keeps s t) :
    Keeps s (installReply k number revision i t).1 := by
  unfold installReply
  repeat' with_reducible first | assumption | exact Keeps.refl _ | apply okay_keeps | apply refuse_keeps | split | dsimp only

theorem takeStep_keeps (l : Load) (st : Step) {s t : State} (hk : Keeps s t) : Keeps s (takeStep l st t).1 := by
  unfold takeStep
  dsimp only
  split
  · exact Keeps.withLib _ hk
  · exact installReply_keeps _ _ _ _ (install_keeps _ _ (Keeps.withLib _ hk))

theorem serveRecipeStep_keeps (f : List Txt) {s t : State} (hk : Keeps s t) : Keeps s (serveRecipeStep f t).1 := by
  unfold serveRecipeStep
  repeat' with_reducible first
    | assumption | exact Keeps.refl _ | apply refuse_keeps | refine withFields_keeps _ _ _ _ (fun _ => ?_) hk | apply abandonLoad_keeps
    | apply takeStep_keeps | split | dsimp only

theorem serveRecipeCancel_keeps (f : List Txt) {s t : State} (hk : Keeps s t) : Keeps s (serveRecipeCancel f t).1 := by
  unfold serveRecipeCancel
  repeat' with_reducible first
    | assumption | exact Keeps.refl _ | apply okay_keeps | apply refuse_keeps | refine withFields_keeps _ _ _ _ (fun _ => ?_) hk
    | apply abandonLoad_keeps | split | dsimp only

theorem withdrawEntry_keeps (e : Entry) {s t : State} (hk : Keeps s t) : Keeps s (withdrawEntry e t) := by
  unfold withdrawEntry
  repeat' with_reducible first | assumption | exact Keeps.refl _ | apply settleEntry_keeps | apply storeRecord_keeps

theorem serveRecipeWithdraw_keeps (f : List Txt) {s t : State} (hk : Keeps s t) : Keeps s (serveRecipeWithdraw f t).1 := by
  unfold serveRecipeWithdraw
  repeat' with_reducible first
    | assumption | exact Keeps.refl _ | apply okay_keeps | apply refuse_keeps | refine withFields_keeps _ _ _ _ (fun _ => ?_) hk
    | apply withdrawEntry_keeps | split | dsimp only

theorem serveSetQuick_keeps (f : List Txt) {s t : State} (hk : Keeps s t) : Keeps s (serveSetQuick f t).1 := by
  unfold serveSetQuick
  refine withFields_keeps _ _ _ _ (fun p => ?_) hk
  split
  · exact storePut_keeps _ (Keeps.withLib _ hk)
  · exact hk

theorem serveShowRecipe_keeps (f : List Txt) {s t : State} (hk : Keeps s t) : Keeps s (serveShowRecipe f t).1 := by
  unfold serveShowRecipe
  repeat' with_reducible first
    | assumption | exact Keeps.refl _ | apply okay_keeps | apply refuse_keeps | refine withFields_keeps _ _ _ _ (fun _ => ?_) hk | split | dsimp only

theorem serveShowLibrary_keeps (f : List Txt) {s t : State} (hk : Keeps s t) : Keeps s (serveShowLibrary f t).1 := by
  unfold serveShowLibrary
  repeat' with_reducible first
    | assumption | exact Keeps.refl _ | apply okay_keeps | refine withFields_keeps _ _ _ _ (fun _ => ?_) hk | split | dsimp only

theorem serveShowQuick_keeps (f : List Txt) {s t : State} (hk : Keeps s t) : Keeps s (serveShowQuick f t).1 := by
  unfold serveShowQuick
  repeat' with_reducible first
    | assumption | exact Keeps.refl _ | apply okay_keeps | refine withFields_keeps _ _ _ _ (fun _ => ?_) hk | dsimp only | split

theorem serveLibraryImport_keeps (f : List Txt) {s t : State} (hk : Keeps s t) : Keeps s (serveLibraryImport f t).1 := by
  unfold serveLibraryImport
  refine withFields_keeps _ _ _ _ (fun n => ?_) hk
  dsimp only
  repeat' split
  all_goals first | exact hk | exact Keeps.setSlot _ _ (Keeps.withLib _ hk)

theorem endImport_keeps (k : Fin 4) (fields : List Tok) {s t : State} (hk : Keeps s t) : Keeps s (endImport k fields t) := by
  unfold endImport
  exact queueNotice_keeps _ _ (dropUser_keeps _ (Keeps.withLib _ hk))

theorem validateImport_keeps {s t : State} (hk : Keeps s t) : Keeps s (validateImport t) := by
  unfold validateImport
  repeat' with_reducible first | assumption | exact Keeps.refl _ | apply endImport_keeps | exact Keeps.withLib _ hk | split | dsimp only

theorem installRecord_keeps (j : Import) (r : BundleRecord) {s t : State} (hk : Keeps s t) : Keeps s (installRecord j r t).1 := by
  unfold installRecord
  repeat' with_reducible first | assumption | exact Keeps.refl _ | apply install_keeps | split

theorem finishImport_keeps (j : Import) {s t : State} (hk : Keeps s t) : Keeps s (finishImport j t) := by
  unfold finishImport
  exact endImport_keeps _ _ (Keeps.withLib _ hk)

theorem importNext_keeps {s t : State} (hk : Keeps s t) : Keeps s (importNext t) := by
  unfold importNext
  split
  · dsimp only
    split
    · exact finishImport_keeps _ (installRecord_keeps _ _ hk)
    · exact Keeps.withLib _ (installRecord_keeps _ _ hk)
  · exact hk

end Sys2Proof.Machine
end

