-- ==== Sys2Proof/Laws/KeepsService.lean ====
section
/-! SUPPORT. What the requests to the Service Monitor and its expiries keep. -/

namespace Sys2Proof.Machine

open Sys2Proof

theorem enabledNow_keeps (k : EventKind) {s t : State} (hk : Keeps s t) : Keeps s (enabledNow k t) := by
  unfold enabledNow
  repeat' with_reducible first
    | assumption | exact Keeps.refl _ | apply announce_keeps | refine Keeps.each _ _ (fun _ _ => ?_) ?_ | split | dsimp only

theorem severityChanged_keeps (k : EventKind) {s t : State} (hk : Keeps s t) : Keeps s (severityChanged k t) := by
  unfold severityChanged
  repeat' with_reducible first
    | assumption | exact Keeps.refl _ | apply examineStandby_keeps | refine Keeps.each _ _ (fun _ _ => ?_) ?_ | split | dsimp only

theorem setEvent_keeps (k : EventKind) (e : EventSetting) {s t : State} (hk : Keeps s t) : Keeps s (setEvent k e t) := by
  unfold setEvent
  dsimp only
  have hs : Keeps s (storePut (.event k.slot e) { t with mon := { t.mon with settings := upd t.mon.settings k.slot (fun _ => e) } }) :=
    storePut_keeps _ (Keeps.withMon _ id hk)
  split
  · refine severityChanged_keeps _ ?_
    split
    · exact enabledNow_keeps _ hs
    · exact hs
  · split
    · exact enabledNow_keeps _ hs
    · exact hs

theorem serveSetEvent_keeps (f : List Txt) {s t : State} (hk : Keeps s t) : Keeps s (serveSetEvent f t).1 := by
  unfold serveSetEvent
  repeat' with_reducible first
    | assumption | exact Keeps.refl _ | apply okay_keeps | apply refuse_keeps | refine withFields_keeps _ _ _ _ (fun _ => ?_) hk
    | apply setEvent_keeps | split | dsimp only

theorem serveAckEvent_keeps (f : List Txt) {s t : State} (hk : Keeps s t) : Keeps s (serveAckEvent f t).1 := by
  unfold serveAckEvent
  repeat' with_reducible first
    | assumption | exact Keeps.refl _ | apply okay_keeps | apply refuse_keeps | refine withFields_keeps _ _ _ _ (fun _ => ?_) hk
    | refine onBay_keeps _ _ _ (fun _ => ?_) hk | apply acknowledge_keeps | refine Keeps.each _ _ (fun _ _ => ?_) ?_ | split | dsimp only

theorem serveForceEvent_keeps (f : List Txt) {s t : State} (hk : Keeps s t) : Keeps s (serveForceEvent f t).1 := by
  unfold serveForceEvent
  repeat' with_reducible first
    | assumption | exact Keeps.refl _ | apply okay_keeps | apply refuse_keeps | refine withFields_keeps _ _ _ _ (fun _ => ?_) hk
    | refine onBay_keeps _ _ _ (fun _ => ?_) hk | apply latch_keeps | split | dsimp only

theorem acceptCall_keeps (c : Call) {s t : State} (hk : Keeps s t) : Keeps s (acceptCall c t) := by
  unfold acceptCall
  repeat' with_reducible first
    | assumption | exact Keeps.refl _ | apply Keeps.setCall | apply arbiter_keeps | apply freeCallLane_keeps | exact Keeps.withLine _ rfl hk
    | dsimp only

theorem refuseCall_keeps (c : Call) {s t : State} (hk : Keeps s t) : Keeps s (refuseCall c t) := by
  unfold refuseCall
  repeat' with_reducible first | assumption | exact Keeps.refl _ | apply Keeps.setCall | apply arbiter_keeps | apply freeCallLane_keeps | dsimp only

theorem withDispatch_keeps (v : Verb) (act : Call → State → State) (ha : ∀ c u, Keeps u (act c u)) (f : List Txt) {s t : State}
    (hk : Keeps s t) : Keeps s (withDispatch v act f t).1 := by
  unfold withDispatch
  refine withFields_keeps _ _ _ _ (fun p => ?_) hk
  split
  · split
    · exact hk.trans (ha _ _)
    · exact hk
  · exact hk

theorem serveCallAccepted_keeps (f : List Txt) {s t : State} (hk : Keeps s t) : Keeps s (serveCallAccepted f t).1 := by
  unfold serveCallAccepted
  exact withDispatch_keeps _ _ (fun c u => acceptCall_keeps c (.refl u)) f hk

theorem serveCallRefused_keeps (f : List Txt) {s t : State} (hk : Keeps s t) : Keeps s (serveCallRefused f t).1 := by
  unfold serveCallRefused
  exact withDispatch_keeps _ _ (fun c u => refuseCall_keeps c (.refl u)) f hk

theorem laneExpires_keeps (l : Fin 2) {s t : State} (hk : Keeps s t) : Keeps s (laneExpires l t) := by
  unfold laneExpires
  repeat' with_reducible first | assumption | exact Keeps.refl _ | apply Keeps.setCall | apply arbiter_keeps | apply freeCallLane_keeps | split

theorem serveCallProgress_keeps (f : List Txt) {s t : State} (hk : Keeps s t) : Keeps s (serveCallProgress f t).1 := by
  unfold serveCallProgress
  repeat' with_reducible first
    | assumption | exact Keeps.refl _ | apply okay_keeps | apply refuse_keeps | refine withFields_keeps _ _ _ _ (fun _ => ?_) hk | apply Keeps.setCall
    | exact Keeps.withLine _ rfl hk | split | dsimp only

theorem automationHold_keeps (b : BayId) (id : Nat) {s t : State} (hk : Keeps s t) : Keeps s (automationHold b id t) := by
  unfold automationHold
  repeat' with_reducible first
    | assumption | exact Keeps.refl _ | apply endJobHeld_keeps | apply handOnIfEnded_keeps | apply placeSafe_keeps | apply setHold_keeps
    | apply Keeps.setMon | split | dsimp only

theorem escalatedNotice_keeps (c : Call) (action : String) {s t : State} (hk : Keeps s t) :
    Keeps s (escalatedNotice c action t) := by
  unfold escalatedNotice
  repeat' with_reducible first | assumption | exact Keeps.refl _ | apply queueNotice_keeps

theorem escalate_keeps (c : Call) {s t : State} (hk : Keeps s t) : Keeps s (escalate c t) := by
  unfold escalate
  repeat' with_reducible first
    | assumption | exact Keeps.refl _ | apply Keeps.setCall | apply arbiter_keeps | apply automationHold_keeps | apply escalatedNotice_keeps
    | exact Keeps.withLine _ rfl hk | split | dsimp only

theorem escalationExpires_keeps (id : Nat) {s t : State} (hk : Keeps s t) : Keeps s (escalationExpires id t) := by
  unfold escalationExpires
  repeat' with_reducible first | assumption | exact Keeps.refl _ | apply escalate_keeps | split

theorem closeCall_keeps (c : Call) {s t : State} (hk : Keeps s t) : Keeps s (closeCall c t) := by
  unfold closeCall
  dsimp only
  refine arbiter_keeps (rescan_keeps (queueNotice_keeps _ _ (Keeps.setMon _ _ (Keeps.withMon _ (fun h => (List.length_filter_le _ _).trans h) ?_))))
  split
  · exact freeCallLane_keeps _ hk
  · exact clearLatch_keeps _ _ (freeCallLane_keeps _ hk)

theorem serveCallClose_keeps (f : List Txt) {s t : State} (hk : Keeps s t) : Keeps s (serveCallClose f t).1 := by
  unfold serveCallClose
  repeat' with_reducible first
    | assumption | exact Keeps.refl _ | apply okay_keeps | apply refuse_keeps | refine withFields_keeps _ _ _ _ (fun _ => ?_) hk
    | apply closeCall_keeps | split | dsimp only

theorem forcedTake_keeps (b : BayId) {s t : State} (hk : Keeps s t) : Keeps s (forcedTake b t) := by
  unfold forcedTake
  repeat' with_reducible first | assumption | exact Keeps.refl _ | apply endJobHeld_keeps | apply handOnIfEnded_keeps | apply takeHold_keeps

theorem serveTechTake_keeps (f : List Txt) {s t : State} (hk : Keeps s t) : Keeps s (serveTechTake f t).1 := by
  unfold serveTechTake
  repeat' with_reducible first
    | assumption | exact Keeps.refl _ | apply okay_keeps | apply refuse_keeps | refine withFields_keeps _ _ _ _ (fun _ => ?_) hk
    | refine onBay_keeps _ _ _ (fun _ => ?_) hk | apply forcedTake_keeps | split | dsimp only

theorem serveTechRelease_keeps (f : List Txt) {s t : State} (hk : Keeps s t) : Keeps s (serveTechRelease f t).1 := by
  unfold serveTechRelease
  repeat' with_reducible first
    | assumption | exact Keeps.refl _ | apply okay_keeps | apply refuse_keeps | refine withFields_keeps _ _ _ _ (fun _ => ?_) hk
    | refine onBay_keeps _ _ _ (fun _ => ?_) hk | apply setHold_keeps | split | dsimp only

theorem clearHold_keeps (b : BayId) {s t : State} (hk : Keeps s t) : Keeps s (clearHold b t) := by
  unfold clearHold
  repeat' with_reducible first | assumption | exact Keeps.refl _ | apply examineStandby_keeps | apply setHold_keeps | apply Keeps.setMon | dsimp only

theorem serveHoldClear_keeps (f : List Txt) {s t : State} (hk : Keeps s t) : Keeps s (serveHoldClear f t).1 := by
  unfold serveHoldClear
  repeat' with_reducible first
    | assumption | exact Keeps.refl _ | apply okay_keeps | apply refuse_keeps | refine withFields_keeps _ _ _ _ (fun _ => ?_) hk
    | refine onBay_keeps _ _ _ (fun _ => ?_) hk | apply clearHold_keeps | split | dsimp only

theorem serveShowEvents_keeps (f : List Txt) {s t : State} (hk : Keeps s t) : Keeps s (serveShowEvents f t).1 := by
  unfold serveShowEvents
  repeat' with_reducible first
    | assumption | exact Keeps.refl _ | apply okay_keeps | refine withFields_keeps _ _ _ _ (fun _ => ?_) hk
    | refine onBay_keeps _ _ _ (fun _ => ?_) hk | split | dsimp only

theorem serveShowCalls_keeps (f : List Txt) {s t : State} (hk : Keeps s t) : Keeps s (serveShowCalls f t).1 := by
  unfold serveShowCalls
  repeat' with_reducible first
    | assumption | exact Keeps.refl _ | apply okay_keeps | refine withFields_keeps _ _ _ _ (fun _ => ?_) hk | dsimp only | split

end Sys2Proof.Machine
end

