-- ==== Sys2Proof/Laws/KeepsUpdate.lean ====
section
/-! SUPPORT. What the requests to the Update Distributor and its expiries keep. -/

namespace Sys2Proof.Machine

open Sys2Proof

theorem onFour_keeps (v : Verb) (n : Nat) (k : Fin 4 → State → Served) {s t : State} (ho : ∀ c, Keeps s (k c t).1) (hk : Keeps s t) :
    Keeps s (onFour v n k t).1 := by
  unfold onFour
  split
  · exact ho _
  · exact hk

theorem openSlot_keeps (k : Fin 4) (h : Header) {s t : State} (hk : Keeps s t) : Keeps s (openSlot k h t) := by
  unfold openSlot
  repeat' with_reducible first | assumption | exact Keeps.refl _ | apply storePut_keeps | apply storeStaging_keeps | apply Keeps.setSlot | dsimp only

theorem serveBundleOpen_keeps (f : List Txt) {s t : State} (hk : Keeps s t) : Keeps s (serveBundleOpen f t).1 := by
  unfold serveBundleOpen
  repeat' with_reducible first
    | assumption | exact Keeps.refl _ | apply okay_keeps | apply refuse_keeps | refine withFields_keeps _ _ _ _ (fun _ => ?_) hk
    | refine onFour_keeps _ _ _ (fun _ => ?_) hk | apply openSlot_keeps | split | dsimp only

theorem takeChunk_keeps (k : Fin 4) (offset : Nat) (data : List Byte) {s t : State} (hk : Keeps s t) :
    Keeps s (takeChunk k offset data t) := by
  unfold takeChunk
  repeat' with_reducible first | assumption | exact Keeps.refl _ | apply storeStaging_keeps | apply Keeps.setSlot | dsimp only

theorem serveBundleChunk_keeps (f : List Txt) {s t : State} (hk : Keeps s t) : Keeps s (serveBundleChunk f t).1 := by
  unfold serveBundleChunk
  refine withFields_keeps _ _ _ _ (fun p => onFour_keeps _ _ _ (fun k => ?_) hk) hk
  dsimp only
  repeat' split
  all_goals first | exact hk | exact takeChunk_keeps _ _ _ hk

theorem setSlotState_keeps (k : Fin 4) (st : SlotState) {s t : State} (hk : Keeps s t) : Keeps s (setSlotState k st t) := by
  unfold setSlotState
  repeat' with_reducible first | assumption | exact Keeps.refl _ | apply Keeps.setSlot | dsimp only

theorem serveBundleSeal_keeps (f : List Txt) {s t : State} (hk : Keeps s t) : Keeps s (serveBundleSeal f t).1 := by
  unfold serveBundleSeal
  repeat' with_reducible first
    | assumption | exact Keeps.refl _ | apply okay_keeps | apply refuse_keeps | refine withFields_keeps _ _ _ _ (fun _ => ?_) hk
    | refine onFour_keeps _ _ _ (fun _ => ?_) hk | apply setSlotState_keeps | apply Keeps.setSlot | split | dsimp only

theorem sealDone_keeps (k : Fin 4) {s t : State} (hk : Keeps s t) : Keeps s (sealDone k t) := by
  unfold sealDone
  repeat' with_reducible first
    | assumption | exact Keeps.refl _ | apply queueNotice_keeps | apply setSlotState_keeps | apply storeSealHeader_keeps | apply Keeps.setSlot | split
    | dsimp only

theorem serveBundleDiscard_keeps (f : List Txt) {s t : State} (hk : Keeps s t) : Keeps s (serveBundleDiscard f t).1 := by
  unfold serveBundleDiscard
  repeat' with_reducible first
    | assumption | exact Keeps.refl _ | apply okay_keeps | apply refuse_keeps | refine withFields_keeps _ _ _ _ (fun _ => ?_) hk
    | refine onFour_keeps _ _ _ (fun _ => ?_) hk | apply storeRecord_keeps | apply Keeps.setSlot | split | dsimp only

theorem serveShowSlot_keeps (f : List Txt) {s t : State} (hk : Keeps s t) : Keeps s (serveShowSlot f t).1 := by
  unfold serveShowSlot
  repeat' with_reducible first
    | assumption | exact Keeps.refl _ | apply okay_keeps | refine withFields_keeps _ _ _ _ (fun _ => ?_) hk
    | refine onFour_keeps _ _ _ (fun _ => ?_) hk | split | dsimp only

theorem armChannel_keeps (c k : Fin 4) (group : List BayId) (demand window : Bool) {s t : State} (hk : Keeps s t) :
    Keeps s (armChannel c k group demand window t) := by
  unfold armChannel
  repeat' with_reducible first | assumption | exact Keeps.refl _ | apply Keeps.setSlot | apply Keeps.setChannel | dsimp only

theorem serveChannelSet_keeps (f : List Txt) {s t : State} (hk : Keeps s t) : Keeps s (serveChannelSet f t).1 := by
  unfold serveChannelSet
  repeat' with_reducible first
    | assumption | exact Keeps.refl _ | apply okay_keeps | apply refuse_keeps | refine withFields_keeps _ _ _ _ (fun _ => ?_) hk
    | apply armChannel_keeps | split | dsimp only

theorem startBay_keeps (c : Fin 4) (b : BayId) {s t : State} (hk : Keeps s t) : Keeps s (startBay c b t) := by
  unfold startBay
  repeat' with_reducible first | assumption | exact Keeps.refl _ | apply setProgress_keeps | apply settleProgress_keeps | split

theorem startChannel_keeps (c : Fin 4) {s t : State} (hk : Keeps s t) : Keeps s (startChannel c t) := by
  unfold startChannel
  repeat' with_reducible first
    | assumption | exact Keeps.refl _ | apply pass_keeps | apply startBay_keeps | apply Keeps.setChannel | refine Keeps.each _ _ (fun _ _ => ?_) ?_
    | dsimp only

theorem serveChannelStart_keeps (f : List Txt) {s t : State} (hk : Keeps s t) : Keeps s (serveChannelStart f t).1 := by
  unfold serveChannelStart
  repeat' with_reducible first
    | assumption | exact Keeps.refl _ | apply okay_keeps | apply refuse_keeps | refine withFields_keeps _ _ _ _ (fun _ => ?_) hk
    | refine onFour_keeps _ _ _ (fun _ => ?_) hk | apply startChannel_keeps | split | dsimp only

theorem serveChannelMask_keeps (f : List Txt) {s t : State} (hk : Keeps s t) : Keeps s (serveChannelMask f t).1 := by
  unfold serveChannelMask
  repeat' with_reducible first
    | assumption | exact Keeps.refl _ | apply okay_keeps | apply refuse_keeps | refine withFields_keeps _ _ _ _ (fun _ => ?_) hk
    | refine onFour_keeps _ _ _ (fun _ => ?_) hk | apply Keeps.setChannel | split | dsimp only

theorem unmaskChannel_keeps (c : Fin 4) {s t : State} (hk : Keeps s t) : Keeps s (unmaskChannel c t) := by
  unfold unmaskChannel
  repeat' with_reducible first
    | assumption | exact Keeps.refl _ | apply offerIfComplete_keeps | apply pass_keeps | apply placeBlocks_keeps | apply Keeps.setChannel | split
    | dsimp only

theorem serveChannelUnmask_keeps (f : List Txt) {s t : State} (hk : Keeps s t) : Keeps s (serveChannelUnmask f t).1 := by
  unfold serveChannelUnmask
  repeat' with_reducible first
    | assumption | exact Keeps.refl _ | apply okay_keeps | apply refuse_keeps | refine withFields_keeps _ _ _ _ (fun _ => ?_) hk
    | refine onFour_keeps _ _ _ (fun _ => ?_) hk | apply unmaskChannel_keeps | split | dsimp only

theorem clearTransfer_keeps (c : Fin 4) {s t : State} (hk : Keeps s t) : Keeps s (clearTransfer c t) := by
  unfold clearTransfer
  repeat' with_reducible first | assumption | exact Keeps.refl _ | apply endTransfer_keeps | split

theorem idleChannel_keeps (c : Fin 4) {s t : State} (hk : Keeps s t) : Keeps s (idleChannel c t) := by
  unfold idleChannel
  repeat' with_reducible first | assumption | exact Keeps.refl _ | apply dropUser_keeps | apply Keeps.setChannel | split | dsimp only

theorem clearChannels_keeps {s t : State} (hk : Keeps s t) : Keeps s (clearChannels t) := by
  unfold clearChannels
  repeat' with_reducible first
    | assumption | exact Keeps.refl _ | apply clearTransfer_keeps | apply examineStandby_keeps | apply idleChannel_keeps
    | refine Keeps.each _ _ (fun _ _ => ?_) ?_ | dsimp only

theorem serveChannelsClear_keeps (f : List Txt) {s t : State} (hk : Keeps s t) : Keeps s (serveChannelsClear f t).1 := by
  unfold serveChannelsClear
  repeat' with_reducible first
    | assumption | exact Keeps.refl _ | apply okay_keeps | apply refuse_keeps | refine withFields_keeps _ _ _ _ (fun _ => ?_) hk
    | apply clearChannels_keeps | split | dsimp only

theorem serveShowChannel_keeps (f : List Txt) {s t : State} (hk : Keeps s t) : Keeps s (serveShowChannel f t).1 := by
  unfold serveShowChannel
  repeat' with_reducible first
    | assumption | exact Keeps.refl _ | apply okay_keeps | refine withFields_keeps _ _ _ _ (fun _ => ?_) hk
    | refine onFour_keeps _ _ _ (fun _ => ?_) hk | dsimp only | split

theorem ackExpires_keeps (c : Fin 4) {s t : State} (hk : Keeps s t) : Keeps s (ackExpires c t) := by
  unfold ackExpires
  repeat' with_reducible first | assumption | exact Keeps.refl _ | apply blockMiss_keeps | split | dsimp only

theorem offerExpires_keeps (c : Fin 4) {s t : State} (hk : Keeps s t) : Keeps s (offerExpires c t) := by
  unfold offerExpires
  repeat' with_reducible first | assumption | exact Keeps.refl _ | apply endTransfer_keeps | split | dsimp only

end Sys2Proof.Machine
end

