-- ==== Sys2Proof/Laws/KeepsServe.lean ====
section
/-! SUPPORT. What the owner of every verb keeps. -/

namespace Sys2Proof.Machine

open Sys2Proof

theorem serveRestart_keeps (f : List Txt) {s t : State} (hk : Keeps s t) : Keeps s (serveRestart f t).1 := by
  unfold serveRestart
  exact withFields_keeps _ _ _ _ (fun _ => Keeps.withHost _ (fun hb => ⟨hb.notices, hb.overflow, hb.lost⟩) hk) hk

/-- Whatever a request asks, its owner keeps the queue, the phase, the count, the contacts, the bounds and the recorded presences. -/
theorem serveVerb_keeps (v : Verb) (f : List Txt) {s t : State} (hk : Keeps s t) : Keeps s (serveVerb v f t).1 := by
  cases v with
  | commissionBegin => exact serveCommissionBegin_keeps f hk
  | commissionLimits => exact serveCommissionLimits_keeps f hk
  | commissionOptions => exact serveCommissionOptions_keeps f hk
  | decommission => exact serveDecommission_keeps f hk
  | setMenu => exact serveSetMenu_keeps f hk
  | showBay => exact serveShowBay_keeps f hk
  | recipeBegin => exact serveRecipeBegin_keeps f hk
  | recipeStep => exact serveRecipeStep_keeps f hk
  | recipeCancel => exact serveRecipeCancel_keeps f hk
  | recipeWithdraw => exact serveRecipeWithdraw_keeps f hk
  | setQuick => exact serveSetQuick_keeps f hk
  | libraryImport => exact serveLibraryImport_keeps f hk
  | showRecipe => exact serveShowRecipe_keeps f hk
  | showLibrary => exact serveShowLibrary_keeps f hk
  | showQuick => exact serveShowQuick_keeps f hk
  | runStart => exact serveRunStart_keeps f hk
  | promptDone => exact servePromptDone_keeps f hk
  | runAbort => exact serveRunAbort_keeps f hk
  | runClear => exact serveRunClear_keeps f hk
  | showRun => exact serveShowRun_keeps f hk
  | setDoorGrace => exact serveSetDoorGrace_keeps f hk
  | setLimit => exact serveSetLimit_keeps f hk
  | setStandbyIdle => exact serveSetStandbyIdle_keeps f hk
  | wake => exact serveWake_keeps f hk
  | showHeat => exact serveShowHeat_keeps f hk
  | cleanStart => exact serveCleanStart_keeps f hk
  | cleanAbort => exact serveCleanAbort_keeps f hk
  | setDetergent => exact serveSetDetergent_keeps f hk
  | showCleaning => exact serveShowCleaning_keeps f hk
  | showHygiene => exact serveShowHygiene_keeps f hk
  | setClock => exact serveSetClock_keeps f hk
  | setDst => exact serveSetDst_keeps f hk
  | showClock => exact serveShowClock_keeps f hk
  | scheduleSet => exact serveScheduleSet_keeps f hk
  | scheduleClear => exact serveScheduleClear_keeps f hk
  | showSchedule => exact serveShowSchedule_keeps f hk
  | showWindows => exact serveShowWindows_keeps f hk
  | setEvent => exact serveSetEvent_keeps f hk
  | ackEvent => exact serveAckEvent_keeps f hk
  | forceEvent => exact serveForceEvent_keeps f hk
  | callAccepted => exact serveCallAccepted_keeps f hk
  | callRefused => exact serveCallRefused_keeps f hk
  | callProgress => exact serveCallProgress_keeps f hk
  | callClose => exact serveCallClose_keeps f hk
  | techTake => exact serveTechTake_keeps f hk
  | techRelease => exact serveTechRelease_keeps f hk
  | holdClear => exact serveHoldClear_keeps f hk
  | showEvents => exact serveShowEvents_keeps f hk
  | showCalls => exact serveShowCalls_keeps f hk
  | bundleOpen => exact serveBundleOpen_keeps f hk
  | bundleChunk => exact serveBundleChunk_keeps f hk
  | bundleSeal => exact serveBundleSeal_keeps f hk
  | bundleDiscard => exact serveBundleDiscard_keeps f hk
  | showSlot => exact serveShowSlot_keeps f hk
  | channelSet => exact serveChannelSet_keeps f hk
  | channelStart => exact serveChannelStart_keeps f hk
  | channelMask => exact serveChannelMask_keeps f hk
  | channelUnmask => exact serveChannelUnmask_keeps f hk
  | channelsClear => exact serveChannelsClear_keeps f hk
  | showChannel => exact serveShowChannel_keeps f hk
  | restart => exact serveRestart_keeps f hk

/-- A request line that arrives keeps them too. -/
theorem request_keeps (v : Verb) (f : List Txt) {s t : State} (hk : Keeps s t) : Keeps s (request v f t) :=
  pump_keeps (receive_keeps serveVerb (fun v f u => serveVerb_keeps v f (.refl u)) _ hk)

/-- An event keeps them where its effect does. -/
theorem whileOn_keeps (g : State → State) {s t : State} (hg : Keeps t (g t)) (hk : Keeps s t) : Keeps s (whileOn g t) := by
  unfold whileOn
  split
  · exact hk
  · exact pump_keeps (hk.trans hg)

end Sys2Proof.Machine
end

