-- ==== Sys2Proof/Laws/Memory.lean ====
section
/-! SUPPORT. The staging bytes: a byte reads as last written, no other byte changes, and every operation keeps the canonical form. -/

namespace Sys2Proof.Machine

open Sys2Proof

/-- A byte written reads as written. -/
theorem Memory.read_write_same (m : List Host.Cell) (i : Nat) (x : Byte) (h : Memory.wf m) : Memory.read (Memory.write m i x) i = x := by
  induction m with
  | nil => unfold Memory.write; split <;> simp_all [Memory.read]
  | cons c rest ih =>
    obtain ⟨a, y⟩ := c
    have hr : Memory.wf rest := ⟨(List.pairwise_cons.1 h.1).2, fun c hc => h.2 c (List.mem_cons_of_mem _ hc)⟩
    have hlo : ∀ c ∈ rest, a < c.1 := (List.pairwise_cons.1 h.1).1
    have above (j : Nat) (hj : j ≤ a) : Memory.read rest j = erasedByte := by
      clear ih h hr
      induction rest with
      | nil => rfl
      | cons d l ih =>
        obtain ⟨e, z⟩ := d
        have : a < e := hlo (e, z) (List.mem_cons_self ..)
        have hne : e ≠ j := by omega
        simp only [Memory.read, hne, if_false]
        exact ih (fun c hc => hlo c (List.mem_cons_of_mem _ hc))
    unfold Memory.write
    by_cases h1 : i < a
    · have hne : a ≠ i := by omega
      simp only [h1, if_true]
      by_cases h2 : x = erasedByte
      · simp [h2, Memory.read, hne, above i (by omega)]
      · simp [h2, Memory.read]
    · by_cases h3 : i = a
      · subst h3
        simp only [h1, if_false, if_true]
        by_cases h2 : x = erasedByte
        · simp [h2, above i (by omega)]
        · simp [h2, Memory.read]
      · have hne : a ≠ i := fun e => h3 e.symm
        simp only [h1, h3, if_false, Memory.read, hne]
        exact ih hr

/-- A write leaves every other byte alone. -/
theorem Memory.read_write_other (m : List Host.Cell) (i j : Nat) (x : Byte) (h : Memory.wf m) (hij : j ≠ i) :
    Memory.read (Memory.write m i x) j = Memory.read m j := by
  induction m with
  | nil =>
    unfold Memory.write
    split
    · rfl
    · simp [Memory.read, Ne.symm hij]
  | cons c rest ih =>
    obtain ⟨a, y⟩ := c
    have hr : Memory.wf rest := ⟨(List.pairwise_cons.1 h.1).2, fun c hc => h.2 c (List.mem_cons_of_mem _ hc)⟩
    unfold Memory.write
    split
    · split
      · rfl
      · simp [Memory.read, Ne.symm hij]
    · split
      · next h3 =>
        subst h3
        split
        · simp [Memory.read, Ne.symm hij]
        · simp [Memory.read, Ne.symm hij]
      · simp only [Memory.read, ih hr]

/-- Every address a write lists is its own or was listed. -/
theorem Memory.mem_write (m : List Host.Cell) (i : Nat) (x : Byte) (c : Host.Cell) (h : c ∈ Memory.write m i x) :
    c ∈ m ∨ c = (i, x) ∧ x ≠ erasedByte := by
  induction m with
  | nil =>
    unfold Memory.write at h
    split at h
    · exact absurd h List.not_mem_nil
    · next hx => exact .inr ⟨List.mem_singleton.1 h, hx⟩
  | cons d rest ih =>
    obtain ⟨a, y⟩ := d
    unfold Memory.write at h
    split at h
    · split at h
      · exact .inl h
      · next hx => exact (List.mem_cons.1 h).elim (fun e => .inr ⟨e, hx⟩) .inl
    · split at h
      · next h3 =>
        split at h
        · exact .inl (List.mem_cons_of_mem _ h)
        · next hx =>
          exact (List.mem_cons.1 h).elim (fun e => .inr ⟨by rw [e, h3], hx⟩) (fun e => .inl (List.mem_cons_of_mem _ e))
      · rcases List.mem_cons.1 h with e | e
        · exact .inl (e ▸ List.mem_cons_self ..)
        · exact (ih e).elim (fun e => .inl (List.mem_cons_of_mem _ e)) .inr

/-- A write keeps the canonical form. -/
theorem Memory.wf_write (m : List Host.Cell) (i : Nat) (x : Byte) (h : Memory.wf m) : Memory.wf (Memory.write m i x) := by
  refine ⟨?_, fun c hc => ?_⟩
  · induction m with
    | nil => unfold Memory.write; split <;> simp
    | cons d rest ih =>
      obtain ⟨a, y⟩ := d
      have hp := List.pairwise_cons.1 h.1
      have hr : Memory.wf rest := ⟨hp.2, fun c hc => h.2 c (List.mem_cons_of_mem _ hc)⟩
      unfold Memory.write
      split
      · next h1 =>
        split
        · exact h.1
        · refine List.pairwise_cons.2 ⟨fun c hc => ?_, h.1⟩
          rcases List.mem_cons.1 hc with e | e
          · rw [e]; exact h1
          · exact h1.trans (hp.1 c e)
      · split
        · split
          · exact hp.2
          · exact List.pairwise_cons.2 ⟨hp.1, hp.2⟩
        · next h1 h3 =>
          refine List.pairwise_cons.2 ⟨fun c hc => ?_, ih hr⟩
          rcases Memory.mem_write _ _ _ _ hc with e | ⟨e, -⟩
          · exact hp.1 c e
          · rw [e]; show a < i; omega
  · rcases Memory.mem_write _ _ _ _ hc with e | ⟨e, hx⟩
    · exact h.2 c e
    · rw [e]; exact hx

/-- Successive writes keep the canonical form. -/
theorem Memory.wf_writes (l : List Byte) (m : List Host.Cell) (i : Nat) (h : Memory.wf m) : Memory.wf (Memory.writeBytes m i l) := by
  induction l generalizing m i with
  | nil => exact h
  | cons x rest ih => exact ih _ _ (Memory.wf_write m i x h)

/-- The erase of a slot keeps the canonical form. -/
theorem Memory.wf_erase (m : List Host.Cell) (k : Fin 4) (h : Memory.wf m) : Memory.wf (Memory.eraseSlot m k) :=
  ⟨h.1.filter _, fun c hc => h.2 c (List.mem_filter.1 hc).1⟩

/-- Performing any write keeps the canonical form. -/
theorem Store.wf_perform (t : Store) (w : Write) (h : Memory.wf t.staging) : Memory.wf (t.perform w).staging := by
  cases w with
  | record p pos content => cases p <;> exact h
  | erase k => exact Memory.wf_erase _ _ h
  | bytes k o d => exact Memory.wf_writes _ _ _ h

/-- A staging write that is cut off keeps the canonical form. -/
theorem Store.wf_cut (t : Store) (c : Cut) (h : Memory.wf t.staging) : Memory.wf (t.cut c).staging := by
  unfold Store.cut
  dsimp only
  split
  · next p pos content _ => cases p <;> exact h
  · exact ⟨h.1.filter _, fun d hd => h.2 d (List.mem_filter.1 hd).1⟩
  · exact Memory.wf_writes _ _ _ h
  · exact h

/-- The block's staging bytes are in canonical form at reset. -/
theorem Memory.wf_reset : Memory.wf State.reset.store.staging := ⟨List.Pairwise.nil, fun _ h => absurd h List.not_mem_nil⟩

end Sys2Proof.Machine
end

