-- ==== Sys2Proof/WellFormed.lean ====
section
/-! DEFINITION. Which terms of `Instr` a sender can send: the words of a request are words of a line (R185, R187), and the numbers of an
answer fit their bytes (R196). -/

namespace Sys2Proof

/-- A word of a line: printable characters other than space, and at least one of them. -/
def wordOk (w : Txt) : Bool := !w.isEmpty && w.all (fun c => printable c && c != ' ')

/-- The length of a line of these words with single spaces between them. -/
def lineLength (words : List Txt) : Nat := (words.map (fun w => w.length + 1)).sum - 1

/-- Words that one request line can hold: each a word, at most 512 characters in all. -/
def wordsOk (words : List Txt) : Bool := words.all wordOk && lineLength words ≤ 512

/-- The fields of a request of this verb. -/
def fieldsOk (v : Verb) (f : List Txt) : Bool :=
  wordsOk (v.word.toList :: ((v.object.map String.toList).toList ++ f))

/-- A two-byte signed number. -/
def tempOk (z : Int) : Bool := -32768 ≤ z && z ≤ 32767

/-- The numbers of a STATUS body fit their bytes, none is malformed, and no gap between its 35 bytes was above 1 ms (R194). -/
def StatusBody.wf (r : StatusBody) : Bool :=
  !r.malformed && tempOk r.cabinet && r.humidity ≤ 255 && r.cores.length = 6 && r.cores.all tempOk && r.fault ≤ 255 &&
    r.dose ≤ 65535 && r.echo ≤ 255 && r.stepId ≤ 255 && r.freeBlocks ≤ 255 && r.gaps ≤ 34 * 1000

/-- The numbers of an IDENTITY body fit their bytes, and no gap between its 22 bytes was above 1 ms (R194). -/
def IdentityBody.wf (r : IdentityBody) : Bool :=
  r.serial.length = 8 && r.model ≤ 255 && r.supply ≤ 255 && r.rated ≤ 65535 && r.major ≤ 255 && r.minor ≤ 255 &&
    r.points ≤ 255 && r.steam ≤ 255 && r.gaps ≤ 21 * 1000

/-- The verb and the fields of a request row; absent for the other rows. -/
def Instr.request? : Instr → Option (Verb × List Txt)
  | .commissionBegin f => some (.commissionBegin, f)
  | .commissionLimits f => some (.commissionLimits, f)
  | .commissionOptions f => some (.commissionOptions, f)
  | .decommission f => some (.decommission, f)
  | .setMenu f => some (.setMenu, f)
  | .showBay f => some (.showBay, f)
  | .recipeBegin f => some (.recipeBegin, f)
  | .recipeStep f => some (.recipeStep, f)
  | .recipeCancel f => some (.recipeCancel, f)
  | .recipeWithdraw f => some (.recipeWithdraw, f)
  | .setQuick f => some (.setQuick, f)
  | .libraryImport f => some (.libraryImport, f)
  | .showRecipe f => some (.showRecipe, f)
  | .showLibrary f => some (.showLibrary, f)
  | .showQuick f => some (.showQuick, f)
  | .runStart f => some (.runStart, f)
  | .promptDone f => some (.promptDone, f)
  | .runAbort f => some (.runAbort, f)
  | .runClear f => some (.runClear, f)
  | .showRun f => some (.showRun, f)
  | .setDoorGrace f => some (.setDoorGrace, f)
  | .setLimit f => some (.setLimit, f)
  | .setStandbyIdle f => some (.setStandbyIdle, f)
  | .wake f => some (.wake, f)
  | .showHeat f => some (.showHeat, f)
  | .cleanStart f => some (.cleanStart, f)
  | .cleanAbort f => some (.cleanAbort, f)
  | .setDetergent f => some (.setDetergent, f)
  | .showCleaning f => some (.showCleaning, f)
  | .showHygiene f => some (.showHygiene, f)
  | .setClock f => some (.setClock, f)
  | .setDst f => some (.setDst, f)
  | .showClock f => some (.showClock, f)
  | .scheduleSet f => some (.scheduleSet, f)
  | .scheduleClear f => some (.scheduleClear, f)
  | .showSchedule f => some (.showSchedule, f)
  | .showWindows f => some (.showWindows, f)
  | .setEvent f => some (.setEvent, f)
  | .ackEvent f => some (.ackEvent, f)
  | .forceEvent f => some (.forceEvent, f)
  | .callAccepted f => some (.callAccepted, f)
  | .callRefused f => some (.callRefused, f)
  | .callProgress f => some (.callProgress, f)
  | .callClose f => some (.callClose, f)
  | .techTake f => some (.techTake, f)
  | .techRelease f => some (.techRelease, f)
  | .holdClear f => some (.holdClear, f)
  | .showEvents f => some (.showEvents, f)
  | .showCalls f => some (.showCalls, f)
  | .bundleOpen f => some (.bundleOpen, f)
  | .bundleChunk f => some (.bundleChunk, f)
  | .bundleSeal f => some (.bundleSeal, f)
  | .bundleDiscard f => some (.bundleDiscard, f)
  | .showSlot f => some (.showSlot, f)
  | .channelSet f => some (.channelSet, f)
  | .channelStart f => some (.channelStart, f)
  | .channelMask f => some (.channelMask, f)
  | .channelUnmask f => some (.channelUnmask, f)
  | .channelsClear f => some (.channelsClear, f)
  | .showChannel f => some (.showChannel, f)
  | .restart f => some (.restart, f)
  | _ => none

/-- A command that its sender can send. -/
def Instr.wf (i : Instr) : Bool :=
  match i with
  | .statusRecord r => r.wf
  | .identityRecord r => r.wf
  | .escalationDeadlineExpiry call => 1 ≤ call && call ≤ 65535
  | .unknownVerb words => wordsOk words && !words.isEmpty && readWords words == .unknownVerb words
  | i =>
    match i.request? with
    | some (v, f) => fieldsOk v f
    | none => true

end Sys2Proof
end

