-- ==== Sys2Proof/Tests/Slice0.lean ====
section
/-! SUPPORT. Small tests: ill-formed terms that WellFormed refuses, lines and frames written out byte by byte from the manual's layouts, and one
command each on a small state. The expected values are worked out by hand from the rule that each comment names. -/

namespace Sys2Proof.Tests

open Sys2Proof Sys2Proof.Machine

set_option maxRecDepth 20000

/-! ## Helpers -/

/-- The part after its load, 100 s after its start-up. -/
def base : State := { State.reset with phase := .running, now := 100000 }

/-- The words of a request. -/
def ws (l : List String) : List Txt := l.map String.toList

/-- The state that a command leaves. -/
def after (c : Instr) (s : State) : State :=
  match exec c s with
  | .next t => t
  | _ => s

/-- The reply a command leaves in hand. -/
def reply (c : Instr) (s : State) : Option Reply := (after c s).host.inHand

/-- The Host Link empty again. -/
def quiet (s : State) : State := { s with host := HostLink.initial }

def serialA : Txt := "KC612345".toList

/-- An oven of 18.0 kW on supply 1, with firmware 2.03 and three core points. -/
def oven : Identity := { serial := serialA, model := 2, supply := 1, rated := 180, firmware := 203, points := 3, steam := true }

/-- A circuit of 20.0 kW on supply 1, soft water, ceiling 250.0 °C, the whole menu. -/
def kitchen : Commission :=
  { serial := serialA, prov := { supply := 1, circuitMax := 200, water := .soft, ceiling := 2500, standby := true, detergent := true },
    win1 := { base := 1, limit := 999 }, win2 := { base := 0, limit := 0 } }

/-- Bay `b` with this oven, READY and ON, and its rinse not owed. -/
def readyBay (b : BayId) (s : State) : State :=
  (s.setReg b (fun r => { r with presence := .present, state := .ready, identity := some oven, commission := some kitchen, power := .on })).setClean b
    (fun c => { c with hygiene := { soil := 0, rinseOwed := false, detergent := 100 }, cabinet := some 600 })

def ready : State := readyBay 0 base

/-- 180.0 °C hot air for 600 s. -/
def bake : Step :=
  { kind := .hotAir, control := .fixed, target := 1800, delta := 0, humidity := 0, fan := 3, fin := .time 600, maximum := 600, prompt := false }

def cake : Revision := { revision := 4, name := "Cake".toList, soilClass := 2, minFirmware := 100, probe := false, steps := [bake, bake] }

def cakeEntry : Entry := { number := 7, cur := cake, pins := 0, retired := none, withdrawn := false }

/-- A library that holds recipe 7. -/
def stocked (s : State) : State := { s with lib := { s.lib with index := [cakeEntry], free := 1598 } }

/-- A run of recipe 7 on bay 1, in its first step. -/
def bakeRun : Run :=
  { Run.create 1 7 cake 90 with state := .running, accepted := true, started := some 91, setpoint := 1800, orderedId := some 1,
                                elapsed := { done := 0, since := some 91000 } }

def cooking : State :=
  let s := (stocked ready).setReg 0 (fun r => { r with activity := .cook })
  { s with runs := { s.runs with runs := upd s.runs.runs 0 (fun _ => some bakeRun), nextId := 2 },
           lib := { s.lib with index := [{ cakeEntry with pins := 1 }] } }

/-- A LIGHT cleaning on bay 1, washing, its CLEAN-PHASE accepted. -/
def lightClean : CleanRec :=
  { CleanRec.create .light .host 50 with state := .washing, accepted := true, orderedId := some 3, phaseTime := { done := 0, since := some 60000 } }

def cleaning : State :=
  (ready.setReg 0 (fun r => { r with activity := .clean })).setClean 0 (fun c => { c with record := some lightClean })

/-- A STATUS record of a quiet oven: door closed, ON, 60.0 °C. -/
def calm : StatusBody :=
  { doorOpen := false, service := false, demand := false, complete := false, power := 1, cabinet := 600, humidity := 20, coreCount := 0,
    cores := [0, 0, 0, 0, 0, 0], fault := 0, dose := 5, echo := 0, stepId := 0, freeBlocks := 4, acknowledged := 0, image := 0, panel := 255 }

/-- The identity record of `oven`. -/
def ovenRecord : IdentityBody :=
  { serial := serialA.map (fun c => BitVec.ofNat 8 c.toNat), model := 2, supply := 1, rated := 180, major := 2, minor := 3, points := 3, steam := 1 }

/-- Bay 1 polled, its answer awaited, the answer limit ending now. -/
def polled (s : State) : State :=
  let x : Exchange := { bay := 0, carried := [], wasLost := decide (s.reg[0].state = .lost), limit := s.now * 1000, answer := .awaited }
  { s with line := { s.line with exchange := some x } }

/-- A WAITING call of TEMP_RUNAWAY on bay 1. -/
def aCall : Call :=
  { id := 9, bay := 0, kind := .tempRunaway, severity := 3, raisedCode := none, latestCode := none, raised := 80, state := .waiting, lane := none,
    number := 0, timeouts := 0, level := 0, deadline := none }

def withCall (c : Call) (s : State) : State := { s with mon := { s.mon with calls := [c], nextCall := 10 } }

def dispatchedCall : Call := { aCall with state := .dispatched, lane := some 0, number := 1 }

/-- The call on lane 1. -/
def onLane (s : State) : State :=
  let t := withCall dispatchedCall s
  { t with mon := { t.mon with lanes := upd t.mon.lanes 0 (fun _ => some { call := 9, due := 90 }) } }

/-- A slot that holds a firmware bundle of 4 bytes for model 2. -/
def bundle (st : SlotState) : Slot :=
  { header := { state := st, kind := .firmware, target := 2, revision := 204, length := 4, crc := 0xB63CFBCD }, fill := 4, computed := none,
    users := 0 }

def withSlot (x : Slot) (s : State) : State := s.setSlot 0 (fun _ => x)

/-- Channel 1 RUNNING over bay 1 from a slot for its model, its entry this, its windows not required. -/
def targeted (p : Progress) (s : State) : State :=
  (withSlot { bundle .verified with users := 1 } s).setChannel 0 (fun x =>
    { x with state := .running, group := [0], windowRequired := false, progress := upd x.progress 0 (fun _ => p) })

/-- Channels 1 and 2 RUNNING over bay 1 alike, both entries this. -/
def targetedTwice (p : Progress) (s : State) : State := (targeted p s).setChannel 1 (fun _ => (targeted p s).dist.channels[0])

/-- Channel 1 RUNNING over bay 1 from slot 1, its transfer in progress. -/
def transferring1 : State :=
  ((withSlot { bundle .verified with users := 1 } ready).setReg 0 (fun r => { r with activity := .update })).setChannel 0 (fun x =>
    { x with state := .running, group := [0], current := some 0, progress := upd x.progress 0 (fun _ => .transferring), discardTaken := true })

/-- The same bay applying, its apply-grace deadline come. -/
def applying1 : State :=
  (transferring1.setChannel 0 (fun x => { x with progress := upd x.progress 0 (fun _ => .applying) })).setLine 0 (fun l => { l with grace := some 100 })

/-- An import of recipe 7 from slot 1, reserved and about to be installed. -/
def cakeImport : Import := { slot := 0, rest := some [{ number := 7, rev := cake }], installed := 0, stale := 0, busy := 0 }

def importing : State := { base with lib := { base.lib with free := 1598, reserved := 2, job := some cakeImport } }

/-- A CLEAN entry for bay 1, any day at 03:30 for an hour. -/
def nightly : SchedEntry :=
  { kind := .clean, mask := [0], weekday := none, hour := some 3, minute := some 30, duration := 60, program := some .light, threshold := 0, enabled := true }

def entrySet (s : State) : State := { s with sched := { s.sched with entries := upd s.sched.entries 0 (fun _ => some nightly) } }

def windowSet (s : State) : State :=
  let t := entrySet s
  { t with sched := { t.sched with windows :=
      [{ entry := 0, kind := .clean, mask := [0], program := some .light, threshold := 0, opened := 40, closes := 100 }] } }

/-- Sunday 2024-03-31, one second before 02:00, with the European rule. -/
def springNight : State :=
  { base with clock := { Backup.initial with
      cal := { year := 2024, month := 3, day := 31, hour := 1, minute := 59, second := 59, weekday := 7 }, valid := true,
      rule := { enabled := true, startMonth := 3, startNth := 5, startHour := 2, endMonth := 10, endNth := 5, endHour := 3 } } }

/-! ## Well-formedness: each check refuses an ill-formed term -/

theorem test_wf_empty_word : Instr.wf (.runStart [[]]) = false := by decide
theorem test_wf_space_in_word : Instr.wf (.runStart (ws ["1 2"])) = false := by decide
theorem test_wf_control_character : Instr.wf (.showBay [[Char.ofNat 7]]) = false := by decide
theorem test_wf_line_too_long : Instr.wf (.unknownVerb [List.replicate 513 'X']) = false := by decide
theorem test_wf_known_verb : Instr.wf (.unknownVerb (ws ["RESTART"])) = false := by decide
theorem test_wf_no_words : Instr.wf (.unknownVerb []) = false := by decide
theorem test_wf_power_code : Instr.wf (.statusRecord { calm with power := 3 }) = false := by decide
theorem test_wf_cabinet : Instr.wf (.statusRecord { calm with cabinet := 40000 }) = false := by decide
theorem test_wf_dose : Instr.wf (.statusRecord { calm with dose := 65536 }) = false := by decide
theorem test_wf_core_points : Instr.wf (.statusRecord { calm with cores := [0] }) = false := by decide
theorem test_wf_serial : Instr.wf (.identityRecord { ovenRecord with serial := [] }) = false := by decide
theorem test_wf_rated : Instr.wf (.identityRecord { ovenRecord with rated := 65536 }) = false := by decide
theorem test_wf_gaps : Instr.wf (.statusRecord { calm with gaps := 34001 }) = false ∧ Instr.wf (.identityRecord { ovenRecord with gaps := 21001 }) = false ∧
    Instr.wf (.identityRecord { ovenRecord with gaps := 21000 }) = true := by decide
theorem test_wf_call_zero : Instr.wf (.escalationDeadlineExpiry 0) = false := by decide
theorem test_wf_well_formed : Instr.wf (.runStart (ws ["1", "7"])) = true ∧ Instr.wf (.statusRecord calm) = true := by decide

/-! ## Lines and frames, written out -/

def bytesOf (x : String) : List Byte := x.toList.map (fun c => BitVec.ofNat 8 c.toNat)

/-- R187: words by single or several spaces. -/
theorem test_line_run_start : readLine (bytesOf "RUN-START  1 7") false = .runStart (ws ["1", "7"]) := by decide
/-- R191: SHOW and its object name the row. -/
theorem test_line_show : readLine (bytesOf "SHOW HEAT 3") false = .showHeat (ws ["3"]) := by decide
theorem test_line_show_unknown : readLine (bytesOf "SHOW TIME") false = .unknownVerb (ws ["SHOW", "TIME"]) := by decide
theorem test_line_empty : readLine (bytesOf "  ") false = .emptyLine := by decide
theorem test_line_small_letters : readLine (bytesOf "restart") false = .unknownVerb (ws ["restart"]) := by decide
theorem test_line_malformed : readLine [0x41, 0x07] false = .malformedLine ∧ readLine (bytesOf "RESTART") true = .malformedLine := by decide
theorem test_line_overlong : readLine (List.replicate 513 0x41) true = .overlongLine := by decide
/-- R23: the check value of CRC-16 with 1021h and FFFFh over "123456789". -/
theorem test_crc16 : crc16 (bytesOf "123456789") = 0x29B1#16 := by decide
/-- R170: the check value of the reflected CRC-32 over "123456789". -/
theorem test_crc32 : crc32 (bytesOf "123456789") = 0xCBF43926 := by decide
/-- R196: an identity body after its head (bay 1, kind 82h, length 16), with the CRC of what stands before it. -/
def identityFrame : List Byte :=
  let f : List Byte := [0x01, 0x82, 0x00, 0x10] ++ bytesOf "KC612345" ++ [0x02, 0x01, 0x00, 0xB4, 0x02, 0x03, 0x03, 0x01]
  f ++ [(crc16 f).extractLsb' 8 8, (crc16 f).extractLsb' 0 8]
theorem test_frame_identity : readAnswer 1 identityFrame 0 = some (.identityRecord ovenRecord) := by decide
theorem test_frame_other_bay : readAnswer 2 identityFrame 0 = some .answerFrameInvalid := by decide
theorem test_frame_incomplete : readAnswer 1 (identityFrame.take 21) 0 = none := by decide
/-- R196: a STATUS body; flags 05h are door open and demand, the cabinet FFF6h is -1.0 °C, the offset 000080h is 128. -/
def statusFrame : List Byte :=
  let f : List Byte := [0x01, 0x81, 0x00, 0x1D] ++ [0x05, 0x02, 0xFF, 0xF6, 0x14, 0x01, 0x02, 0x58] ++ List.replicate 10 0x00 ++
    [0x03, 0x01, 0x00, 0x07, 0x09, 0x04, 0x00, 0x00, 0x80, 0x01, 0xFF]
  f ++ [(crc16 f).extractLsb' 8 8, (crc16 f).extractLsb' 0 8]
theorem test_frame_status : readAnswer 1 statusFrame 900 = some (.statusRecord
    { doorOpen := true, service := false, demand := true, complete := false, power := 2, cabinet := -10, humidity := 20, coreCount := 1,
      cores := [600, 0, 0, 0, 0, 0], fault := 3, dose := 256, echo := 7, stepId := 9, freeBlocks := 4, acknowledged := 128, image := 1,
      panel := 255, gaps := 900 }) := by decide
/-- R188, R189: the forms of the lines sent. -/
theorem test_text_reply : (Reply.ok .setLimit [.tenths 75]).text = "OK SET-LIMIT 7.5\n".toList ∧
    (Reply.no (.verb .showBay) .range []).text = "NO SHOW RANGE\n".toList := by decide
theorem test_text_notice : ({ kind := .bay, time := 100, fields := [.num 1, wd "READY", wd "MATCHED"] } : Notice).text =
    "! BAY 100 1 READY MATCHED\n".toList := by decide

/-! ## The supply, the start-up, the store -/

/-- R192: power-on begins the load. -/
theorem test_power_on : (after .powerOn base).phase = .loading .powerOn ∧ (after .powerOn base).now = 0 := by decide
/-- R193: RESET held low. -/
theorem test_reset_pin : (after (.resetPin { rewritten := 0, faulty := false }) base).phase = .loading .pin := by decide
/-- R192: the whole STARTUP notice of a store never written; then R131: RINSE_OWED and DETERGENT_LOW of bay 1. -/
theorem test_load_end : ((after .startUpLoadEnd State.reset).host.notices.head?.map Notice.text) =
    some "! STARTUP 0 POWER-ON PROFILE OK 0 HYGIENE OK 0 LIBRARY OK 0 SLOT-HEADERS OK 0 CLOCK-VALID N\n".toList := by decide
/-- R193: a RESTART with an empty write queue. -/
theorem test_restart_drained :
    (after .restartWritesDrained { base with host := { base.host with restarting := .waiting 110000 } }).phase = .loading .request := by decide
/-- R193: ten seconds have passed. -/
theorem test_restart_timeout : (after (.restartTimeout { rewritten := 0, faulty := true })
    { base with host := { base.host with restarting := .waiting 100000 } }).phase = .loading .request := by decide
/-- R193. -/
theorem test_restart : reply (.restart []) base = some (.ok .restart []) ∧ (after (.restart []) base).host.restarting = .replying := by decide
/-- R47: the core supply fails. -/
theorem test_power_failure : (after (.powerFailure { rewritten := 0, faulty := false }) cooking).phase = .off ∧
    (after (.powerFailure { rewritten := 0, faulty := false }) cooking).runs.runs[0] = none := by decide
/-- R137: the next power-on finds the loss. -/
theorem test_vbak_loss : (after .powerOn (after .vbakLoss springNight)).clock.cal = .initial := by decide
/-- R44, R47: a record write that is performed stands in its list; one cut off leaves a faulty record. -/
theorem test_store_write_done : (after .storeWriteDone (after (.setLimit (ws ["10.0"])) base)).store.profile.recs = [.site 100 180 30] ∧
    (after .storeWriteDone (after (.setLimit (ws ["10.0"])) base)).store.performing = none := by decide
theorem test_store_cut : (after (.powerFailure { rewritten := 0, faulty := true }) (after (.setLimit (ws ["10.0"])) base)).store.profile =
    { recs := [], faulty := true } := by decide

/-! ## The Bay Registry -/

/-- R4: the settle timer is 2 s. -/
theorem test_presence_present : (after (.presencePresent 0) base).reg[0].state = .settling ∧
    (after (.presencePresent 0) base).reg[0].settleDue = some 102000 := by decide
/-- R5: a READY bay falls back to SETTLING and its identity is gone. -/
theorem test_presence_partial : (after (.presencePartial 0 true) ready).reg[0].state = .settling ∧
    (after (.presencePartial 0 true) ready).reg[0].identity = none := by decide
/-- R6, R83: the bay is EMPTY and its run is ended OVEN_REMOVED. -/
theorem test_presence_absent : (after (.presenceAbsent 0) cooking).reg[0].state = .empty ∧
    ((after (.presenceAbsent 0) cooking).runs.runs[0].map Run.reason) = some .ovenRemoved := by decide
/-- R4, R7: INTERROGATING, with an IDENTIFY queued; R105: no allowance has been sent. -/
theorem test_settle_timer : (after (.settleTimerExpiry 0) { after (.presencePresent 0) base with now := 102000 }).reg[0].state = .interrogating ∧
    ((after (.settleTimerExpiry 0) { after (.presencePresent 0) base with now := 102000 }).line.bays[0].queue.map Order.body) =
      [.identify, .heatAllow 0] := by decide
/-- R5: PRESENCE_PARTIAL becomes true. -/
theorem test_partial_timer :
    condition (after (.partialTimerExpiry 0) { after (.presencePartial 0 true) base with now := 102000 }) 0 .presencePartial = true := by decide
/-- R12. -/
theorem test_commission_begin : reply (.commissionBegin (ws ["1", "1", "20.0", "SOFT", "Y", "N"])) ready =
    some (.ok .commissionBegin [.num 1, .word "OPEN", .word "LIMITS"]) := by decide
/-- R12: with neither message to follow it completes at once; the oven draws more than 17.9 kW. -/
theorem test_commission_refused : reply (.commissionBegin (ws ["1", "1", "17.9", "SOFT", "N", "N"])) ready =
    some (.ok .commissionBegin [.num 1, .word "REFUSED"]) := by decide
/-- R13, R14. -/
theorem test_commission_limits : (let s := quiet (after (.commissionBegin (ws ["1", "1", "20.0", "HARD", "Y", "N"])) ready)
    (after (.commissionLimits (ws ["1", "230.0", "N"])) s).reg[0].commission.map Commission.prov) =
      some { supply := 1, circuitMax := 200, water := .hard, ceiling := 2300, standby := false, detergent := true } := by decide
/-- R13: OPTIONS out of turn is refused SEQUENCE, and the bay returns to READY. -/
theorem test_commission_options : (let s := quiet (after (.commissionBegin (ws ["1", "1", "20.0", "SOFT", "Y", "Y"])) ready)
    let t := after (.commissionOptions (ws ["1", "1", "9", "0", "0", "Y"])) s
    (t.reg[0].state, t.host.inHand)) = (.ready, some (.no (.verb .commissionOptions) .sequence [])) := by decide
/-- R15: 30 s. -/
theorem test_commission_deadline : (let s := after (.commissionBegin (ws ["1", "1", "20.0", "SOFT", "Y", "Y"])) ready
    ((after (.commissionDeadlineExpiry 0) { s with now := 129999 }).reg[0].state,
     (after (.commissionDeadlineExpiry 0) { s with now := 130000 }).reg[0].state)) = (.commissioning, .ready) := by decide
/-- R16. -/
theorem test_decommission : (after (.decommission (ws ["1"])) ready).reg[0].state = .uncommissioned ∧
    reply (.decommission (ws ["1"])) cooking = some (.no (.verb .decommission) .busy []) := by decide
/-- R17: (0, 0) is closed. -/
theorem test_set_menu : reply (.setMenu (ws ["1", "2", "0", "0"])) ready = some (.ok .setMenu [.num 1, .num 2, .word "CLOSED"]) ∧
    (after (.setMenu (ws ["1", "2", "5", "9"])) ready).reg[0].commission.map Commission.win2 = some { base := 5, limit := 9 } := by decide
/-- R1. -/
theorem test_show_bay : reply (.showBay (ws ["13"])) base = some (.no (.verb .showBay) .range []) ∧
    reply (.showBay (ws ["1"])) base = some (.ok .showBay [.num 1, .word "ABSENT", .word "EMPTY", .word "NONE", .word "NONE", .word "NONE", .word "NONE",
      .word "NONE", .word "OFF", .word "NONE", .yn false, .word "CLOSED"]) := by decide

/-! ## The oven line -/

/-- R24: a cycle each second. -/
theorem test_poll_cycle : (after .pollCycleStart ready).line.boundary = 101000 ∧ (after .pollCycleStart ready).line.cursor = 0 := by decide
/-- R27, R195, R23: an empty poll is 7 bytes of 40 µs, and the limit is 20 ms after it. -/
theorem test_poll_send : (after .pollSend (after .pollCycleStart ready)).line.exchange =
    some { bay := 0, carried := [], wasLost := false, limit := 100000000 + 280 + 20000, answer := .awaited } := by decide
/-- R25: ten seconds after the last poll. -/
theorem test_lost_poll : (let s := (base.setReg 0 (fun r => { r with state := .lost })).setLine 0 (fun l => { l with lostFrom := 90001 })
    ((after (.lostPollDue 0) s).line.bays[0].lostDue, (after (.lostPollDue 0) { s with now := 100001 }).line.bays[0].lostDue)) = (false, true) := by decide
/-- R27, R28: the third miss. -/
theorem test_answer_window : (let s := polled (ready.setLine 0 (fun l => { l with misses := 2 }))
    ((after .answerWindowClose s).reg[0].state, (after .answerWindowClose (polled ready)).line.bays[0].misses)) = (.lost, 1) := by decide
/-- R194: the answer counts as none. -/
theorem test_byte_gap : (after .answerByteGap (polled ready)).line.exchange.map Exchange.answer = some .spoilt := by decide
theorem test_frame_invalid : (after .answerFrameInvalid (polled ready)).line.exchange.map Exchange.answer = some .spoilt := by decide
/-- R23: bytes received before the last byte of the poll, 20 ms ahead of the limit, are discarded. -/
theorem test_frame_early : (let s := polled ready
    ((after .answerFrameInvalid { s with now := 99979 }).line.exchange.map Exchange.answer,
      (after .answerFrameInvalid { s with now := 99980 }).line.exchange.map Exchange.answer)) = (some .awaited, some .spoilt) := by decide
/-- R30: the cabinet is clamped at 320.0 °C; R18: the power state; R104: demand. -/
theorem test_status_record : (let t := after (.statusRecord { calm with cabinet := 4000, demand := true, power := 2 }) (polled ready)
    (t.clean[0].cabinet, t.heat.bays[0].demand, t.reg[0].power)) = (some 3200, true, .standby) := by decide
/-- R76: the door pauses a run. -/
theorem test_status_door : ((after (.statusRecord { calm with doorOpen := true, stepId := 1 }) (polled cooking)).runs.runs[0].map Run.state) =
    some .paused := by decide
/-- R8, R10: the stored commission record matches, and the supply fits. -/
theorem test_identity_record :
    (after (.identityRecord ovenRecord) (polled (ready.setReg 0 (fun r => { r with state := .interrogating, identity := none })))).reg[0].state = .ready ∧
    (after (.identityRecord { ovenRecord with rated := 201 })
      (polled (ready.setReg 0 (fun r => { r with state := .interrogating, identity := none })))).reg[0].state = .refused := by decide
/-- R23, R194: an identity record takes 880 µs and its gaps. One complete within a millisecond of the poll's last byte began before it; one begun
within the window may be complete after it. -/
theorem test_identity_window : (let s := polled (ready.setReg 0 (fun r => { r with state := .interrogating, identity := none }))
    let at0 (ms gaps : Nat) : BayState := (after (.identityRecord { ovenRecord with gaps := gaps }) { s with now := ms }).reg[0].state
    (at0 99980 0, at0 99981 0, at0 100002 0, at0 100002 1200)) = (.interrogating, .ready, .interrogating, .ready) := by decide
/-- R29, R179: an apply that does not return. -/
theorem test_apply_grace : (let t := after (.applyGraceExpiry 0) applying1
    (t.reg[0].state, t.dist.channels[0].progress[0])) = (.lost, .failed .noReturn) := by decide

/-! ## The Recipe Library -/

/-- R54. -/
theorem test_recipe_begin : reply (.recipeBegin (ws ["8", "1", "Stew", "1", "0", "N", "1"])) base =
    some (.ok .recipeBegin [.num 8, .word "NEXT", .num 1]) ∧
    reply (.recipeBegin (ws ["7", "4", "Cake", "1", "0", "N", "1"])) (stocked base) = some (.no (.verb .recipeBegin) .stale []) := by decide
/-- R55: the only step installs. -/
theorem test_recipe_step : (let s := quiet (after (.recipeBegin (ws ["8", "1", "Stew", "1", "0", "N", "1"])) base)
    reply (.recipeStep (ws ["1", "STEAM", "FIXED", "99.0", "0.0", "0", "2", "TIME", "1200", "Y"])) s) =
      some (.ok .recipeStep [.num 1, .word "INSTALLED", .num 8, .num 1, .word "NEW"]) := by decide
/-- R56: the slots become free. -/
theorem test_recipe_cancel : (after (.recipeCancel []) (quiet (after (.recipeBegin (ws ["8", "1", "Stew", "1", "0", "N", "3"])) base))).lib.free = 1600 := by
  decide
/-- R56: 60 s. -/
theorem test_load_deadline : (let s := after (.recipeBegin (ws ["8", "1", "Stew", "1", "0", "N", "3"])) base
    ((after .loadDeadlineExpiry s).lib.reserved, (after .loadDeadlineExpiry { s with now := 160000 }).lib.reserved)) = (3, 0) := by decide
/-- R53. -/
theorem test_withdraw : reply (.recipeWithdraw (ws ["7"])) (stocked base) = some (.ok .recipeWithdraw [.num 7, .word "REMOVED"]) ∧
    reply (.recipeWithdraw (ws ["7"])) cooking = some (.ok .recipeWithdraw [.num 7, .word "PENDING", .num 1]) := by decide
/-- R57. -/
theorem test_set_quick : (after (.setQuick (ws ["15", "7"])) base).lib.quick.toList.getLast? = some 7 ∧
    reply (.setQuick (ws ["16", "7"])) base = some (.no (.verb .setQuick) .range []) := by decide
/-- R60: a FIRMWARE slot is refused STATE. -/
theorem test_library_import : reply (.libraryImport (ws ["1"])) (withSlot (bundle .verified) base) = some (.no (.verb .libraryImport) .state []) := by decide
/-- R61: a set whose bytes are all FFh has a count out of range. -/
theorem test_import_validation : (let s : State := { base with lib := { base.lib with job := some { slot := 0, rest := none, installed := 0, stale := 0, busy := 0 } } }
    (after .importValidation (withSlot { bundle .verified with users := 1 } s)).host.notices.map Notice.text) =
      ["! IMPORT-RESULT 100 1 FAILED 1 RANGE\n".toList] := by decide
/-- R62. -/
theorem test_import_record : (after .importRecord importing).host.notices.map Notice.text = ["! IMPORT-RESULT 100 1 DONE 1 0 0\n".toList] := by decide
/-- R50. -/
theorem test_show_recipe : reply (.showRecipe (ws ["7", "2"])) (stocked base) = some (.ok .showRecipe [.num 7, .num 2, .word "HOT_AIR", .word "FIXED",
    .tenths 1800, .tenths 0, .num 0, .num 3, .word "TIME", .num 600, .num 600, .yn false]) := by decide
theorem test_show_library : reply (.showLibrary []) (stocked base) = some (.ok .showLibrary [.num 1, .num 1598, .num 0, .word "NONE", .word "NONE"]) := by
  decide
theorem test_show_quick : reply (.showQuick []) base = some (.ok .showQuick (List.replicate 15 (.num 0))) := by decide

/-! ## The Run Engine -/

/-- R66, R64. -/
theorem test_run_start : reply (.runStart (ws ["1", "7"])) (stocked ready) = some (.ok .runStart [.num 1, .num 1, .num 7, .num 4, .word "ON"]) ∧
    (after (.runStart (ws ["1", "7"])) (stocked ready)).reg[0].activity = .cook := by decide
/-- R66: the rinse that is owed. -/
theorem test_run_start_hygiene : reply (.runStart (ws ["1", "7"])) (stocked (ready.setClean 0 (fun c => { c with hygiene := .initial }))) =
    some (.no (.verb .runStart) .hygiene []) := by decide
/-- R75. -/
theorem test_prompt_done : (let s := cooking.setRun 0 (fun r => { r with state := .prompting, prompt := some (false, 500) })
    ((after (.promptDone (ws ["1"])) s).runs.runs[0].map Run.stepIndex)) = some 2 := by decide
/-- R68: one minute to wake. -/
theorem test_run_wake : (let s := cooking.setRun 0 (fun r => { r with state := .starting, wakeDue := some 100 })
    (after (.runWakeDeadlineExpiry 0) s).runs.runs[0].map Run.reason) = some .noWake := by decide
/-- R73. -/
theorem test_maximum_time : (let s := cooking.setRun 0 (fun r => { r with maxDue := some 9000 })
    (after (.maximumTimeDeadlineExpiry 0) s).runs.runs[0].map Run.reason) = some .coreNotReached := by decide
theorem test_prompt_deadline : (let s := cooking.setRun 0 (fun r => { r with state := .prompting, prompt := some (true, 100) })
    (after (.promptDeadlineExpiry 0) s).runs.runs[0].map Run.reason) = some .promptTimeout := by decide
theorem test_run_door_grace : (let s := cooking.setRun 0 (fun r => { r with state := .paused, graceDue := some 100 })
    (after (.runDoorGraceExpiry 0) s).runs.runs[0].map Run.reason) = some .doorTimeout := by decide
theorem test_runaway : (let s := cooking.setRun 0 (fun r => { r with runawayDue := some 100 })
    (after (.runawayDeadlineExpiry 0) s).runs.runs[0].map Run.reason) = some .runaway := by decide
/-- R81, R37: a SAFE stands alone in the queue. -/
theorem test_run_abort : ((after (.runAbort (ws ["1"])) cooking).line.bays[0].queue.map Order.body).head? = some .safe ∧
    reply (.runAbort (ws ["1"])) cooking = some (.ok .runAbort [.num 1, .num 1]) := by decide
/-- R86. -/
theorem test_run_clear : (after (.runClear (ws ["1"])) (quiet (after (.runAbort (ws ["1"])) cooking))).runs.runs[0] = none ∧
    reply (.runClear (ws ["1"])) cooking = some (.no (.verb .runClear) .state []) := by decide
theorem test_show_run : reply (.showRun (ws ["2"])) cooking = some (.no (.verb .showRun) .absent []) := by decide
/-- R78: clamped to 30-900. -/
theorem test_set_door_grace : reply (.setDoorGrace (ws ["10"])) base = some (.ok .setDoorGrace [.num 30]) ∧
    (after (.setDoorGrace (ws ["901"])) base).runs.doorGrace = 900 := by decide

/-! ## The Allocator -/

/-- R101: clamped to 5.0-400.0 kW. -/
theorem test_set_limit : reply (.setLimit (ws ["4.9"])) base = some (.ok .setLimit [.tenths 50]) ∧ (after (.setLimit (ws ["7.5"])) base).heat.limit = 75 := by
  decide
/-- R103: one READY oven of 18.0 kW with demand under a limit of 10.0 kW gets 1600 / 180 = 8 sixteenths. -/
theorem test_recompute : (recompute ({ ready with heat := { ready.heat with limit := 100 } }.setHeat 0 (fun h => { h with demand := true }))).heat.bays[0].allowance =
    8 := by decide
theorem test_starvation : (after (.starvationDeadlineExpiry 0) (cooking.setHeat 0 (fun h => { h with zeroSince := some 1, starveDue := some 100 }))).heat.bays[0].starvedReported =
    true := by decide
/-- R107: clamped to 5-240 min. -/
theorem test_set_standby_idle : reply (.setStandbyIdle (ws ["4"])) base = some (.ok .setStandbyIdle [.num 5]) := by decide
/-- R109: idle for 30 min. -/
theorem test_idle : ((after (.idleDeadlineExpiry 0) { (ready.setHeat 0 (fun h => { h with idleRef := some 0 })) with now := 1800000 }).line.bays[0].queue.map Order.body) =
    [.power true] := by decide
/-- R112. -/
theorem test_wake : reply (.wake (ws ["1"])) ready = some (.ok .wake [.num 1, .word "ON"]) ∧
    reply (.wake (ws ["1"])) (ready.setReg 0 (fun r => { r with power := .standby })) = some (.ok .wake [.num 1, .word "SENT"]) := by decide
theorem test_show_heat : reply (.showHeat (ws ["1"])) base = some (.ok .showHeat [.num 1, .num 0, .word "NONE", .yn false, .word "NONE", .word "NONE",
    .yn false, .word "NONE", .word "NONE", .yn false, .word "STATE"]) := by decide

/-! ## The Sequencer -/

/-- R118; R120: above 70.0 °C it cools first. -/
theorem test_clean_start : reply (.cleanStart (ws ["1", "LIGHT"])) ready = some (.ok .cleanStart [.num 1, .word "LIGHT", .word "ON"]) ∧
    ((after (.cleanStart (ws ["1", "RINSE"])) (ready.setClean 0 (fun c => { c with cabinet := some 701 }))).clean[0].record.map CleanRec.state) = some .cooling := by
  decide
/-- R121: a wash that the oven reports complete gives way to the rinse. -/
theorem test_phase_end : (let s := { cleaning.setCleanRec 0 (fun c => { c with complete := true }) with now := 60000 + lightClean.duration }
    (after (.phaseDurationEnd 0) s).clean[0].record.map CleanRec.state) = some .rinsing := by decide
/-- R122: ten minutes more. -/
theorem test_overrun : (let s := { cleaning.setCleanRec 0 (fun c => { c with overrunAt := some 40000 }) with now := 100000 }
    (after (.overrunDeadlineExpiry 0) s).clean[0].record.map CleanRec.forced) = some (some (.failed, .phaseTimeout)) := by decide
theorem test_clean_wake : (let s := cleaning.setCleanRec 0 (fun c => { c with state := .requested, wakeDue := some 100 })
    (after (.cleanWakeDeadlineExpiry 0) s).clean[0].record.map CleanRec.reason) = some .noWake := by decide
/-- R120: 30 min. -/
theorem test_cooling : (let s := cleaning.setCleanRec 0 (fun c => { c with state := .cooling, coolTime := { done := 1800000, since := none } })
    (after (.coolingDeadlineExpiry 0) s).clean[0].record.map CleanRec.reason) = some .coolTimeout := by decide
theorem test_clean_door : (let s := cleaning.setCleanRec 0 (fun c => { c with paused := true, graceDue := some 100 })
    (after (.cleanDoorGraceExpiry 0) s).clean[0].record.map CleanRec.reason) = some .doorTimeout := by decide
/-- R128: a wash is followed by a forced rinse. -/
theorem test_clean_abort : reply (.cleanAbort (ws ["1"])) cleaning = some (.ok .cleanAbort [.num 1, .word "RINSING"]) := by decide
/-- R130. -/
theorem test_set_detergent : (after (.setDetergent (ws ["1", "6"])) ready).clean[0].hygiene.detergent = 6 ∧
    condition (after (.setDetergent (ws ["1", "6"])) ready) 0 .detergentLow = true := by decide
theorem test_show_cleaning : reply (.showCleaning (ws ["1"])) base = some (.no (.verb .showCleaning) .absent []) := by decide
theorem test_show_hygiene : reply (.showHygiene (ws ["1"])) base = some (.ok .showHygiene [.num 1, .num 0, .yn true, .num 0, .word "BLOCKED"]) := by decide

/-! ## The clock and the schedule -/

/-- R135. -/
theorem test_clock_update : (after .clockUpdate base).clock.cal.second = 1 := by decide
/-- R139: the hour from 02:00 is skipped. -/
theorem test_dst_start : ((after .clockUpdate springNight).clock.cal.hour, (after .clockUpdate springNight).clock.inDst) = (3, true) := by decide
/-- R136: 2024-03-31 is a Sunday. -/
theorem test_set_clock : reply (.setClock (ws ["2024", "3", "31", "1", "0", "0", "7", "N"])) base =
    some (.ok .setClock [.num 2024, .num 3, .num 31, .num 1, .num 0, .num 0, .num 7, .yn false]) ∧
    reply (.setClock (ws ["2024", "3", "31", "1", "0", "0", "6", "N"])) base = some (.no (.verb .setClock) .range []) := by decide
/-- R138: the months must differ. -/
theorem test_set_dst : reply (.setDst (ws ["Y", "3", "5", "2", "3", "5", "3"])) base = some (.no (.verb .setDst) .range []) ∧
    (after (.setDst (ws ["Y", "3", "5", "2", "10", "5", "3"])) base).clock.rule.endMonth = 10 := by decide
theorem test_show_clock : (reply (.showClock []) base) = some (.ok .showClock ([.num 2000, .num 1, .num 1, .num 0, .num 0, .num 0, .num 6, .yn false, .yn false,
    .yn false, .yn false, .num 1, .num 1, .num 1, .num 2, .num 1, .num 1, .num 100])) := by decide
/-- R142. -/
theorem test_schedule_set : reply (.scheduleSet (ws ["1", "CLEAN", "1,3", "ANY", "3", "30", "60", "LIGHT", "0", "Y"])) base =
    some (.ok .scheduleSet [.num 1]) ∧
    (after (.scheduleSet (ws ["1", "CLEAN", "1", "ANY", "3", "30", "60", "LIGHT", "0", "Y"])) base).sched.entries[0] = some nightly := by decide
/-- R143. -/
theorem test_schedule_clear : reply (.scheduleClear (ws ["1"])) (windowSet base) = some (.ok .scheduleClear [.num 1, .word "CLOSED"]) ∧
    (after (.scheduleClear (ws ["1"])) (windowSet base)).sched.entries[0] = none := by decide
theorem test_show_schedule : reply (.showSchedule (ws ["1"])) (entrySet base) = some (.ok .showSchedule [.num 1, .word "CLEAN", .bays [0], .word "ANY", .num 3,
    .num 30, .num 60, .word "LIGHT", .num 0, .yn true, .yn false]) := by decide
theorem test_show_windows : reply (.showWindows []) (windowSet base) = some (.ok .showWindows [.num 1, .word "CLEAN", .bays [0], .word "LIGHT", .num 0, .num 40,
    .num 100]) := by decide
/-- R146. -/
theorem test_close_deadline : ((after (.closeDeadlineExpiry 0) (windowSet base)).host.notices.map Notice.text) = ["! WINDOW-CLOSE 100 1 CLEAN EXPIRED\n".toList] := by
  decide
/-- R144, R145: the window opens at 03:30:00. -/
theorem test_window_opens : (let s := entrySet { base with clock := { Backup.initial with
      cal := { year := 2024, month := 3, day := 30, hour := 3, minute := 29, second := 59, weekday := 6 }, valid := true } }
    (after .clockUpdate s).sched.windows.map OpenWindow.closes) = [3700] := by decide

/-! ## The Service Monitor -/

/-- R148. -/
theorem test_set_event : (after (.setEvent (ws ["STARVED", "3", "CALL", "N"])) base).mon.settings[8] = { severity := 3, route := .call, enabled := false } := by
  decide
/-- R151: a level kind whose condition is true persists. -/
theorem test_ack_event : (let s := ready.setMon 0 (fun m => { m with latches := upd m.latches 3 (fun l => { l with set := true }), conds := upd m.conds 3 (fun _ => true) })
    reply (.ackEvent (ws ["1", "OVEN_FAULT"])) s) = some (.ok .ackEvent [.num 1, .word "OVEN_FAULT", .word "PERSISTS"]) := by decide
/-- R152, R153, R155: a forced event of a CALL kind raises a call, which is dispatched at once. -/
theorem test_force_event : ((after (.forceEvent (ws ["1", "LINE_EXPIRED"])) ready).host.notices.map Notice.text) =
    ["! EVENT 100 1 LINE_EXPIRED 2 FORCED RAISED 1 0\n".toList, "! CALL-DISPATCH 100 1 1 1 1 LINE_EXPIRED 2 0\n".toList] := by decide
/-- R156, R158: severity 3 has four hours. -/
theorem test_call_accepted : ((after (.callAccepted (ws ["9", "1"])) (onLane base)).mon.calls.map Call.deadline) = [some 14500] ∧
    reply (.callAccepted (ws ["9", "2"])) (onLane base) = some (.no (.verb .callAccepted) .stale []) := by decide
/-- R156: the call waits again and the free lane takes it. -/
theorem test_call_refused : ((after (.callRefused (ws ["9", "1"])) (onLane base)).mon.calls.map Call.number) = [2] := by decide
/-- R157: the third timeout raises the severity, up to 3, and clears the count. -/
theorem test_lane_timer : ((after (.laneTimerExpiry 0) (let s := onLane base
    { s with mon := { s.mon with calls := [{ dispatchedCall with severity := 2, timeouts := 2 }] } })).mon.calls.map (fun c => (c.severity, c.timeouts))) =
    [(3, 0)] := by decide
/-- R158. -/
theorem test_call_progress : reply (.callProgress (ws ["9", "Y"])) (withCall { aCall with state := .acknowledged } base) =
    some (.ok .callProgress [.num 9, .word "ON_SITE"]) := by decide
/-- R159, R164: TEMP_RUNAWAY at level 1 holds the bay. -/
theorem test_escalation : (after (.escalationDeadlineExpiry 9)
    (withCall { aCall with state := .acknowledged, level := 1, deadline := some 100 } ready)).mon.bays[0].hold = .automation := by decide
/-- R160. -/
theorem test_call_close : (after (.callClose (ws ["9"])) (onLane base)).mon.calls = [] ∧ reply (.callClose (ws ["8"])) (onLane base) =
    some (.no (.verb .callClose) .stale []) := by decide
/-- R161. -/
theorem test_tech_take : reply (.techTake (ws ["1", "N"])) cooking = some (.no (.verb .techTake) .busy []) ∧
    reply (.techTake (ws ["1", "Y"])) cooking = some (.ok .techTake [.num 1, .word "TECHNICIAN", .word "ABORTED"]) := by decide
/-- R163. -/
theorem test_tech_release : reply (.techRelease (ws ["1"])) (quiet (after (.techTake (ws ["1", "N"])) ready)) =
    some (.ok .techRelease [.num 1, .word "PENDING"]) := by decide
theorem test_hold_clear : reply (.holdClear (ws ["1"])) (quiet (after (.techTake (ws ["1", "N"])) ready)) = some (.no (.verb .holdClear) .state []) ∧
    reply (.holdClear (ws ["1"])) (quiet (after (.techRelease (ws ["1"])) (quiet (after (.techTake (ws ["1", "N"])) ready)))) =
      some (.ok .holdClear [.num 1]) := by decide
theorem test_show_events : ((reply (.showEvents []) base).map (fun r => r.text.take 28)) = some "OK SHOW EVENTS 2 CALL Y ; 1 ".toList := by decide
theorem test_show_calls : reply (.showCalls []) base = some (.ok .showCalls [.word "FREE", .sep, .word "FREE", .sep, .num 12, .num 1]) := by decide

/-! ## The Update Distributor -/

/-- R168. -/
theorem test_bundle_open : reply (.bundleOpen (ws ["1", "FIRMWARE", "2", "204", "4", "B63CFBCD"])) base = some (.ok .bundleOpen [.num 1, .num 0]) ∧
    (after (.bundleOpen (ws ["1", "FIRMWARE", "2", "204", "4", "b63cfbcd"])) base).dist.slots[0].header = { (bundle .filling).header with } := by decide
/-- R169: the fill is given with SEQUENCE. -/
theorem test_bundle_chunk : reply (.bundleChunk (ws ["1", "3", "0A"])) (withSlot { bundle .filling with fill := 0 } base) =
    some (.no (.verb .bundleChunk) .sequence [.num 0]) ∧
    (after (.bundleChunk (ws ["1", "0", "01020304"])) (withSlot { bundle .filling with fill := 0 } base)).dist.slots[0].fill = 4 := by decide
theorem test_bundle_seal : (after (.bundleSeal (ws ["1"])) (withSlot (bundle .filling) base)).dist.slots[0].header.state = .sealing := by decide
/-- R170: the bytes 01 02 03 04 have the CRC B63CFBCD. -/
theorem test_bundle_seal_done : (let s := after (.bundleChunk (ws ["1", "0", "01020304"])) (withSlot { bundle .filling with fill := 0 } base)
    ((after (.bundleSealDone 0) (after (.bundleSeal (ws ["1"])) (quiet s))).dist.slots[0].header.state,
     (after (.bundleSealDone 0) (withSlot (bundle .sealing) base)).dist.slots[0].header.state)) = (.verified, .corrupt) := by decide
/-- R171. -/
theorem test_bundle_discard : reply (.bundleDiscard (ws ["1"])) (withSlot { bundle .verified with users := 1 } base) =
    some (.no (.verb .bundleDiscard) .inUse []) ∧
    (after (.bundleDiscard (ws ["1"])) (withSlot (bundle .corrupt) base)).dist.slots[0].header.state = .free := by decide
theorem test_show_slot : reply (.showSlot (ws ["1"])) (withSlot (bundle .verified) base) = some (.ok .showSlot [.num 1, .word "VERIFIED", .word "FIRMWARE", .num 2,
    .num 204, .num 4, .hex8 0xB63CFBCD, .num 4, .word "NONE", .num 0]) := by decide
/-- R172. -/
theorem test_channel_set : reply (.channelSet (ws ["1", "1", "1,2", "DEMAND", "N"])) (withSlot (bundle .verified) base) =
    some (.ok .channelSet [.num 1, .word "ARMED"]) := by decide
/-- R173: bay 1 is pending, bay 2 is EMPTY. -/
theorem test_channel_start : (let s := quiet (after (.channelSet (ws ["1", "1", "1,2", "DEMAND", "N"])) (withSlot (bundle .verified) ready))
    let t := after (.channelStart (ws ["1"])) s
    (t.host.inHand, t.dist.channels[0].progress[0], t.dist.channels[0].progress[1])) =
      (some (.ok .channelStart [.num 1, .num 1]), .transferring, .failed .state) := by decide
/-- R20: at the release of bay 1 channel 1 claims it, and channel 2's PENDING entry, which fails BUSY, stays as it was; R174: at another retry it
becomes DEFERRED. -/
theorem test_busy_at_release : (let s := targetedTwice .pending ready
    ((handOn .now 0 s).dist.channels[0].progress[0], (handOn .now 0 s).dist.channels[1].progress[0],
      (retryPasses none s).dist.channels[0].progress[0], (retryPasses none s).dist.channels[1].progress[0])) =
    (.transferring, .pending, .transferring, .deferred) := by decide
/-- R174, the chapter's example at 302,450: the release of one bay defers the PENDING entry of another bay that cooks. -/
theorem test_busy_at_other_release : (handOn .now 11 (targeted .pending cooking)).dist.channels[0].progress[0] = .deferred := by decide
/-- R177: a miss; the third ends the transfer. -/
theorem test_ack_deadline : (let s := transferring1.setChannel 0 (fun x => { x with ackDue := some 100000 })
    ((after (.acknowledgementDeadlineExpiry 0) s).dist.channels[0].misses,
     (after (.acknowledgementDeadlineExpiry 0) (s.setChannel 0 (fun x => { x with misses := 2 }))).dist.channels[0].progress[0])) = (1, .failed .noAck) := by decide
/-- R178. -/
theorem test_offer_deadline : (after (.offerDeadlineExpiry 0) (transferring1.setChannel 0 (fun x => { x with offerDue := some 100 }))).dist.channels[0].progress[0] =
    .failed .noOffer := by decide
/-- R181. -/
theorem test_channel_mask : (after (.channelMask (ws ["1"])) transferring1).dist.channels[0].masked = true ∧
    reply (.channelMask (ws ["2"])) transferring1 = some (.no (.verb .channelMask) .state []) := by decide
theorem test_channel_unmask : (after (.channelUnmask (ws ["1"])) (transferring1.setChannel 0 (fun x => { x with masked := true }))).dist.channels[0].masked = false := by
  decide
/-- R182. -/
theorem test_channels_clear : reply (.channelsClear []) transferring1 = some (.ok .channelsClear [.num 1]) ∧
    (after (.channelsClear []) transferring1).dist.slots[0].users = 0 := by decide
theorem test_show_channel : ((reply (.showChannel (ws ["1"])) transferring1).map (fun r => r.text.take 30)) = some "OK SHOW CHANNEL 1 RUNNING N 1 ".toList := by decide

/-! ## The Host Link -/

/-- R185, R187. -/
theorem test_malformed_line : reply .malformedLine base = some (.no .unjudged .syntaxError []) := by decide
theorem test_overlong_line : reply .overlongLine base = some (.no .unjudged .syntaxError []) := by decide
theorem test_empty_line : exec .emptyLine base = .next base := rfl
/-- R186. -/
theorem test_lost_line : (after .lostLine { base with host := { base.host with waiting := some .bad } }).host.lost = 1 := by decide
theorem test_unknown_verb : reply (.unknownVerb (ws ["HELLO"])) base = some (.no .unjudged .unknown []) ∧
    reply (.unknownVerb (ws ["SHOW"])) base = some (.no .show .syntaxError []) := by decide
/-- R186: a reply sent makes way for the waiting line. -/
theorem test_reply_sent : (let s := after (.showQuick []) (after (.setLimit (ws ["7.5"])) base)
    (after .replySent s).host.inHand) = some (.ok .showQuick (List.replicate 15 (.num 0))) := by decide
/-- R192: a line received during the load is refused STARTING, though the load ends before it is taken. -/
theorem test_early_line : (let s := after (.showQuick []) (after (.setLimit (ws ["7.5"])) State.reset)
    (after .replySent { s with phase := .running }).host.inHand) = some (.no (.verb .showQuick) .starting []) := by decide
/-- R190: OVERFLOW takes the place just freed. -/
theorem test_notice_sent : (let n : Notice := { kind := .bay, time := 1, fields := [] }
    let s := { base with host := { base.host with tx := .notice, notices := [n], overflow := some (3, 7) } }
    (after .noticeSent s).host.notices.map Notice.text) = ["! OVERFLOW 100 3 7\n".toList] := by decide

end Sys2Proof.Tests
end

