-- ==== Sys2Proof/Tests/Witnesses.lean ====
section
/-! SUPPORT. For every statement with hypotheses a state and operands that meet them, clause by clause and at the boundaries of the clauses. -/

namespace Sys2Proof.Tests

open Sys2Proof Sys2Proof.Machine

set_option maxRecDepth 20000

/-- The part is listening. -/
theorem listens : Listening base := ⟨rfl, rfl, rfl, rfl⟩

/-! ## The machine as a whole -/

theorem witness_step_idle : State.reset.pending = [] ∧ State.reset.now < 4294967295999 := by decide
theorem witness_step_idle_last : ({ base with now := 4294967295998 } : State).pending = [] ∧ (4294967295998 : Nat) < 4294967295999 := by decide

theorem witness_line_bounds (b : BayId) : LineBounds base.line.bays[b] := by
  have h : base.line.bays[b] = .initial := table_get 12 _ b.val b.isLt
  rw [h]
  exact ⟨by decide, by decide, by decide⟩

theorem witness_hygiene_bounds (b : BayId) : HygieneBounds base.clean[b].hygiene := by
  have h : base.clean[b] = .initial := table_get 12 _ b.val b.isLt
  rw [h]
  exact ⟨by decide, by decide⟩

/-- A running part within the bounds, whose step has a next state. -/
theorem witness_bounds : Bounds base ∧ step base = .next base.tick :=
  ⟨⟨⟨by decide, fun c f h => by simp [base, State.reset, HostLink.initial] at h, by decide⟩, witness_line_bounds, witness_hygiene_bounds, by decide, by decide,
    by decide, by decide, by decide, by decide, List.Pairwise.nil, fun _ h => absurd h List.not_mem_nil⟩, rfl⟩

/-- A bay that cooks has its one job. -/
theorem witness_jobs : Jobs cooking ∧ step cooking = .next cooking.tick := by
  refine ⟨fun b => ?_, rfl⟩
  have h : ∀ b : BayId, (cooking.reg[b].activity = .cook ↔ (liveRun cooking b).isSome = true) ∧
    (cooking.reg[b].activity = .clean ↔ (liveClean cooking b).isSome = true) ∧
    (cooking.reg[b].activity = .update ↔ ∃ c : Fin 4, cooking.dist.channels[c].current = some b) ∧
    (∀ c : Fin 4, cooking.dist.channels[c].current = some b ↔
      cooking.dist.channels[c].progress[b] = .transferring ∨ cooking.dist.channels[c].progress[b] = .applying) ∧
    (∀ c : Fin 4, cooking.dist.channels[c].current = some b → cooking.dist.channels[c].state = .running) ∧
    (∀ c d : Fin 4, cooking.dist.channels[c].current = some b → cooking.dist.channels[d].current = some b → c = d) := by decide
  exact ⟨(h b).1, (h b).2.1, (h b).2.2.1, (h b).2.2.2.1, (h b).2.2.2.2.1, (h b).2.2.2.2.2⟩

/-- A call that lane 1 holds. -/
theorem witness_call_table : CallTable (onLane base) ∧ step (onLane base) = .next (onLane base).tick := by
  refine ⟨⟨by decide, by decide, by decide, by decide, by decide, ?_, by decide, ?_, by decide⟩, rfl⟩
  · intro c hc
    obtain rfl : c = dispatchedCall := by simpa [onLane, withCall] using hc
    intro l
    have h : ∀ l : Fin 2, (dispatchedCall.lane = some l ↔ (onLane base).mon.lanes[l] = some { call := 9, due := 90 }) ∧
      ∀ l : Fin 2, (onLane base).mon.lanes[l] = none ∨ (onLane base).mon.lanes[l] = some { call := 9, due := 90 } := by decide
    constructor
    · exact fun x => ⟨_, (h l).1.mp x.2, rfl⟩
    · rintro ⟨x, hx, -⟩
      refine ⟨rfl, (h l).1.mpr ?_⟩
      rcases (h l).2 l with hn | hs
      · rw [hn] at hx; cases hx
      · exact hs
  · intro l x hx
    have h : ∀ l : Fin 2, (onLane base).mon.lanes[l] = none ∨ (onLane base).mon.lanes[l] = some { call := 9, due := 90 } := by decide
    refine ⟨dispatchedCall, by decide, ?_⟩
    rcases h l with hn | hs
    · rw [hn] at hx; cases hx
    · rw [hs] at hx; cases hx; rfl

/-- A pinned entry and its run. -/
theorem witness_pool : Pool cooking ∧ step cooking = .next cooking.tick := by
  refine ⟨⟨by decide, by decide, ?_, ?_, ?_, ?_, fun _ _ => by decide, by decide, ?_⟩, rfl⟩
  · intro e he
    obtain rfl : e = { cakeEntry with pins := 1 } := by simpa [cooking] using he
    exact ⟨by decide, fun _ h => (by simp [cakeEntry] at h), fun h => (by simp [cakeEntry] at h)⟩
  · intro b r hr
    have h : ∀ b : BayId, liveRun cooking b = none ∨ liveRun cooking b = some bakeRun := by decide
    rcases h b with hn | hs
    · rw [hn] at hr; cases hr
    · rw [hs] at hr; cases hr
      exact ⟨{ cakeEntry with pins := 1 }, by decide, by decide, .inl (by decide)⟩
  · intro l h
    rw [show cooking.lib.load = none by decide] at h; cases h
  · intro l h
    rw [show cooking.lib.job = none by decide] at h; cases h
  · intro c h
    exact absurd h (by cases c <;> decide)

theorem witness_count : ¬ StartsUp .pollSend := id
theorem witness_presence : exec .pollSend base = .next (after .pollSend base) ∧ ¬ ReadsContacts .pollSend :=
  ⟨rfl, fun h => h.elim id id⟩
theorem witness_unsupplied : ({ base with phase := .off } : State).phase = .off ∧ base.host.inHand = none ∧ ¬ ReachesUnsupplied .pollSend :=
  ⟨rfl, rfl, id⟩

/-! ## Host Link -/

theorem witness_loading : State.reset.phase = .loading .powerOn ∧ State.reset.host.restarting = .no ∧ State.reset.host.inHand = none ∧
    State.reset.host.waiting = none := by decide
theorem witness_refusal : Listening base ∧ exec (Verb.runAbort.command (ws ["1"])) base = .next (after (.runAbort (ws ["1"])) base) ∧
    (after (.runAbort (ws ["1"])) base).host.inHand = some (.no (.verb .runAbort) .state []) ∧ Verb.runAbort ≠ .recipeStep ∧
    Reason.state ≠ .sequence := ⟨listens, rfl, by decide, by decide, by decide⟩
/-- COMMISSION-LIMITS refused STATE-free: out of range, and so with no effect. -/
theorem witness_refusal_limits : exec (Verb.commissionLimits.command (ws ["13", "200.0", "Y"])) base =
    .next (after (.commissionLimits (ws ["13", "200.0", "Y"])) base) ∧
    (after (.commissionLimits (ws ["13", "200.0", "Y"])) base).host.inHand = some (.no (.verb .commissionLimits) .range []) :=
  ⟨rfl, by decide⟩
theorem witness_show_bay : Listening base ∧ number "1".toList = some (bayNo 0) ∧ number "12".toList = some (bayNo 11) ∧ number "0".toList = some 0 ∧
    number "13".toList = some 13 := ⟨listens, by decide, by decide, by decide, by decide⟩
theorem witness_show_of_a_bay : Listening cooking ∧ NamesBay "1".toList 0 ∧ NamesBay "12".toList 11 ∧ cooking.runs.runs[0] = some bakeRun ∧
    cooking.runs.runs[11] = none ∧ cleaning.clean[0].record = some lightClean ∧ cooking.clean[0].record = none ∧
    cooking.clean[0].pendingWindow = none :=
  ⟨⟨rfl, rfl, rfl, rfl⟩, by unfold NamesBay; decide, by unfold NamesBay; decide, by decide, by decide, by decide, by decide, by decide⟩
theorem witness_show_of_the_site : Listening (stocked base) ∧ (stocked base).sched.windows = [] ∧ number "1".toList = some ((0 : Fin 24).val + 1) ∧
    number "24".toList = some ((23 : Fin 24).val + 1) ∧ number "7".toList = some 7 ∧ entryFor (stocked base).lib.index 7 = some cakeEntry ∧
    NamesFour "1".toList 0 ∧ NamesFour "4".toList 3 :=
  ⟨⟨rfl, rfl, rfl, rfl⟩, rfl, by decide, by decide, by decide, by decide, by unfold NamesFour; decide, by unfold NamesFour; decide⟩
theorem witness_show_more : (windowSet base).sched.windows ≠ [] ∧ Listening (windowSet base) ∧ number "1".toList = some (0 + 1) ∧
    number "12".toList = some (11 + 1) ∧ cakeEntry.cur.steps[0]? = some bake ∧
    ({ cakeEntry with cur := { cake with steps := List.replicate 12 bake } } : Entry).cur.steps[11]? = some bake :=
  ⟨by decide, ⟨rfl, rfl, rfl, rfl⟩, by decide, by decide, by decide, by decide⟩

/-- A complete line waits behind a request in hand; it was received after the load. -/
def lineWaits : State :=
  { base with host := { base.host with inHand := some (.ok .setLimit []), tx := .reply, waiting := some (.request .showQuick []) } }

theorem witness_bad_lines : Listening base ∧ "HELLO".toList ≠ "SHOW".toList ∧ base.phase ≠ .off ∧ base.host.waiting = none ∧
    lineWaits.host.waiting = some (.request .showQuick []) ∧ lineWaits.host.restarting = .no :=
  ⟨listens, by decide, by decide, rfl, rfl, rfl⟩
theorem witness_show_alone : Listening base ∧ "TIME".toList ≠ [] ∧ isWord "TIME".toList = true ∧ isWord ".".toList = false :=
  ⟨listens, by decide, by decide, by decide⟩
theorem witness_reply_sent : lineWaits.phase = .running ∧ lineWaits.host.tx = .reply ∧ lineWaits.host.restarting = .no ∧
    lineWaits.host.lostFirst = 0 ∧ ({ lineWaits.host with waiting := none } : HostLink).lost = 0 := by decide
/-- R192: the same with a line that was received during the load. -/
def earlyWaits (l : InLine) : State := { lineWaits with host := { lineWaits.host with waiting := some l, early := true } }

theorem witness_reply_sent_early : (earlyWaits (.request .showQuick [])).host.early = true ∧ (earlyWaits (.unknown ["HELLO".toList])).host.early = true ∧
    (earlyWaits (.unknown ["HELLO".toList])).host.lostFirst = 0 ∧ lineWaits.host.early = false := by decide
/-- R186: behind a request in hand, with the load ended and with the load running. -/
theorem witness_line_joins : (let h : HostLink := { lineWaits.host with waiting := none }
    h.inHand = some (.ok .setLimit []) ∧ h.waiting = none ∧ h.restarting = .no) ∧ (false = true ↔ ∃ c, base.phase = .loading c) ∧
    (true = true ↔ ∃ c, State.reset.phase = .loading c) ∧
    (after (.showQuick []) (after (.setLimit (ws ["7.5"])) State.reset)).host.waiting = some (.request .showQuick []) :=
  ⟨⟨rfl, rfl, rfl⟩, by simp [base], by simp [State.reset], by decide⟩
theorem witness_reply_sent_lost : (let h : HostLink := { lineWaits.host with lost := 1, lostFirst := 1 }
    (h.lost, h.lostFirst, { h with waiting := none }.waiting)) = (1, 1, none) := by decide

def bayNotice : Notice := { kind := .bay, time := 1, fields := [] }

/-- A queue of 64 notices, its first on the line. -/
def fullQueue (o : Option (Nat × Nat)) : State :=
  { base with host := { base.host with tx := .notice, notices := List.replicate 64 bayNotice, overflow := o } }

theorem witness_notice_room : base.host.notices.length < noticeRoom base ∧ noticeRoom (fullQueue none) ≤ (fullQueue none).host.notices.length ∧
    (fullQueue (some (65535, 7))).host.overflow = some (65535, 7) := by decide
theorem witness_notice_sent : (fullQueue none).phase = .running ∧ (fullQueue none).host.tx = .notice ∧
    (fullQueue (some (3, 7))).host.notices = bayNotice :: List.replicate 63 bayNotice ∧ (List.replicate 63 bayNotice).length < 64 := by decide

/-- RESTART's reply is on the line. -/
def restartReplying : State :=
  { base with host := { base.host with inHand := some (.ok .restart []), tx := .reply, restarting := .replying } }

theorem witness_restart : Listening base ∧ restartReplying.phase = .running ∧ restartReplying.host.tx = .reply ∧
    restartReplying.host.restarting = .replying := ⟨listens, rfl, rfl, rfl⟩

/-! ## Start-up, supply and store -/

/-- The part waits for its write queue until 110 s. -/
def draining : State := { base with host := { base.host with restarting := .waiting 110000 } }

theorem witness_start_ups : base.clock.lossSeen = false ∧ (after .vbakLoss base).clock.lossSeen = true ∧ draining.phase ≠ .off ∧
    draining.host.restarting = .waiting 110000 ∧ draining.store.performing = none ∧ draining.store.waiting = [] ∧
    110000 ≤ ({ draining with now := 110000 } : State).now := by decide
theorem witness_load_end : State.reset.phase = .loading .powerOn := rfl

/-- A PROFILE list whose second record is out of range. -/
def profileList : RecordList := { recs := [.site 100 180 30, .event 3 { severity := 4, route := .call, enabled := true }], faulty := false }

theorem witness_loads : readPartition .profile profileList = [.site 100 180 30] ∧
    profileList.recs = readPartition .profile profileList ++ .event 3 { severity := 4, route := .call, enabled := true } :: [] ∧
    (∀ r ∈ readPartition .profile profileList, r.pos ≠ quickPos) ∧ (∀ r ∈ readPartition .profile State.reset.store.profile, r.pos ≠ sitePos) ∧
    (base.setReg 0 (fun r => { r with settled := true })).reg[0].settled = true ∧ base.reg[0].settled = false := by decide

/-- A site record being written, an event record waiting. -/
def writing : State :=
  { base with store := { base.store with performing := some (.record .profile 1000 (some (.site 100 180 30))), waiting := [.erase 0] } }

theorem witness_store_writes : writing.phase = .running ∧ writing.store.performing = some (.record .profile 1000 (some (.site 100 180 30))) ∧
    ({ writing.store with waiting := [] } : Store).waiting = [] ∧ writing.store.waiting = .erase 0 :: [] := by decide
theorem witness_rewrite : (∀ r, some (StoreRec.site 100 180 30) = some r → r.pos = 1000) ∧ (StoreRec.quick (table 15 0)).pos ≠ 1000 ∧
    [StoreRec.site 100 180 30, .quick (table 15 0)].Pairwise (fun a b => a.pos < b.pos) :=
  ⟨fun r h => by cases h; rfl, by decide, by decide⟩
theorem witness_staging : Memory.wf [(3, 0x01#8), (524288, 0x02#8)] ∧ (0 : Nat) < [0x05#8].length ∧ (524287 : Nat) < 524288 ∧ (2 : Nat) < 3 ∧
    3 + [0x05#8].length ≤ 4 ∧ stagingAddr 0 524288 ≤ 524288 := by decide

/-! ## Bay Registry -/

theorem witness_contacts : base.phase ≠ .off ∧ base.reg[0].presence = .absent ∧ base.reg[0].presence ≠ .present ∧ base.reg[0].presence ≠ .partly ∧
    ready.reg[0].presence ≠ .absent := by decide
theorem witness_torn_down : JobOf cooking 0 ∧ cooking.phase ≠ .off ∧ cooking.reg[0].presence = .present ∧ cooking.reg[0].state ≠ .settling ∧
    cooking.reg[0].state ≠ .empty ∧ cooking.reg[0].presence ≠ .absent ∧ cooking.reg[0].presence ≠ .partly :=
  ⟨witness_jobs.1 0, by decide, by decide, by decide, by decide, by decide, by decide⟩

/-- Bay 1 settling since 98 s. -/
def settling : State := base.setReg 0 (fun r => { r with presence := .present, state := .settling, settleDue := some 100000 })

theorem witness_bay_timers : settling.phase = .running ∧ settling.reg[0].state = .settling ∧ settling.reg[0].settleDue = some 100000 ∧
    100000 ≤ settling.now ∧ ({ settling with phase := .loading .pin } : State).phase = .loading .pin := by decide
theorem witness_partial_timer : (base.setReg 0 (fun r => { r with partialDue := some 100000 })).reg[0].partialDue = some 100000 ∧
    condition base 0 .presencePartial = false := by decide

/-- A sequence open on bay 1, both messages to come. -/
def sequence : State := quiet (after (.commissionBegin (ws ["1", "1", "20.0", "HARD", "Y", "Y"])) ready)

/-- Its context. -/
def context : CommContext :=
  { supply := 1, circuitMax := 200, water := .hard, limitsFollow := true, optionsFollow := true, limits := none, options := none,
    next := .limits, before := .ready, deadline := 130 }

theorem witness_sequence_deadline : sequence.reg[0].context = some context ∧ context.deadline ≤ ({ sequence with now := 130000 } : State).now / 1000 ∧
    sequence.reg[0].state ≠ context.before ∧ settling.line.bays[0].queue.length < 6 := by decide
theorem witness_commission_restart : Listening sequence ∧ sequence.reg[0].state = .commissioning ∧ sequence.reg[0].context = some context ∧
    context.before = .ready := ⟨⟨rfl, rfl, rfl, rfl⟩, by decide, by decide, by decide⟩
theorem witness_commission_at_once : parseBegin (ws ["1", "1", "20.0", "HARD", "N", "N"]) =
    some (some { bay := 0, supply := 1, circuitMax := 200, water := .hard, limits := false, options := false }) ∧ ready.reg[0].identity = some oven := by
  decide
theorem witness_commission_begin : Listening ready ∧ parseBegin (ws ["1", "1", "20.0", "HARD", "Y", "N"]) =
    some (some { bay := 0, supply := 1, circuitMax := 200, water := .hard, limits := true, options := false }) ∧
    ready.reg[0].state = .ready ∧ ready.reg[0].activity = .nothing := ⟨⟨rfl, rfl, rfl, rfl⟩, by decide, by decide, by decide⟩

/-- The same sequence with OPTIONS next. -/
def sequenceOptions (circuitMax : Nat) : State :=
  sequence.setReg 0 (fun r => { r with context := some { context with next := .options, circuitMax := circuitMax, limitsFollow := false } })

theorem witness_commission_limits : Listening sequence ∧ sequence.reg[0].state = .commissioning ∧ sequence.reg[0].context = some context ∧
    sequence.reg[0].identity = some oven ∧ context.next = .limits ∧ context.optionsFollow = true ∧ NamesBay "1".toList 0 ∧
    tempField "150.0".toList = some 1500 ∧ tempField "300.0".toList = some 3000 ∧ ynField "N".toList = some (some false) :=
  ⟨⟨rfl, rfl, rfl, rfl⟩, by decide, by decide, by decide, by decide, by decide, by unfold NamesBay; decide, by decide, by decide, by decide⟩
theorem witness_commission_limits_last : (let s := sequence.setReg 0 (fun r => { r with context := some { context with optionsFollow := false } })
    s.reg[0].context = some { context with optionsFollow := false } ∧ s.reg[0].state = .commissioning ∧ s.reg[0].identity = some oven) := by decide
theorem witness_out_of_turn : ready.reg[0].context = none ∧ context.next = .limits ∧
    (sequenceOptions 200).reg[0].context = some { context with next := .options, limitsFollow := false } ∧
    (sequenceOptions 200).reg[0].state ≠ context.before ∧ ynField "Y".toList = some (some true) := by decide
theorem witness_commission_options : Listening (sequenceOptions 200) ∧ (sequenceOptions 200).reg[0].state = .commissioning ∧
    (sequenceOptions 200).reg[0].context = some { context with next := .options, limitsFollow := false } ∧ number "999".toList = some 999 ∧
    number "0".toList = some 0 ∧ oven.rated ≤ 200 ∧ ¬ oven.rated ≤ 179 :=
  ⟨⟨rfl, rfl, rfl, rfl⟩, by decide, by decide, by decide, by decide, by decide, by decide⟩
theorem witness_commission_records : Listening ready ∧ NamesBay "1".toList 0 ∧ ready.reg[0].state = .ready ∧ ready.reg[0].activity = .nothing ∧
    number "2".toList = some 2 ∧ ready.reg[0].commission = some kitchen :=
  ⟨⟨rfl, rfl, rfl, rfl⟩, by unfold NamesBay; decide, by decide, by decide, by decide, by decide⟩

/-! ## Order queues -/

/-- Bay 1 with these orders queued and held. -/
def queued (q : List OrderBody) (h : List HeldOrder) (s : State) : State :=
  s.setLine 0 (fun l => { l with queue := q.map (fun o => { id := 9, body := o, delivered := true }), held := h })

theorem witness_placing : (queued [.heatAllow 3] [] ready).reg[0].state = .ready ∧ (OrderBody.heatAllow 7).kind.coalesces = true ∧
    (∃ x ∈ (queued [.heatAllow 3] [] ready).line.bays[0].queue, x.body.kind = (OrderBody.heatAllow 7).kind) ∧
    (queued (List.replicate 5 .applyGo) [] ready).line.bays[0].queue.length < 6 ∧
    6 ≤ (queued (List.replicate 6 .applyGo) [] ready).line.bays[0].queue.length ∧ OrderBody.identify.kind.coalesces = false ∧
    base.reg[0].state = .empty ∧ settling.reg[0].state = .settling := by decide
theorem witness_safe : (let s := (queued [.heatAllow 3, .identify, .applyGo, .applyGo, .applyGo] [] ready).setReg 0 (fun r => { r with state := .interrogating })
    s.line.bays[0].queue.length ≤ 5 ∧ s.line.bays[0].held = [] ∧ (∃ x ∈ s.line.bays[0].queue, x.body = .identify) ∧ s.reg[0].state = .interrogating ∧
      (∃ x ∈ s.line.bays[0].queue, x.body = .heatAllow 3)) := by decide
theorem witness_held : (let h : HeldOrder := { body := .identify, note := .plain }
    let s := queued (List.replicate 5 .applyGo) [h] ready
    s.line.bays[0].held = h :: [] ∧ h.body.kind.coalesces = false ∧ s.line.bays[0].queue.length < 6 ∧ s.reg[0].state ≠ .empty) := by decide
theorem witness_withdraw_orders : (∃ x ∈ (queued [.applyGo, .identify] [] ready).line.bays[0].queue, x.body.kind ∉ [OrderKind.applyGo] ∧
    x.body.kind.coalesces = false) := by decide

/-! ## Oven Line Controller -/

/-- A demand transfer on bay 1, the cycle's regular polls over, its boundary far away. -/
def extraTime : State :=
  let s := transferring1.setChannel 0 (fun x => { x with demand := true })
  { s with line := { s.line with cursor := 12, boundary := 101000 } }

/-- The cycle at its first bay. -/
def midCycle : State := after .pollCycleStart ready

theorem witness_polls : ready.phase ≠ .off ∧ ready.line.boundary ≤ ready.now ∧ ready.line.cursor = 12 ∧ windowIsOpen ready = false ∧
    windowIsOpen midCycle = false ∧ nextPoll midCycle = some 0 := by decide
theorem witness_extra_poll : windowIsOpen extraTime = false ∧ nextPoll extraTime = none ∧ extraTime.line.extraOver = false ∧
    (extraOrder extraTime.line.extraAfter).find? (extraEligible extraTime) = some 0 ∧
    extraTime.now * 1000 + 40 * (pollFrame 0 (extraTime.line.bays[0].queue.take 2)).length + 20000 < extraTime.line.boundary * 1000 := by decide

/-- Bay 1 LOST since 90 s. -/
def lostBay : State := (base.setReg 0 (fun r => { r with state := .lost })).setLine 0 (fun l => { l with lostFrom := 90000 })

theorem witness_lost_poll : lostBay.reg[0].state = .lost ∧ lostBay.line.bays[0].lostFrom + 10000 ≤ lostBay.now := by decide

/-- Bay 1 INTERROGATING after this many polls. -/
def asked (polls : Nat) : State := ready.setReg 0 (fun r => { r with state := .interrogating, pollCount := polls })

/-- Bay 1 with this many misses. -/
def missed (n : Nat) (grace : Option Nat) (s : State) : State := s.setLine 0 (fun l => { l with misses := n, grace := grace })

/-- The exchange with bay 1, of a poll of a LOST bay or not, its answer limit ending then. -/
def awaits (wasLost : Bool) (limit : Nat) (s : State) : State :=
  { s with line := { s.line with exchange := some { bay := 0, carried := [], wasLost := wasLost, limit := limit, answer := .awaited } } }

theorem witness_window : ready.phase ≠ .off ∧ ready.now * 1000 < 100000001 ∧ (100000000 : Nat) ≤ ready.now * 1000 ∧
    (polled ready).line.exchange = some { bay := 0, carried := [], wasLost := false, limit := 100000000, answer := .awaited } ∧
    ((polled lostBay).line.exchange.map Exchange.wasLost) = some true := by decide
theorem witness_misses : ready.reg[0].state ≠ .interrogating ∧ ready.line.bays[0].misses < 2 ∧ (missed 1 none ready).line.bays[0].misses < 2 ∧
    (asked 1).reg[0].state = .interrogating ∧ (asked 1).reg[0].pollCount < 2 ∧ (asked 1).line.bays[0].misses < 2 := by decide
theorem witness_grace : 2 ≤ (missed 2 (some 100) ready).line.bays[0].misses ∧ (missed 2 (some 100) ready).line.bays[0].grace.isSome = true ∧
    2 ≤ (missed 2 none lostBay).line.bays[0].misses ∧ lostBay.reg[0].state = .lost ∧ lostBay.reg[0].state ≠ .interrogating ∧
    ((awaits false 0 lostBay).line.exchange.map Exchange.wasLost) = some false := by decide
theorem witness_lost : 2 ≤ (missed 2 none ready).line.bays[0].misses ∧ (missed 2 none ready).line.bays[0].grace = none ∧
    ready.reg[0].state ≠ .lost ∧ 2 ≤ (asked 2).reg[0].pollCount ∧ (asked 2).reg[0].state = .interrogating ∧ (asked 2).reg[0].state ≠ .lost := by decide
theorem witness_status : (polled ready).phase = .running ∧ calm.malformed = false ∧ ({ calm with coreCount := 7 } : StatusBody).malformed = true ∧
    ready.reg[0].state = .ready ∧ (asked 1).reg[0].pollCount < 2 ∧ ({ calm with stepId := 1 } : StatusBody).stepId ≠ 0 ∧
    ready.now * 1000 ≤ 99998600 + 1400 ∧ 99998599 + 1400 < ready.now * 1000 ∧ ready.line.bays[0].held = [] ∧ channelOf ready 0 = none := by decide
theorem witness_identity_time : ready.now * 1000 ≤ 99999120 + 880 ∧ 99999119 + 880 < ready.now * 1000 ∧
    100020000 - 880 + 880 ≤ ready.now * 1000 + 20000 ∧ ready.now * 1000 + 20000 < 100019121 + 880 := by decide
/-- The poll's last byte goes 20 ms before the limit: a frame is in the window from there on, and one that began there is taken. -/
theorem witness_window_opens : (100020000 : Nat) ≤ ready.now * 1000 + 20000 ∧
    ready.now * 1000 + 20000 < 100020001 ∧ 100018600 + 1400 ≤ ready.now * 1000 + 20000 ∧ ready.now * 1000 + 20000 < 100018601 + 1400 := by decide

/-- An answer with gaps, begun at the limit and complete after it; and one with gaps longer than 1 ms each could be. -/
theorem witness_gaps : (let s := ready.now * 1000
    99964600 + 1400 + 34000 = s ∧ 99970000 + 1400 + 34001 ≤ s + 20000 ∧ s ≤ 99970000 + 1400 + 34001 ∧
      99978120 + 880 + 21000 = s ∧ 99980000 + 880 + 21001 ≤ s + 20000 ∧ s ≤ 99980000 + 880 + 21001) ∧
    ({ calm with gaps := 34001 } : StatusBody).malformed = false ∧ 34 * 1000 < 34001 ∧ 21 * 1000 < 21001 := by decide

/-- Bay 1 INTERROGATING, polled, with this commission record. -/
def asking (c : Option Commission) : State := polled (ready.setReg 0 (fun r => { r with state := .interrogating, identity := none, commission := c }))

theorem witness_identity : (asking none).reg[0].state = .interrogating ∧ identityOk ovenRecord = true ∧ (asking none).reg[0].commission = none ∧
    (asking (some kitchen)).reg[0].commission = some kitchen ∧ kitchen.serial = (identityOf ovenRecord).serial ∧
    ({ kitchen with serial := "KC000000".toList } : Commission).serial ≠ (identityOf ovenRecord).serial := by decide

theorem witness_identity_others : identityOk { ovenRecord with supply := 9 } = false ∧ (asked 1).reg[0].pollCount < 2 ∧ 2 ≤ (asked 2).reg[0].pollCount ∧
    (asked 1).reg[0].state = .interrogating ∧ lostBay.reg[0].state = .lost ∧ ready.reg[0].state ≠ .interrogating ∧ ready.reg[0].state ≠ .lost ∧
    ready.reg[0].state ≠ .empty ∧ ready.reg[0].state ≠ .settling := by decide

/-! ## Recipe Library -/

def stewBegin (k : String) : List Txt := ws ["8", "1", "Stew", "1", "0", "N", k]

def stew : Revision := { revision := 1, name := "Stew".toList, soilClass := 1, minFirmware := 0, probe := false, steps := [] }

def stewStep (k : String) : List Txt := ws [k, "STEAM", "FIXED", "99.0", "0.0", "0", "2", "TIME", "1200", "Y"]

def steam : Step :=
  { kind := .steam, control := .fixed, target := 990, delta := 0, humidity := 0, fan := 2, fin := .time 1200, maximum := 1200, prompt := true }

/-- A load of recipe 8 with `k` steps, open since 40 s. -/
def stewLoad (k : Nat) : Load := { number := 8, head := stew, count := k, next := 1, deadline := 100 }

def loadingStew (k : Nat) : State := { base with lib := { base.lib with load := some (stewLoad k), free := 1600 - k, reserved := k } }

theorem witness_recipe_begin : Listening base ∧ parseRecipeBegin (stewBegin "12") = some (8, some stew, 12) ∧
    headerOk 8 stew.revision stew.name stew.soilClass stew.minFirmware 12 = true ∧ beginCheck base.lib 8 stew.revision 12 = none :=
  ⟨listens, by decide, by decide, by decide⟩
theorem witness_recipe_load : Listening (loadingStew 2) ∧ (loadingStew 2).lib.load = some (stewLoad 2) ∧
    (stewLoad 2).deadline ≤ (loadingStew 2).now / 1000 ∧ parseRecipeStep (stewStep "2") = some (2, some steam) ∧ 2 ≠ (stewLoad 2).next ∧
    parseRecipeStep (stewStep "1") = some ((stewLoad 2).next, some steam) ∧ stepOk (stewLoad 2).head.probe steam = true ∧
    (stewLoad 2).next < (stewLoad 2).count := ⟨⟨rfl, rfl, rfl, rfl⟩, by decide, by decide, by decide, by decide, by decide, by decide, by decide⟩

theorem witness_recipe_refusals : base.lib.load = none ∧ stepOk (stewLoad 2).head.probe { steam with fan := 6 } = false ∧
    parseRecipeStep (ws ["1", "STEAM", "FIXED", "99.0", "0.0", "0", "6", "TIME", "1200", "Y"]) = some (1, some { steam with fan := 6 }) ∧
    parseRecipeStep (ws ["1", "GRILL", "FIXED", "99.0", "0.0", "0", "2", "TIME", "1200", "Y"]) = some (1, none) := by decide
/-- A RECIPE-STEP that is refused without effect. -/
theorem witness_refusal_step : exec (Verb.recipeStep.command (ws ["1", "STEAM", "FIXED", "99.0", "0.0", "0", "6", "TIME", "1200", "Y"])) (loadingStew 2) =
    .next (after (.recipeStep (ws ["1", "STEAM", "FIXED", "99.0", "0.0", "0", "6", "TIME", "1200", "Y"])) (loadingStew 2)) ∧
    (after (.recipeStep (ws ["1", "STEAM", "FIXED", "99.0", "0.0", "0", "6", "TIME", "1200", "Y"])) (loadingStew 2)).host.inHand =
      some (.no (.verb .recipeStep) .range []) ∧ Reason.range ≠ .sequence ∧ Reason.range ≠ .stale ∧ Reason.range ≠ .busy :=
  ⟨rfl, by decide, by decide, by decide, by decide⟩

/-- A load that replaces the pinned revision 4 of recipe 7. -/
def cakeLoad : Load := { number := 7, head := { cake with revision := 5, steps := [] }, count := 1, next := 1, deadline := 200 }

def loadingCake : State := { cooking with lib := { cooking.lib with load := some cakeLoad, free := 1597, reserved := 1 } }

theorem witness_install : Listening (loadingStew 1) ∧ (loadingStew 1).lib.load = some (stewLoad 1) ∧
    parseRecipeStep (stewStep "1") = some ((stewLoad 1).next, some steam) ∧ stepOk (stewLoad 1).head.probe steam = true ∧
    (stewLoad 1).count ≤ (stewLoad 1).next ∧ entryFor (loadingStew 1).lib.index 8 = none :=
  ⟨⟨rfl, rfl, rfl, rfl⟩, by decide, by decide, by decide, by decide, by decide⟩
theorem witness_install_retires : Listening loadingCake ∧ loadingCake.lib.load = some cakeLoad ∧
    entryFor loadingCake.lib.index 7 = some { cakeEntry with pins := 1 } ∧ cakeEntry.cur.revision < cakeLoad.head.revision ∧
    cakeLoad.count ≤ cakeLoad.next ∧ stepOk cakeLoad.head.probe steam = true ∧ cakeEntry.retired = none :=
  ⟨⟨rfl, rfl, rfl, rfl⟩, by decide, by decide, by decide, by decide, by decide, by decide⟩
theorem witness_install_others : entryFor (stocked base).lib.index 7 = some cakeEntry ∧
    cakeEntry.pins = 0 ∧ cakeEntry.cur.revision < cakeLoad.head.revision ∧ ({ cakeLoad.head with revision := 4 } : Revision).revision ≤ cakeEntry.cur.revision ∧
    0 < ({ cakeEntry with pins := 1 } : Entry).pins ∧ ({ cakeEntry with pins := 1, retired := some { rev := cake, pins := 1 } } : Entry).retired ≠ none := by
  decide
theorem witness_withdraw : Listening (stocked base) ∧ number "7".toList = some cakeEntry.number ∧ entryFor (stocked base).lib.index 7 = some cakeEntry ∧
    cakeEntry.withdrawn = false ∧ cakeEntry.allPins = 0 ∧ 0 < ({ cakeEntry with pins := 1 } : Entry).allPins ∧
    entryFor cooking.lib.index 7 = some { cakeEntry with pins := 1 } := ⟨⟨rfl, rfl, rfl, rfl⟩, by decide, by decide, by decide, by decide, by decide, by decide⟩
theorem witness_set_quick : number "1".toList = some ((0 : Fin 15).val + 1) ∧ number "15".toList = some ((14 : Fin 15).val + 1) ∧
    number "999".toList = some 999 := by decide

def recipeSlot : Slot :=
  { header := { state := .verified, kind := .recipes, target := 0, revision := 1, length := 4, crc := 0 }, fill := 4, computed := none, users := 0 }

theorem witness_import : Listening (withSlot recipeSlot base) ∧ NamesFour "1".toList 0 ∧ (withSlot recipeSlot base).dist.slots[0].header.state = .verified ∧
    (withSlot recipeSlot base).dist.slots[0].header.kind = .recipes ∧ base.lib.load = none ∧ base.lib.job = none :=
  ⟨⟨rfl, rfl, rfl, rfl⟩, by unfold NamesFour; decide, by decide, by decide, rfl, rfl⟩

/-- R197: a set of one record, recipe 7 revision 1, of 53 bytes: its head, and the step `steam`. -/
def setBytes : List Byte :=
  [0x00, 0x01, 0x00, 0x35, 0x00, 0x07, 0x00, 0x01] ++ ("Stew".toList.map (fun c => BitVec.ofNat 8 c.toNat)) ++ List.replicate 20 0x00 ++
    [0x01, 0x00, 0x00, 0x00, 0x01] ++
    [0x03, 0x01, 0x03, 0xDE, 0x00, 0x00, 0x00, 0x02, 0x01, 0x04, 0xB0, 0x00, 0x00, 0x00, 0x00, 0x04, 0xB0, 0x01]

def stewRecord : BundleRecord := { number := 7, rev := { stew with steps := [steam] } }

theorem witness_set : readSet setBytes = .ok [stewRecord] := by rfl

def startedImport : Import := { slot := 0, rest := none, installed := 0, stale := 0, busy := 0 }

/-- The import of slot 1, whose staging bytes hold that set, is about to be validated. -/
def validating : State :=
  let s := withSlot { recipeSlot with header := { recipeSlot.header with length := 55 }, users := 1 } base
  { s with lib := { s.lib with job := some startedImport }, store := { s.store with staging := Memory.writeBytes [] 0 setBytes } }

theorem witness_import_validation : validating.phase ≠ .off ∧ validating.lib.job = some startedImport ∧ startedImport.rest = none ∧
    validating.store.stagingBytes 0 0 validating.dist.slots[0].header.length = setBytes ∧ reserveWalk validating.lib 1 0 0 [stewRecord] = .ok 1 :=
  ⟨by decide, rfl, rfl, by decide, rfl⟩
theorem witness_import_bad_set : readSet [0xFF, 0xFF] = .error (1, .range) := by rfl
theorem witness_import_full : reserveWalk { validating.lib with free := 0 } 1 0 0 [stewRecord] = .error 1 := by rfl
theorem witness_import_record : importing.phase ≠ .off ∧ importing.lib.job = some cakeImport ∧
    cakeImport.rest = some ({ number := 7, rev := cake } :: []) ∧ entryFor importing.lib.index 7 = none ∧
    [stewRecord] ≠ [] ∧ ({ stewRecord with number := 7 } : BundleRecord).rev.revision ≤ cakeEntry.cur.revision := by decide
theorem witness_import_entries : entryFor (stocked importing).lib.index 7 = some cakeEntry ∧ (stocked importing).lib.job = some cakeImport ∧
    cakeEntry.cur.revision < ({ cake with revision := 5 } : Revision).revision ∧ cake.revision ≤ cakeEntry.cur.revision := by decide

/-! ## Run Engine -/

theorem witness_run_start : Listening (stocked ready) ∧ NamesBay "1".toList 0 ∧ number "7".toList = some 7 ∧ runCheck (stocked ready) 0 7 = .ok cakeEntry ∧
    (stocked ready).reg[0].power = .on ∧ runCheck ((stocked ready).setReg 0 (fun r => { r with power := .standby })) 0 7 = .ok cakeEntry :=
  ⟨⟨rfl, rfl, rfl, rfl⟩, by unfold NamesBay; decide, by decide, rfl, by decide, rfl⟩
theorem witness_run_ids : 1 ≤ base.runs.nextId ∧ base.runs.nextId ≤ 255 ∧ cooking.runs.runs[0] = some bakeRun := by decide

/-- The run on bay 1 with every one of its deadlines at 100 s. -/
def dueRun : Run :=
  { bakeRun with wakeDue := some 100, prompt := some (false, 100), graceDue := some 100, runawayDue := some 100, maxDue := some 9000 }

def dueCooking : State := cooking.setRun 0 (fun _ => dueRun)

theorem witness_run_deadlines : Listening dueCooking ∧ dueCooking.runs.runs[0] = some dueRun ∧ dueRun.state.final = false ∧ dueRun.state = .running ∧
    100 ≤ dueCooking.now / 1000 ∧ 9000 ≤ dueRun.elapsed.read dueCooking.now := ⟨⟨rfl, rfl, rfl, rfl⟩, by decide, by decide, by decide, by decide, by decide⟩

/-- The run prompting after its first step. -/
def promptRun2 : Run := { bakeRun with state := .prompting, prompt := some (false, 500) }

/-- A record of an oven that is ON, its door closed, showing the STEP of run 1. -/
def baking : Report := { correct calm with stepId := 1 }

theorem witness_steps : bakeRun.state.final = false ∧ bakeRun.step = some bake ∧ bakeRun.accepted = true ∧ baking.stepId = bakeRun.id ∧
    baking.power = .on ∧ baking.doorOpen = false ∧ ({ baking with stepId := 0 } : Report).stepId ≠ bakeRun.id ∧
    cooking.reg[0].state = .ready ∧ cooking.line.bays[0].queue.length < 6 ∧ bake.prompt = false ∧
    bakeRun.stepIndex < bakeRun.rev.steps.length ∧ ({ bakeRun with stepIndex := 2 } : Run).rev.steps.length ≤ 2 ∧
    stepOver bakeRun bake none 600 691000 = true ∧ stepOver bakeRun bake none 600 690999 = false := by decide
/-- Bay 1 in STANDBY. -/
def asleep (s : State) : State := s.setReg 0 (fun r => { r with power := .standby })

/-- A record in STANDBY of a bay with a run, a cleaning or a transfer. -/
theorem witness_standby : ({ baking with power := .standby } : Report).power = .standby ∧ bakeRun.wakeDue = none ∧ dueRun.wakeDue.isSome = true ∧
    (asleep cooking).reg[0].state = .ready ∧ (asleep cooking).reg[0].power = .standby ∧ (asleep cooking).line.bays[0].queue.length < 6 ∧
    lightClean.state ≠ .requested ∧ (asleep cleaning).line.bays[0].queue.length < 6 ∧ transferring1.line.bays[0].grace = none ∧
    applying1.line.bays[0].grace ≠ none ∧ channelOf (asleep transferring1) 0 = some 0 := by decide
theorem witness_step_orders : bakeRun.orderedId = some 1 ∧ ({ bakeRun with accepted := false, state := .starting } : Run).reorder = false ∧
    ({ bakeRun with accepted := false, reorder := true } : Run).reorder = true ∧ ({ bakeRun with accepted := false } : Run).accepted = false := by decide
theorem witness_doors : ({ bakeRun with state := .starting } : Run).state = .starting ∧ bakeRun.state = .running ∧
    ({ bakeRun with state := .paused, resume := .starting } : Run).resume ≠ .running ∧
    ({ bakeRun with state := .paused, resume := .running, accepted := false } : Run).accepted = false ∧
    (let s := cooking.setRun 0 (fun r => { r with state := .paused, resume := .running, pausedAt := 95 })
     s.runs.runs[0] = some { bakeRun with state := .paused, resume := .running, pausedAt := 95 } ∧ baking.doorOpen = false) ∧
    ({ promptRun2 with prompt := some (true, 500) } : Run).prompt = some (true, 500) ∧ promptRun2.state = .prompting := by decide
theorem witness_runaway : bakeRun.state ≠ .starting ∧ bakeRun.started.isSome = true ∧ bakeRun.setpoint + 300 < 2101 ∧ (2100 : Int) ≤ bakeRun.setpoint + 300 ∧
    bakeRun.runawaySince = none ∧ ({ bakeRun with runawaySince := some 5 } : Run).runawaySince ≠ none ∧ ({ bakeRun with started := none } : Run).started = none := by
  decide
theorem witness_probe_loss : effectiveCore [] = none ∧ effectiveCore [-201, 1301] = none ∧ effectiveCore [-200, 1300] = some (-200) ∧
    (∀ secs, ({ bake with fin := .core 700 } : Step).fin ≠ .time secs) ∧ bakeRun.probeLost = false :=
  ⟨by decide, by decide, by decide, by intro secs; simp, by decide⟩
theorem witness_panel : runCheck base 0 base.lib.quick[(0 : Fin 15)] = .error .state ∧ runCheck ready 0 ready.lib.quick[(14 : Fin 15)] = .error .absent := by
  exact ⟨rfl, rfl⟩

/-- Recipe 7 in the first place of the quick table. -/
def quickCake : State := { stocked ready with lib := { (stocked ready).lib with quick := upd base.lib.quick 0 (fun _ => 7) } }

theorem witness_panel_taken : runCheck quickCake 0 quickCake.lib.quick[(0 : Fin 15)] = .ok cakeEntry ∧ quickCake.reg[0].power = .on ∧
    quickCake.reg[0].state ≠ .empty ∧ quickCake.reg[0].state ≠ .settling ∧ quickCake.line.bays[0].queue.length < 5 ∧
    runCheck (quickCake.setReg 0 (fun r => { r with power := .standby })) 0 7 = .ok cakeEntry := ⟨rfl, by decide, by decide, by decide, by decide, rfl⟩

/-- The run prompting after its step `k` of 2. -/
def promptRun (k : Nat) : Run := { bakeRun with state := .prompting, prompt := some (false, 500), stepIndex := k }

theorem witness_prompt_done : (cooking.setRun 0 (fun _ => promptRun 1)).runs.runs[0] = some (promptRun 1) ∧ (promptRun 1).state = .prompting ∧
    (promptRun 1).stepIndex < (promptRun 1).rev.steps.length ∧ (promptRun 2).rev.steps.length ≤ (promptRun 2).stepIndex ∧
    ({ bakeRun with state := .done } : Run).state.final = true := by decide
theorem witness_door_grace : Listening base ∧ number "29".toList = some 29 ∧ number "30".toList = some 30 ∧ number "900".toList = some 900 ∧
    number "901".toList = some 901 ∧ cooking.runs.runs[0] = some bakeRun ∧ lightClean.paused = false ∧
    ({ lightClean with paused := true } : CleanRec).paused = true ∧ ({ baking with doorOpen := true } : Report).doorOpen = true ∧ baking.power = .on ∧
    lightClean.state ≠ .requested ∧ ({ bakeRun with state := .paused, graceDue := some 200 } : Run).state = .paused :=
  ⟨listens, by decide, by decide, by decide, by decide, by decide, rfl, rfl, rfl, rfl, by decide, rfl⟩

/-- Bay 1 with this entry of recipe 7 in the library. -/
def offered (e : Entry) : State := { ready with lib := { ready.lib with index := [e] } }

theorem witness_claims : Listening ready ∧ NamesBay "1".toList 0 ∧ number "7".toList = some 7 ∧
    wordField [Program.rinse, .light, .medium, .strong] Program.word "STRONG".toList = some (some .strong) ∧ base.reg[0].state ≠ .ready ∧
    ready.reg[0].state = .ready ∧ ready.reg[0].presence = .present ∧ (ready.setReg 0 (fun r => { r with power := .off })).reg[0].power = .off ∧
    ready.reg[0].power ≠ .off ∧ ready.mon.bays[0].hold = .nothing ∧ (ready.setMon 0 (fun m => { m with hold := .automation })).mon.bays[0].hold ≠ .nothing ∧
    cooking.reg[0].activity ≠ .nothing ∧ ready.reg[0].activity = .nothing :=
  ⟨⟨rfl, rfl, rfl, rfl⟩, by unfold NamesBay; decide, by decide, by decide, by decide, by decide, by decide, by decide, by decide, by decide, by decide, by decide,
    by decide⟩
/-- A STRONG cleaning in soft water needs 3 doses. -/
theorem witness_claim_doses : ready.reg[0].commission.map Commission.prov = some kitchen.prov ∧ kitchen.prov.water ≠ .hard ∧
    (ready.setClean 0 (fun c => { c with hygiene := { c.hygiene with detergent := 2 } })).clean[0].hygiene.detergent < 3 ∧
    ¬ (ready.setClean 0 (fun c => { c with hygiene := { c.hygiene with detergent := 3 } })).clean[0].hygiene.detergent < 3 ∧
    cleanCheck (ready.setClean 0 (fun c => { c with hygiene := { c.hygiene with detergent := 3 } })) 0 .strong = none := by decide
theorem witness_claim_recipe : (1250 : Nat) ≤ 1250 ∧ ready.clean[0].hygiene.rinseOwed = false ∧ ready.clean[0].hygiene.soil < 1250 ∧
    entryFor ready.lib.index 7 = none ∧ entryFor (offered { cakeEntry with withdrawn := true }).lib.index 7 = some { cakeEntry with withdrawn := true } ∧
    ready.reg[0].identity = some oven ∧ ready.reg[0].commission = some kitchen ∧
    (kitchen.win1.base ≤ 7 ∧ 7 ≤ kitchen.win1.limit ∧ ¬ (kitchen.win1.base = 0 ∧ kitchen.win1.limit = 0)) ∧ kitchen.win2.base = 0 ∧ kitchen.win2.limit = 0 ∧
    oven.firmware < ({ cake with minFirmware := 204 } : Revision).minFirmware ∧ cake.minFirmware ≤ oven.firmware ∧
    ({ oven with points := 0 } : Identity).points = 0 ∧ 1 ≤ oven.points ∧ cake.probe = false ∧ runCheck (offered cakeEntry) 0 7 = .ok cakeEntry :=
  ⟨by decide, by decide, by decide, by decide, by decide, by decide, by decide, by decide, by decide, by decide, by decide, by decide, by decide, by decide,
    by decide, rfl⟩

/-! ## Probe arithmetic -/

/-- (61.5 - 60.0) °C over 1000 ms is 15 tenths and seconds: k = 15. -/
theorem witness_credit : (15 : Nat) ≤ 1000000 ∧ (600 : Int) ≤ 615 ∧ ((15 : Nat) : Int) * 1000 ≤ (615 - 600) * (1000 : Nat) ∧
    ((615 : Int) - 600) * (1000 : Nat) < (15 + 1 : Int) * 1000 ∧ (0 : Nat) + 15 ≤ 1000000 ∧ (599 : Int) < 600 := by decide
theorem witness_rate : (10 : Int) ≤ 18 ∧ 8 * (1 : Int) ≤ 18 - 10 ∧ (18 : Int) - 10 < 8 * 1 + 8 ∧ (2 : Int) ≤ 10 ∧ (2 : Int) - 10 ≤ 8 * (-1) ∧
    8 * (-1 : Int) - 8 < 2 - 10 ∧ (3 : Int) - 10 ≤ 8 * 0 ∧ 8 * (0 : Int) - 8 < 3 - 10 := by decide
/-- A core of 60.4 °C and a delta of 30.0 °C, and one of 60.5 °C: 90.0 °C, and 91.0 °C. -/
theorem witness_delta : (300 : Int) ≤ min 1800 2500 ∧ 10 * (90 : Int) ≤ 604 + 300 + 5 ∧ (604 : Int) + 300 + 5 < 10 * 90 + 10 ∧ 10 * (91 : Int) ≤ 605 + 300 + 5 ∧
    (605 : Int) + 300 + 5 < 10 * 91 + 10 ∧ (0 : Int) + 300 ≤ 300 ∧ (min 1809 2500 / 10 : Int) * 10 ≤ 1500 + 300 ∧
    ((909 : Int) - 900).natAbs < 10 ∧ 10 ≤ ((910 : Int) - 900).natAbs := by decide
/-- 10.0 °C to go at 0.033 °C a second is 304 s; 100 tenths and seconds to go at 1.5 °C above the base is 7 s. -/
theorem witness_estimate : (600 : Int) < 700 ∧ (0 : Int) < 33 ∧ ((700 : Int) - 600) * 100 ≤ (304 : Nat) * 33 ∧ ((304 : Nat) : Int) * 33 < (700 - 600) * 100 + 33 ∧
    corePart 600 700 (some 33) = some 304 ∧ (∀ r : Int, some (0 : Int) = some r → r ≤ 0) ∧ (700 : Int) ≤ 700 ∧ (200 : Nat) < 300 ∧ (600 : Int) < 615 ∧
    ((300 : Nat) : Int) - (200 : Nat) ≤ (7 : Nat) * (615 - 600) ∧ ((7 : Nat) : Int) * (615 - 600) < (300 : Nat) - (200 : Nat) + (615 - 600) ∧
    holdPart 615 600 200 300 = some 7 ∧ (600 : Int) ≤ 600 ∧ (300 : Nat) ≤ 300 :=
  ⟨by decide, by decide, by decide, by decide, by decide, fun r h => by cases h; decide, by decide, by decide, by decide, by decide, by decide, by decide, by decide,
    by decide⟩
theorem witness_probe_call : cooking.runs.runs[0] = some bakeRun ∧ effectiveCore [615, 700] = some 615 ∧ bakeRun.sample = none ∧ bake.control = .fixed ∧
    ({ bake with control := .delta } : Step).control = .delta ∧ cooking.reg[0].state = .ready ∧ cooking.line.bays[0].queue.length < 6 ∧
    10 ≤ (deltaSetpoint 615 0 1800 2500 - bakeRun.setpoint).natAbs := by decide
/-- The run on bay 1 with a previous core sample of this time. -/
def sampled (time : Nat) : Run := { bakeRun with sample := some { core := 610, time := time } }

/-- The interval at its two bounds and beyond them, in a step that holds at the core, before and after the core target was reached. -/
theorem witness_probe_interval : (cooking.setRun 0 (fun _ => sampled 99801)).runs.runs[0] = some (sampled 99801) ∧
    (sampled 99801).sample = some { core := 610, time := 99801 } ∧ cooking.now - 99801 < 200 ∧ cooking.now - 99800 = 200 ∧
    cooking.now - 90000 = 10000 ∧ 10000 < cooking.now - 89999 ∧ ({ bake with fin := .coreHold 615 600 300 } : Step).fin = .coreHold 615 600 300 ∧
    (sampled 90000).coreReached = none ∧ ({ bakeRun with coreReached := some 95 } : Run).coreReached ≠ none ∧ (615 : Int) ≤ 615 ∧
    ¬ (615 : Int) ≤ 614 := by decide
/-- 0.1 °C over 3000 ms is 33 thousandths of a degree a second, up or down. -/
theorem witness_sample : (0 : Nat) < 3000 ∧ (0 : Int) ≤ (501 - 500) * 100000 ∧ (33 : Int) * (3000 : Nat) ≤ (501 - 500) * 100000 ∧
    ((501 : Int) - 500) * 100000 < (33 + 1) * (3000 : Nat) ∧ ((500 : Int) - 501) * 100000 ≤ 0 ∧ ((500 : Int) - 501) * 100000 ≤ -33 * (3000 : Nat) ∧
    ((-33 : Int) - 1) * (3000 : Nat) < (500 - 501) * 100000 := by decide
theorem witness_soil : ({ bakeRun with started := some 100, ended := some 161, pauseTotal := 0 } : Run).ended = some 161 ∧
    60 * 2 < 161 - 100 - 0 + 60 ∧ 161 - 100 - 0 ≤ 60 * 2 ∧ ({ bakeRun with started := none } : Run).started = none := by decide

/-! ## Heat Share Allocator -/

theorem witness_outside : heatClassOf base 0 = none ∧ ready.heat.bays[0].sent ≠ some (recompute ready).heat.bays[0].allowance ∧
    ready.reg[0].state ≠ .empty ∧ ready.reg[0].state ≠ .settling ∧ ready.line.bays[0].queue.length < 6 := by decide
theorem witness_settings : Listening base ∧ powerField "4.9".toList = some 49 ∧ powerField "400.1".toList = some 4001 ∧
    powerField "5.0".toList = some 50 ∧ number "4".toList = some 4 ∧ number "240".toList = some 240 ∧ number "241".toList = some 241 :=
  ⟨listens, by decide, by decide, by decide, by decide, by decide, by decide⟩

/-- Bay 1 idle for the whole idle time. -/
def idleBay : State := { (ready.setHeat 0 (fun h => { h with idleRef := some 0, starveDue := some 1800 })) with now := 1800000 }

theorem witness_idle : idleBay.phase = .running ∧ idleBay.heat.bays[0].starveDue = some 1800 ∧ 1800 ≤ idleBay.now / 1000 ∧
    idleBay.heat.bays[0].idleRef = some 0 ∧ 0 + idleBay.heat.idleTime * 60 ≤ idleBay.now / 1000 ∧ standbyFails idleBay 0 = none ∧
    idleBay.line.bays[0].queue = [] := by decide
theorem witness_wake : Listening ready ∧ number "0".toList = some 0 ∧ number "13".toList = some 13 ∧ number "1".toList = some (bayNo 0) ∧
    number "12".toList = some (bayNo 11) ∧ ready.reg[11].state ≠ .ready ∧ ready.reg[0].state = .ready ∧ ready.reg[0].power = .on ∧
    ready.heat.bays[0].standbyRequested = false ∧ ready.line.bays[0].queue.length < 6 :=
  ⟨⟨rfl, rfl, rfl, rfl⟩, by decide, by decide, by decide, by decide, by decide, by decide, by decide, by decide, by decide⟩

/-! ## Cleaning Sequencer -/

theorem witness_clean_start : Listening ready ∧ NamesBay "1".toList 0 ∧
    wordField [Program.rinse, .light, .medium, .strong] Program.word "LIGHT".toList = some (some .light) ∧ cleanCheck ready 0 .light = none ∧
    ready.reg[0].power = .on ∧ ready.clean[0].cabinet = some 600 ∧ (700 : Int) < 701 ∧
    cleanCheck (ready.setReg 0 (fun r => { r with power := .standby })) 0 .light = none :=
  ⟨⟨rfl, rfl, rfl, rfl⟩, by unfold NamesBay; decide, by decide, by decide, by decide, by decide, by decide, by decide⟩

/-- The cleaning on bay 1 with its dose counter at 5. -/
def dosed : State := cleaning.setClean 0 (fun c => { c with baseline := some 5 })

theorem witness_doses : ready.clean[0].baseline = none ∧ dosed.clean[0].baseline = some 5 ∧ (5 : Nat) ≤ 65535 ∧
    0 < (if (5 : Nat) ≤ 4 then 4 - 5 else 65536 + 4 - 5) ∧ (if (5 : Nat) ≤ 5 then 5 - 5 else 65536 + 5 - 5) = 0 ∧ lightClean.dosesSeen + 2 ≤ 65535 ∧
    dosed.clean[0].record = some lightClean ∧ lightClean.state.final = false := by decide
theorem witness_panel_rinse : cleanCheck ready 0 .rinse = none ∧ cleanCheck cooking 0 .rinse = some .busy ∧ cooking.reg[0].state = .ready ∧
    cooking.line.bays[0].queue.length < 5 := by decide
theorem witness_clean_records : dosed.clean[0].baseline = some (correct calm).dose ∧ dosed.clean[0].pendingWindow = none ∧ (correct calm).power = .on ∧
    (correct { calm with power := 0 }).power = .off ∧ lightClean.state = .washing ∧ (3 : Nat) ≠ 0 ∧ lightClean.orderedId = some 3 ∧
    ({ lightClean with accepted := false } : CleanRec).accepted = false ∧ ({ lightClean with state := .requested, wakeDue := some 9 } : CleanRec).wakeDue.isSome = true ∧
    ({ lightClean with paused := true } : CleanRec).complete = false ∧ ({ lightClean with state := .cooling } : CleanRec).state = .cooling ∧
    (correct calm).cabinet ≤ 700 ∧ (correct { calm with cabinet := 701 }).cabinet = 701 := by decide
theorem witness_clean_phase : lightClean.state.isPhase = true ∧ lightClean.duration ≤ lightClean.phaseTime.read 1560000 ∧
    lightClean.phaseTime.read 1559999 < lightClean.duration ∧ ({ lightClean with state := .drying } : CleanRec).state = .drying := by decide

/-- The cleaning with its phase's duration run out. -/
def phaseRun (st : CleanState) (complete : Bool) : CleanRec :=
  { lightClean with state := st, complete := complete, phaseTime := { done := 10000000, since := none } }

theorem witness_phases : (cleaning.setCleanRec 0 (fun _ => phaseRun .washing true)).phase = .running ∧
    (cleaning.setCleanRec 0 (fun _ => phaseRun .washing true)).clean[0].record = some (phaseRun .washing true) ∧
    (cleaning.setCleanRec 0 (fun _ => phaseRun .washing true)).clean[0].pendingWindow = none ∧ (phaseRun .washing true).state.isPhase = true ∧
    (phaseRun .washing true).accepted = true ∧ (phaseRun .washing true).paused = false ∧ (phaseRun .washing true).overrunAt = none ∧
    25 * 60000 ≤ (phaseRun .washing true).phaseTime.read 100000 ∧ (phaseRun .washing true).program = .light ∧
    15 * 60000 ≤ (phaseRun .rinsing true).phaseTime.read 100000 ∧ (phaseRun .rinsing true).forced = none ∧
    ({ phaseRun .rinsing true with forced := some (.aborted, .host) } : CleanRec).forced ≠ none ∧ cleaning.reg[0].state = .ready ∧
    cleaning.line.bays[0].held = [] ∧ cleaning.line.bays[0].queue.length < 6 ∧
    (phaseRun .drying false).complete = false ∧ (phaseRun .drying false).state.isPhase = true ∧ (phaseRun .drying true).complete = true ∧
    (phaseRun .drying true).state.isPhase = true ∧ 8 * 60000 ≤ (phaseRun .drying true).phaseTime.read 100000 := by decide
theorem witness_overrun : ({ phaseRun .washing false with overrunAt := some 10000000 } : CleanRec).overrunAt = some 10000000 ∧
    10000000 ≤ (phaseRun .drying false).phaseTime.read 100000 := by decide
theorem witness_clean_ends : Listening cleaning ∧ cleaning.clean[0].record = some lightClean ∧ lightClean.state.final = false ∧
    cleaning.clean[0].pendingWindow = none ∧ lightClean.state = .washing ∧ NamesBay "1".toList 0 ∧
    ({ lightClean with state := .requested, wakeDue := some 100 } : CleanRec).wakeDue = some 100 ∧ 100 ≤ cleaning.now / 1000 ∧
    1800000 ≤ (Stopwatch.read { done := 1800000, since := none } cleaning.now) ∧
    ({ lightClean with state := .rinsing, paused := true, graceDue := some 100 } : CleanRec).graceDue = some 100 :=
  ⟨⟨rfl, rfl, rfl, rfl⟩, by decide, by decide, by decide, by decide, by unfold NamesBay; decide, by decide, by decide, by decide, by decide⟩
theorem witness_detergent : Listening ready ∧ NamesBay "1".toList 0 ∧ number "250".toList = some 250 ∧ number "251".toList = some 251 :=
  ⟨⟨rfl, rfl, rfl, rfl⟩, by unfold NamesBay; decide, by decide, by decide⟩

/-- Bay 1 with a LIGHT window cleaning pending from this soil on. -/
def waitingClean (threshold : Nat) (s : State) : State :=
  s.setClean 0 (fun c => { c with pendingWindow := some { program := .light, entry := 0, threshold := threshold } })

theorem witness_retry : (waitingClean 0 ready).clean[0].pendingWindow = some { program := .light, entry := 0, threshold := 0 } ∧
    0 ≤ (waitingClean 0 ready).clean[0].hygiene.soil ∧ (waitingClean 1 ready).clean[0].hygiene.soil < 1 ∧ cleanCheck (waitingClean 0 ready) 0 .light = none ∧
    cleanCheck (waitingClean 0 cooking) 0 .light ≠ none ∧ ready.clean[0].pendingWindow = none ∧ ready.reg[0].state = .ready ∧
    ready.mon.bays[0].hold = .nothing ∧ ready.reg[0].activity = .nothing ∧ ready.reg[0].power = .on ∧ (asleep ready).reg[0].power ≠ .on ∧
    ready.reg[0].presence = .present ∧ cleanCheck (takePower 0 .on (asleep (waitingClean 0 ready))) 0 .light ≠ some .detergent ∧
    (∀ c : Fin 4, ready.dist.channels[c].progress[0] ≠ .pending ∧ ready.dist.channels[c].progress[0] ≠ .deferred) := by decide

theorem witness_claimable : (let s := targeted .deferred ready
    let x := s.dist.channels[0]
    x.state = .running ∧ x.current = none ∧ x.masked = false ∧ x.progress[0] = .deferred ∧ x.windowRequired = false ∧
      s.reg[0].identity.map Identity.model = some s.dist.slots[x.slot].header.target ∧
      (∀ d : BayId, d ≠ 0 → x.progress[d] ≠ .pending ∧ x.progress[d] ≠ .deferred) ∧
      (∀ e : Fin 4, e < 0 → ¬ (s.dist.channels[e].progress[0] = .pending ∨ s.dist.channels[e].progress[0] = .deferred)) ∧ s.reg[0].power = .on ∧
      (asleep s).reg[0].power ≠ .on) := by decide
/-- Channel 1 claims bay 1 at its release or its change to ON, and channel 2, whose entry waits too, finds it BUSY. -/
theorem witness_claimed_first : (let s := targetedTwice .pending ready
    let x := s.dist.channels[1]
    s.dist.channels[0].progress[0] = .pending ∧ (0 : Fin 4) < 1 ∧ x.state = .running ∧ x.current = none ∧ x.masked = false ∧ x.progress[0] = .pending ∧
      x.windowRequired = false ∧ s.reg[0].identity.map Identity.model = some s.dist.slots[x.slot].header.target ∧
      (∀ d : BayId, d ≠ 0 → x.progress[d] ≠ .pending ∧ x.progress[d] ≠ .deferred)) := by decide
/-- A bay that is BUSY when its release is handed on, with an entry and a window cleaning that wait. -/
theorem witness_busy_release : (let s := waitingClean 0 (targeted .pending cooking)
    s.reg[0].state = .ready ∧ s.mon.bays[0].hold = .nothing ∧ s.reg[0].power ≠ .off ∧ s.reg[0].activity ≠ .nothing ∧
      s.reg[0].identity.map Identity.model = some s.dist.slots[s.dist.channels[0].slot].header.target ∧ s.dist.channels[0].progress[0] = .pending ∧
      s.clean[0].pendingWindow = some { program := .light, entry := 0, threshold := 0 } ∧ 0 ≤ s.clean[0].hygiene.soil) := by decide

/-- The run on bay 1 waiting for its oven to wake. -/
def wakingRun : Run := { Run.create 1 7 cake 90 with wakeDue := some 150 }

theorem witness_power_on : (let s := asleep (cooking.setRun 0 (fun _ => wakingRun))
    s.reg[0].power ≠ .on ∧ s.reg[0].activity = .cook ∧ s.runs.runs[0] = some wakingRun ∧ wakingRun.state.final = false ∧ wakingRun.step = some bake ∧
      wakingRun.stepIndex = 1 ∧ wakingRun.orderedId = none ∧ wakingRun.state = .starting ∧ s.reg[0].state = .ready ∧ s.line.bays[0].held = [] ∧
      s.line.bays[0].queue.length < 5) := by decide
theorem witness_power_on_clean : (let c : CleanRec := { CleanRec.create .light .host 50 with wakeDue := some 110 }
    let s := asleep (cleaning.setCleanRec 0 (fun _ => c))
    s.reg[0].activity = .clean ∧ s.clean[0].record = some c ∧ c.state = .requested ∧ c.wakeDue.isSome = true ∧ s.clean[0].cabinet = some 600 ∧
      ({ c with wakeDue := none } : CleanRec).wakeDue = none) := by decide

/-! ## Site Clock and Schedule Table -/

def lastSecond : Calendar := { year := 2024, month := 2, day := 28, hour := 23, minute := 59, second := 59, weekday := 3 }
def leapDay : Calendar := { year := 2024, month := 2, day := 29, hour := 0, minute := 0, second := 0, weekday := 4 }

theorem witness_calendar : calendarOk lastSecond = true ∧ lastSecond.next = some leapDay := by decide
theorem witness_calendar_end : calendarOk { year := 2099, month := 12, day := 31, hour := 23, minute := 59, second := 59, weekday := 4 } = true ∧
    Calendar.next { year := 2099, month := 12, day := 31, hour := 23, minute := 59, second := 59, weekday := 4 } = none := by decide

/-- Sunday 2024-10-27, one second before 03:00 in daylight time, with the European rule. -/
def autumnNight : Backup :=
  { springNight.clock with cal := { year := 2024, month := 10, day := 27, hour := 2, minute := 59, second := 59, weekday := 7 }, inDst := true }

theorem witness_dst_end : autumnNight.cal.next = some { year := 2024, month := 10, day := 27, hour := 3, minute := 0, second := 0, weekday := 7 } ∧
    autumnNight.rule.endMonth = 10 ∧ autumnNight.rule.endNth = 5 ∧ autumnNight.rule.endHour = 3 ∧ daysIn 2024 10 < 27 + 7 ∧
    autumnNight.rule.enabled = true ∧ autumnNight.secondPass = false ∧ autumnNight.valid = true := by decide
theorem witness_set_clock : Listening base ∧ parseClock (ws ["2024", "2", "28", "23", "59", "59", "3", "N"]) = some (lastSecond, some false) ∧
    parseDst (ws ["N", "3", "5", "2", "10", "5", "3"]) = some (some { springNight.clock.rule with enabled := false }) ∧
    dstOk { springNight.clock.rule with enabled := false } = true ∧ base.clock.update.cal.second ≠ 0 := ⟨listens, by decide, by decide, by decide, by decide⟩
theorem witness_dst : (let c : Calendar := { year := 2024, month := 3, day := 31, hour := 2, minute := 0, second := 0, weekday := 7 }
    (springNight.clock.cal.next, daysIn c.year c.month < c.day + 7)) =
      (some { year := 2024, month := 3, day := 31, hour := 2, minute := 0, second := 0, weekday := 7 }, (31 < 31 + 7)) := by rfl
theorem witness_dst_not : base.clock.cal.next = some { base.clock.cal with second := 1 } ∧ base.clock.rule.enabled = false ∧ base.clock.inDst = false ∧
    ({ base.clock with inDst := true } : Backup).inDst = true := by decide
theorem witness_schedule : Listening (windowSet base) ∧
    parseSchedule (ws ["1", "CLEAN", "1", "ANY", "3", "30", "60", "LIGHT", "0", "Y"]) = some (1, some nightly) ∧ 1 = (0 : Fin 24).val + 1 ∧
    entryOk nightly = true ∧ (windowOf (windowSet base) 0).map OpenWindow.closes = some 100 ∧ 100 ≤ base.now / 1000 :=
  ⟨⟨rfl, rfl, rfl, rfl⟩, by decide, by decide, by decide, by decide, by decide⟩

/-- Any day at 03:30:00. -/
def halfPastThree : Calendar := { year := 2024, month := 2, day := 29, hour := 3, minute := 30, second := 0, weekday := 4 }

theorem witness_match : (entrySet ready).sched.entries[(0 : Fin 24)] = some nightly ∧ nightly.enabled = true ∧ windowOpen (entrySet ready) 0 = false ∧
    nightly.names halfPastThree = true ∧ nightly.names leapDay = false ∧ windowOpen (windowSet base) 0 = true ∧
    (entrySet ready).sched.entries[(1 : Fin 24)] = none ∧ nightly.kind ≠ .update := by decide
theorem witness_minute : ({ base.clock with cal := { base.clock.cal with second := 59 } } : Backup).update.cal.second = 0 ∧ base.phase = .running := by decide
theorem witness_window_clean : (0 : Nat) ≤ ready.clean[0].hygiene.soil ∧ ready.clean[0].hygiene.soil < 1 ∧ cleanCheck ready 0 .light = none ∧
    cleanCheck cooking 0 .light = some .busy ∧ cooking.clean[0].pendingWindow = none ∧
    cleanCheck (ready.setMon 0 (fun m => { m with hold := .technician })) 0 .light = some .held ∧
    cleanCheck (ready.setClean 0 (fun c => { c with hygiene := { c.hygiene with detergent := 0 } })) 0 .light = some .detergent ∧
    cleanCheck (ready.setReg 0 (fun r => { r with power := .off })) 0 .light = some .off ∧ cleanCheck base 0 .light = some .state := by decide

theorem witness_closings : windowOf base 0 = none ∧ (windowOf (windowSet base) 0).map OpenWindow.kind = some .clean ∧
    (waitingClean 5 base).clean[0].pendingWindow ≠ none ∧
    (let x := ((targeted .pending ready).setChannel 0 (fun x => { x with windowRequired := true })).dist.channels[0]
     x.state = .running ∧ x.windowRequired = true ∧ x.progress[0] = .pending) ∧
    (targeted .pending ready).dist.channels[0].windowRequired = false := by decide

/-- The CLEAN entry of bay 1 is due within the next twenty minutes. -/
def beforeHand : State :=
  { entrySet ready with clock := { base.clock with valid := true, cal := { halfPastThree with minute := 11 } } }

theorem witness_due : (0 : Fin 24) ∈ dueEntries beforeHand 0 ∧ (0 : Fin 24) ∉ beforeHand.heat.bays[0].due ∧
    dueEntries { beforeHand with clock := { beforeHand.clock with cal := { halfPastThree with minute := 10 } } } 0 = [] := by decide
theorem witness_schedule_clear : number "0".toList = some 0 ∧ number "25".toList = some 25 ∧ number "24".toList = some 24 ∧ 24 = (23 : Fin 24).val + 1 := by
  decide

/-! ## Service Monitor -/

/-- OVEN_FAULT latched on bay 1, its condition true. -/
def faulty : State := ready.setMon 0 (fun m => { m with latches := upd m.latches 3 (fun l => { l with set := true }), conds := upd m.conds 3 (fun _ => true) })

/-- TEMP_RUNAWAY with this setting. -/
def routed (r : CallRoute) (on : Bool) (s : State) : State :=
  { s with mon := { s.mon with settings := upd s.mon.settings EventKind.tempRunaway.slot (fun _ => { severity := 3, route := r, enabled := on }) } }

/-- The call queue full of calls of another kind. -/
def fullCalls (s : State) : State := { s with mon := { s.mon with calls := List.replicate 32 { aCall with kind := .ovenFault } } }

theorem witness_latches : ready.mon.bays[0].latches[EventKind.tempRunaway.slot].set = false ∧ faulty.mon.bays[0].latches[EventKind.ovenFault.slot].set = true ∧
    (settingOf (routed .call false ready) .tempRunaway).enabled = false ∧ (settingOf (routed .notice true ready) .tempRunaway).route = .notice ∧
    (settingOf (routed .call true ready) .tempRunaway).route = .call ∧ callFor (withCall aCall ready) 0 .tempRunaway = some aCall ∧
    callFor ready 0 .tempRunaway = none ∧ ready.mon.calls.length < 32 ∧ 32 ≤ (fullCalls ready).mon.calls.length ∧
    callFor (fullCalls ready) 0 .tempRunaway = none := by decide
theorem witness_rescan : (let s := ready.setMon 0 (fun m => { m with latches := upd m.latches EventKind.tempRunaway.slot (fun l => { l with set := true, owed := true }) })
    let x := s.mon.bays[0].latches[EventKind.tempRunaway.slot]
    x.set = true ∧ x.owed = true ∧ s.mon.calls.length < 32 ∧ callFor s 0 .tempRunaway = none) := by decide
theorem witness_fault_code : (3 : Nat) ≠ 0 ∧ condition ready 0 .ovenFault = false ∧ ready.mon.bays[0].latches[EventKind.ovenFault.slot].set = false ∧
    condition faulty 0 .ovenFault = true ∧ faulty.mon.bays[0].code ≠ 3 ∧
    (let s := withCall { aCall with kind := .ovenFault } faulty
     callFor s 0 .ovenFault = some { aCall with kind := .ovenFault } ∧ callOf s 9 = some { aCall with kind := .ovenFault }) := by decide
theorem witness_arbiter : bestCall (withCall aCall base) = some aCall ∧ freeLane (withCall aCall base) = some 0 ∧ callOf (withCall aCall base) 9 = some aCall ∧
    freeLane (onLane base) = some 1 ∧ bestCall base = none := by decide
theorem witness_mode : ready.mon.bays[0].service ≠ some true ∧ ready.mon.bays[0].hold ≠ .automation ∧ applying ready 0 = false ∧ applying applying1 0 = true ∧
    (ready.setMon 0 (fun m => { m with hold := .automation })).mon.bays[0].hold = .automation ∧ cooking.reg[0].activity = .cook ∧
    (let s := ready.setMon 0 (fun m => { m with hold := .technician, service := some true })
     s.mon.bays[0].service = some true ∧ s.mon.bays[0].hold = .technician) := by decide
theorem witness_mode_jobs : cleaning.reg[0].activity = .clean ∧ cleaning.clean[0].record = some lightClean ∧ lightClean.state.final = false ∧
    applying cleaning 0 = false ∧ transferring1.reg[0].activity = .update ∧ channelOf transferring1 0 = some 0 ∧ applying transferring1 0 = false ∧
    transferring1.dist.channels[0].progress[0] = .transferring ∧ transferring1.mon.bays[0].hold ≠ .automation := by decide

/-- TEMP_RUNAWAY disabled, and latched on bay 1 and on bay 12. -/
def disabledLatch (s : State) : State :=
  let f (m : MonBay) : MonBay := { m with latches := upd m.latches EventKind.tempRunaway.slot (fun l => { l with set := true }) }
  ((routed .notice false s).setMon 0 f).setMon 11 f

theorem witness_enabling : Listening (disabledLatch ready) ∧ kindField "TEMP_RUNAWAY".toList = some (some .tempRunaway) ∧
    (settingOf (disabledLatch ready) .tempRunaway).enabled = false ∧ (disabledLatch ready).mon.bays[0].latches[EventKind.tempRunaway.slot].set = true ∧
    (disabledLatch ready).mon.bays[11].latches[EventKind.tempRunaway.slot].set = true ∧ callFor (disabledLatch ready) 11 .tempRunaway = none ∧
    (disabledLatch ready).mon.calls.length + 11 < 32 ∧ callFor (disabledLatch (withCall aCall ready)) 0 .tempRunaway = some aCall ∧
    32 ≤ (disabledLatch (fullCalls ready)).mon.calls.length ∧ callFor (disabledLatch (fullCalls ready)) 11 .tempRunaway = none ∧
    (settingOf faulty .ovenFault).enabled = true :=
  ⟨⟨rfl, rfl, rfl, rfl⟩, by decide, by decide, by decide, by decide, by decide, by decide, by decide, by decide, by decide, by decide⟩
theorem witness_ack_all : Listening faulty ∧ NamesBay "1".toList 0 ∧ ("ALL".toList : Txt) = "ALL".toList := ⟨⟨rfl, rfl, rfl, rfl⟩, by unfold NamesBay; decide, rfl⟩

theorem witness_events : Listening faulty ∧ kindField "OVEN_FAULT".toList = some (some .ovenFault) ∧ number "1".toList = some 1 ∧ number "3".toList = some 3 ∧
    wordField [CallRoute.notice, .call] CallRoute.word "CALL".toList = some (some .call) ∧ ynField "Y".toList = some (some true) ∧
    NamesBay "1".toList 0 ∧ faulty.mon.bays[0].latches[EventKind.ovenFault.slot].set = true ∧ EventKind.level .ovenFault = true ∧
    condition faulty 0 .ovenFault = true ∧ condition ready 0 .ovenFault = false ∧ ready.mon.bays[0].latches[EventKind.ovenFault.slot].set = false :=
  ⟨⟨rfl, rfl, rfl, rfl⟩, by decide, by decide, by decide, by decide, by decide, by unfold NamesBay; decide, by decide, by decide, by decide, by decide, by decide⟩
theorem witness_dispatch : Listening (onLane base) ∧ callOf (onLane base) dispatchedCall.id = some dispatchedCall ∧ number "9".toList = some dispatchedCall.id ∧
    number "1".toList = some dispatchedCall.number ∧ dispatchedCall.state = .dispatched ∧
    (onLane base).mon.lanes[0] = some { call := 9, due := 90 } ∧ 90 ≤ base.now / 1000 ∧ ({ dispatchedCall with timeouts := 2 } : Call).timeouts + 1 = 3 ∧
    dispatchedCall.timeouts + 1 ≠ 3 := ⟨⟨rfl, rfl, rfl, rfl⟩, by decide, by decide, by decide, by decide, by decide, by decide, by decide, by decide⟩

/-- The call acknowledged at this level, its escalation due. -/
def ackedCall (level : Nat) : Call := { aCall with state := .acknowledged, level := level, deadline := some 100 }

theorem witness_progress : callOf (withCall (ackedCall 1) base) 9 = some (ackedCall 1) ∧ (ackedCall 1).state = .acknowledged ∧ (ackedCall 1).level ≠ 2 ∧
    (ackedCall 2).level = 2 ∧ (9 : Nat) ≤ 65535 := by decide
theorem witness_escalation : (withCall (ackedCall 0) ready).phase = .running ∧ (ackedCall 0).deadline = some 100 ∧ 100 ≤ ready.now / 1000 ∧
    (ackedCall 0).level = 0 ∧ (ackedCall 1).kind = .tempRunaway ∧ ({ ackedCall 1 with kind := .ovenFault } : Call).kind ≠ .tempRunaway ∧
    ({ ackedCall 1 with kind := .ovenFault } : Call).kind ≠ .supplyMismatch := by decide
theorem witness_close (b : BayId) (k : Fin 16) : (withCall aCall base).mon.bays[b].latches[k].owed = false := by
  have h : (withCall aCall base).mon.bays[b] = .initial := table_get 12 _ b.val b.isLt
  rw [h]
  exact congrArg Latch.owed (table_get 16 Latch.initial k.val k.isLt)
/-- A close of a dispatched call, of a level call whose condition is true, and of one whose condition is false. -/
theorem witness_close_effects : callOf (onLane base) 9 = some dispatchedCall ∧ (onLane base).mon.lanes[0] = some { call := 9, due := 90 } ∧
    (∀ z ∈ (onLane base).mon.calls, z.id ≠ dispatchedCall.id → z.state ≠ .waiting) ∧
    (let s := (onLane base)
     let t : State := { s with mon := { s.mon with lanes := upd s.mon.lanes 1 (fun _ => some { call := 5, due := 99 }) } }
     t.mon.lanes[1] = some { call := 5, due := 99 } ∧ (5 : Nat) ≠ dispatchedCall.id) ∧
    (let s := withCall { aCall with kind := .ovenFault } faulty
     callOf s 9 = some { aCall with kind := .ovenFault } ∧ s.mon.bays[0].latches[EventKind.ovenFault.slot].set = true ∧
       condition s 0 .ovenFault = true ∧ s.mon.bays[0].latches[EventKind.ovenFault.slot].owed = false) ∧
    (let s := withCall { aCall with kind := .ovenFault } ready
     callOf s 9 = some { aCall with kind := .ovenFault } ∧ condition s 0 .ovenFault = false) := by decide
theorem witness_take : Listening cooking ∧ NamesBay "1".toList 0 ∧ ynField "N".toList = some (some false) ∧ ynField "Y".toList = some (some true) ∧
    cooking.mon.bays[0].hold ≠ .automation ∧ ready.reg[0].activity = .nothing ∧ cooking.reg[0].activity = .cook ∧ applying cooking 0 = false ∧
    cooking.runs.runs[0] = some bakeRun ∧ bakeRun.state.final = false :=
  ⟨⟨rfl, rfl, rfl, rfl⟩, by unfold NamesBay; decide, by decide, by decide, by decide, by decide, by decide, by decide, by decide, by decide⟩

theorem witness_take_jobs : Listening cleaning ∧ Listening transferring1 ∧ (ready.setMon 0 (fun m => { m with hold := .automation })).mon.bays[0].hold = .automation ∧
    transferring1.reg[0].state = .ready ∧ transferring1.line.bays[0].held = [] ∧ transferring1.line.bays[0].queue.length < 6 ∧
    cleaning.reg[0].activity ≠ .nothing ∧ applying1.reg[0].activity ≠ .nothing ∧ applying applying1 0 = true :=
  ⟨⟨rfl, rfl, rfl, rfl⟩, ⟨rfl, rfl, rfl, rfl⟩, by decide, by decide, by decide, by decide, by decide, by decide, by decide⟩

/-- Bay 1 with this hold. -/
def held (k : HoldKind) (releasePending : Bool) (causes : List Nat) (s : State) : State :=
  s.setMon 0 (fun m => { m with hold := k, releasePending := releasePending, causes := causes })

theorem witness_holds : Listening (held .technician true [] base) ∧ number "0".toList = some 0 ∧ number "13".toList = some 13 ∧
    number "1".toList = some (bayNo 0) ∧ (held .technician true [] base).mon.bays[0].hold = .technician ∧
    (held .technician true [] base).mon.bays[0].releasePending = true ∧ (held .technician false [] base).mon.bays[0].releasePending = false ∧
    base.mon.bays[0].hold = .nothing ∧ (∀ id ∈ (held .automation false [9] base).mon.bays[0].causes, callOf base id = none) ∧
    ∃ id ∈ (held .automation false [9] (withCall aCall base)).mon.bays[0].causes, callOf (withCall aCall base) id ≠ none :=
  ⟨⟨rfl, rfl, rfl, rfl⟩, by decide, by decide, by decide, by decide, by decide, by decide, by decide, by decide, 9, by decide, by decide⟩

/-! ## Update Distributor -/

theorem witness_bundle_open : Listening base ∧ parseOpen (ws ["1", "FIRMWARE", "2", "204", "4", "B63CFBCD"]) = some (1, some (bundle .filling).header) ∧
    1 = (0 : Fin 4).val + 1 ∧ headerRangeOk (bundle .filling).header = true ∧ base.dist.slots[0].header.state = .free ∧
    base.store.stagingWaiting < 8 ∧ (withSlot (bundle .corrupt) base).dist.slots[0].header.state = .corrupt :=
  ⟨listens, by decide, by decide, by decide, by decide, by decide, by decide⟩
theorem witness_bundle_chunk : NamesFour "1".toList 0 ∧ number "0".toList = some (withSlot { bundle .filling with fill := 0 } base).dist.slots[0].fill ∧
    hexBytes "01020304".toList = some [0x01#8, 0x02#8, 0x03#8, 0x04#8] ∧
    (withSlot { bundle .filling with fill := 0 } base).dist.slots[0].header.state = .filling ∧ 0 + 4 ≤ (bundle .filling).header.length :=
  ⟨by unfold NamesFour; decide, by decide, by decide, by decide, by decide⟩
theorem witness_bundle_seal : (withSlot (bundle .filling) base).dist.slots[0].fill = (bundle .filling).header.length ∧
    (withSlot (bundle .sealing) base).dist.slots[0].header.state = .sealing ∧ (bundle .verified).header.state ≠ .sealing ∧ (bundle .verified).users = 0 := by
  decide

/-- Channel 1 in this state over bay 1, not yet begun. -/
def armed (st : ChannelState) : State := (withSlot { bundle .verified with users := 1 } ready).setChannel 0 (fun x => { x with state := st, group := [0] })

theorem witness_channels : Listening (armed .armed) ∧ NamesFour "1".toList 0 ∧ (armed .armed).dist.channels[0].state = .armed ∧
    (armed .running).dist.channels[0].state = .running ∧ base.dist.channels[0].state = .idle ∧
    (armed .armed).dist.slots[0].header.state = .verified ∧ (armed .armed).dist.slots[0].header.kind = .firmware ∧
    bayListField "1,12".toList = some [1, 12] ∧ bayMask [1, 12] = some [0, 11] ∧
    wordField [true, false] modeWord "DEMAND".toList = some (some true) ∧ ynField "N".toList = some (some false) ∧
    (allBays.all (fun b => !applying (armed .running) b)) = true :=
  ⟨⟨rfl, rfl, rfl, rfl⟩, by unfold NamesFour; decide, by decide, by decide, by decide, by decide, by decide, by decide, by decide, by decide, by decide, by decide⟩
/-- Channel 1 armed over bays 1 and 12, both with the oven of bay 1. -/
def armedTwo : State := ((armed .armed).setReg 11 (fun _ => ready.reg[0])).setChannel 0 (fun x => { x with group := [0, 11] })

/-- Bay 1 is claimable, and bay 12 stands behind it; bay 12 alone is claimable where bay 1 is held, and a bay may be masked, misfit, busy or asleep. -/
theorem witness_channel_start : (let x := armedTwo.dist.channels[0]
    let target := armedTwo.dist.slots[x.slot].header.target
    x.state = .armed ∧ x.current = none ∧ (∀ b : BayId, b ∉ x.group → x.progress[b] = .notTarget) ∧ x.masked = false ∧ x.windowRequired = false ∧
      (∀ b ∈ x.group, armedTwo.reg[b].state = .ready ∧ armedTwo.reg[b].identity.map Identity.model = some target ∧
        armedTwo.mon.bays[b].hold = .nothing ∧ armedTwo.reg[b].power = .on ∧ armedTwo.reg[b].activity = .nothing) ∧ (0 : BayId) < 11 ∧
      ¬ (some ({ oven with model := 3 } : Identity).model = some target) ∧
      (armedTwo.setMon 0 (fun m => { m with hold := .technician })).mon.bays[0].hold ≠ .nothing ∧ (asleep armedTwo).reg[0].power ≠ .on ∧
      (armedTwo.setReg 0 (fun r => { r with activity := .cook })).reg[0].activity ≠ .nothing) := by decide
theorem witness_clearing : Listening transferring1 ∧ (∀ b : BayId, applying transferring1 b = false) ∧ transferring1.dist.channels[0].current = some 0 ∧
    transferring1.reg[0].state = .ready ∧ transferring1.line.bays[0].held = [] ∧ transferring1.line.bays[0].queue.length < 5 ∧ applying applying1 0 = true :=
  ⟨⟨rfl, rfl, rfl, rfl⟩, by decide, by decide, by decide, by decide, by decide, by decide⟩
theorem witness_passes : (let s := targeted .pending ready
    let x := s.dist.channels[0]
    x.state = .running ∧ x.current = none ∧ x.masked = false ∧ x.progress[0] = .pending ∧ x.windowRequired = false ∧ s.reg[0].state = .ready ∧
      s.reg[0].identity.map Identity.model = some s.dist.slots[x.slot].header.target ∧ s.mon.bays[0].hold = .nothing ∧ s.reg[0].power = .on ∧
      s.reg[0].activity = .nothing ∧ s.line.bays[0].queue.length < 6 ∧ (asleep s).reg[0].power = .standby ∧
      (s.setReg 0 (fun r => { r with power := .off })).reg[0].power = .off ∧ (targeted .pending cooking).reg[0].activity ≠ .nothing ∧
      (targeted .pending cooking).reg[0].power ≠ .off ∧ (none : Option BayId) ≠ some 0 ∧ (some 11 : Option BayId) ≠ some 0 ∧
      (targeted .pending base).reg[0].state ≠ .ready ∧ ({ oven with model := 3 } : Identity).model ≠ s.dist.slots[x.slot].header.target ∧
      (s.setMon 0 (fun m => { m with hold := .technician })).mon.bays[0].hold ≠ .nothing ∧
      ¬ (transferring1.dist.channels[0].current = none) ∧
      covered (s.setChannel 0 (fun x => { x with windowRequired := true })) .update 0 = false) := by decide

/-- The transfer on bay 1 in this mode, from a slot of this length, at this offset. -/
def flowing (demand : Bool) (length offset : Nat) (s : State) : State :=
  (s.setSlot 0 (fun x => { x with header := { x.header with length := length } })).setChannel 0 (fun x => { x with demand := demand, offset := offset })

/-- 132 bytes go in a block of 128 and one of 4; PACED with a block queued, and DEMAND with its window filled, place none. -/
theorem witness_blocks_placed : mayPlace (flowing false 132 0 transferring1) 0 0 = true ∧ mayPlace (flowing true 132 128 transferring1) 0 0 = true ∧
    mayPlace (flowing true 132 132 transferring1) 0 0 = false ∧ min 128 (132 - 128) = 4 ∧
    mayPlace (flowing false 132 0 (queued [.block 0 [1]] [] transferring1)) 0 0 = false ∧
    mayPlace (flowing true 132 0 (queued [.block 0 [1]] [] (transferring1.setChannel 0 (fun x => { x with window := 1 })))) 0 0 = false ∧
    (flowing true 132 0 transferring1).reg[0].state = .ready := by decide
theorem witness_transfer_deadlines : transferring1.phase = .running ∧ transferring1.dist.channels[0].current = some 0 ∧
    (transferring1.setChannel 0 (fun x => { x with ackDue := some 100000, offerDue := some 100 })).dist.channels[0].ackDue = some 100000 ∧
    100000 ≤ transferring1.now ∧ transferring1.dist.channels[0].misses < 2 ∧ 100 ≤ transferring1.now / 1000 ∧
    applying1.line.bays[0].grace = some 100 ∧ channelOf applying1 0 = some 0 ∧ applying1.dist.channels[0].progress[0] = .applying ∧
    (transferring1.setChannel 0 (fun x => { x with misses := 2 })).dist.channels[0].misses = 2 ∧ transferring1.reg[0].state = .ready ∧
    transferring1.line.bays[0].held = [] ∧ transferring1.line.bays[0].queue.length < 6 := by decide
/-- A transfer that ends with a BLOCK, an APPLY-GO and a HEAT-ALLOW in its queue, of which the last is kept. -/
theorem witness_transfer_ends : (let s := queued [.block 0 [1], .applyGo, .heatAllow 5] [] transferring1
    channelOf s 0 = some 0 ∧ s.reg[0].state = .ready ∧ s.line.bays[0].held = [] ∧
    (s.line.bays[0].queue.filter (fun o => decide (o.body.kind ∉ [OrderKind.block, .applyOffer, .applyGo]))).map Order.body = [.heatAllow 5]) := by decide

/-- The transfer after these offsets: acknowledged up to `acked`, delivered up to `last`. -/
def blocksAt (acked last misses : Nat) : State := transferring1.setChannel 0 (fun x => { x with acked := acked, lastEnd := last, misses := misses })

theorem witness_blocks : channelOf (blocksAt 0 4 0) 0 = some 0 ∧ (0 : Nat) < 4 ∧ (4 : Nat) ≤ (blocksAt 0 4 0).dist.channels[0].lastEnd ∧
    (blocksAt 0 4 0).dist.channels[0].lastEnd < 5 ∧ (3 : Nat) < (blocksAt 4 4 1).dist.channels[0].acked ∧ (blocksAt 4 4 1).dist.channels[0].misses < 2 ∧
    2 ≤ (blocksAt 4 4 2).dist.channels[0].misses ∧ (blocksAt 0 4 0).dist.channels[0].missSince = false ∧
    (blocksAt 0 4 0).dist.channels[0].progress[0] = .transferring ∧ (blocksAt 0 4 0).dist.channels[0].discardTaken = true := by decide
theorem witness_offer : (blocksAt 4 4 0).dist.channels[0].masked = false ∧ (blocksAt 4 4 0).dist.channels[0].acked = 4 ∧
    (blocksAt 4 4 0).dist.slots[0].header.length = 4 ∧ (blocksAt 4 4 0).reg[0].state = .ready ∧ (blocksAt 4 4 0).line.bays[0].queue.length < 6 ∧
    (blocksAt 4 4 0).line.bays[0].held = [] ∧ (applying1.setChannel 0 (fun x => { x with offerDue := some 130 })).dist.channels[0].offerDue ≠ none ∧
    applying1.dist.channels[0].offerDue = none ∧ applying1.line.bays[0].grace.isSome = true ∧ oven.firmware ≠ 204 ∧ baking.power = .on := by decide

end Sys2Proof.Tests
end

/-! The reading of the contacts (R3): what a presence change records, and that it records it for its own bay only. -/

namespace Sys2Proof.Machine

open Sys2Proof

/-! ## The frame of an event -/

theorem pump_sameButSending (s : State) : SameButSending s (pump s) := by
  unfold pump SameButSending
  split <;> rfl

theorem whileOn_of_supplied {s : State} (f : State → State) (h : s.phase ≠ .off) : whileOn f s = pump (f s) := if_neg h

/-! ## One bay's recorded presence -/

/-- From `s` to `t` the recorded presence of bay `b` has become `p`, and that of every other bay is kept. -/
structure RecordsPresence (b : BayId) (p : Presence) (s t : State) : Prop where
  own : t.reg[b].presence = p
  others : ∀ d : BayId, d ≠ b → t.reg[d].presence = s.reg[d].presence

theorem RecordsPresence.keeps {b : BayId} {p : Presence} {s t u : State} (h : RecordsPresence b p s t) (hk : Keeps t u) :
    RecordsPresence b p s u :=
  ⟨(hk.presence b).trans h.own, fun d hd => (hk.presence d).trans (h.others d hd)⟩

theorem RecordsPresence.setReg (b : BayId) {p : Presence} (s : State) (f : RegBay → RegBay) (hf : ∀ r, (f r).presence = p) :
    RecordsPresence b p s (s.setReg b f) where
  own := (congrArg RegBay.presence (upd_same s.reg b f)).trans (hf _)
  others d hd := congrArg RegBay.presence (upd_other s.reg b d f hd)

/-! ## The three presence changes -/

/-- R3: the rule for the new value of a presence change. -/
def changePresence (b : BayId) : Presence → State → State
  | .present => becomePresent b
  | .partly => becomePartial b
  | .absent => becomeAbsent b

theorem becomePresent_records (b : BayId) (s : State) : RecordsPresence b .present s (becomePresent b s) := by
  refine RecordsPresence.keeps ?_ (setCondition_keeps _ _ _ (setBayState_keeps _ _ _ (.refl _)))
  exact .setReg b s _ fun _ => rfl

/-- What R5 and R6 do once the new value is recorded: a teardown where an oven was in use, else the change of state alone. -/
theorem tearDownTo_or_setBayState_keeps (c : Prop) [Decidable c] (b : BayId) (st : BayState) (cause : BayCause) (t : State) :
    Keeps t (if c then tearDownTo b false false st cause t else setBayState b st cause t) := by
  split
  · exact tearDownTo_keeps _ _ _ _ _ (.refl t)
  · exact setBayState_keeps _ _ _ (.refl t)

theorem becomePartial_records (b : BayId) (s : State) : RecordsPresence b .partly s (becomePartial b s) :=
  (RecordsPresence.setReg b s (fun r => { r with presence := .partly }) fun _ => rfl).keeps
    (Keeps.setReg _ _ (fun _ => rfl) (tearDownTo_or_setBayState_keeps _ _ _ _ _))

theorem becomeAbsent_records (b : BayId) (s : State) : RecordsPresence b .absent s (becomeAbsent b s) := by
  refine (RecordsPresence.setReg b s (fun r => { r with presence := .absent }) fun _ => rfl).keeps (setCondition_keeps _ _ _ ?_)
  split
  · exact Keeps.setReg _ _ (fun _ => rfl) (tearDownTo_or_setBayState_keeps _ _ _ _ _)
  · exact heatPower_keeps _ (Keeps.setReg _ _ (fun _ => rfl) (tearDownTo_or_setBayState_keeps _ _ _ _ _))

theorem changePresence_records (b : BayId) (p : Presence) (s : State) : RecordsPresence b p s (changePresence b p s) := by
  cases p with
  | present => exact becomePresent_records b s
  | partly => exact becomePartial_records b s
  | absent => exact becomeAbsent_records b s

theorem changePresence_steady (b : BayId) (p : Presence) (s : State) : Steady s (changePresence b p s) := by
  cases p with
  | present => exact becomePresent_steady b s
  | partly => exact becomePartial_steady b s
  | absent => exact becomeAbsent_steady b s

/-! ## The reading of the contacts -/

theorem readContacts_of_same {b : BayId} {s : State} (h : s.reg[b].presence = s.pins[b].classify) : readContacts b s = s := if_pos h

theorem readContacts_of_changed {b : BayId} {s : State} (h : s.reg[b].presence ≠ s.pins[b].classify) :
    readContacts b s = changePresence b s.pins[b].classify s := by
  refine (if_neg h).trans ?_
  cases s.pins[b].classify <;> rfl

/-- The state with the contacts of bay `b` moved, before they are classified. -/
def movePins (b : BayId) (c : Contacts) (s : State) : State := { s with pins := s.pins.set b c }

theorem movePins_pins_same (b : BayId) (c : Contacts) (s : State) : (movePins b c s).pins[b] = c := upd_same s.pins b fun _ => c

theorem contactsRead_of_same {b : BayId} {c : Contacts} {s : State} (hs : s.phase ≠ .off) (h : s.reg[b].presence = c.classify) :
    contactsRead b c s = pump (movePins b c s) := by
  have hread : readContacts b (movePins b c s) = movePins b c s :=
    readContacts_of_same (by rw [movePins_pins_same]; exact h)
  calc contactsRead b c s
      = pump (readContacts b (movePins b c s)) := whileOn_of_supplied (s := movePins b c s) _ hs
    _ = pump (movePins b c s) := by rw [hread]

theorem contactsRead_of_changed {b : BayId} {c : Contacts} {s : State} (hs : s.phase ≠ .off) (h : s.reg[b].presence ≠ c.classify) :
    contactsRead b c s = pump (changePresence b c.classify (movePins b c s)) := by
  have hread : readContacts b (movePins b c s) = changePresence b (movePins b c s).pins[b].classify (movePins b c s) :=
    readContacts_of_changed (by rw [movePins_pins_same]; exact h)
  calc contactsRead b c s
      = pump (readContacts b (movePins b c s)) := whileOn_of_supplied (s := movePins b c s) _ hs
    _ = pump (changePresence b c.classify (movePins b c s)) := by rw [hread, movePins_pins_same]

/-- R3's table: both contacts closed, one of them, none. -/
theorem classify_eq (lead seat : Bool) : Contacts.classify { lead := lead, seat := seat } =
    if lead && seat then .present else if lead || seat then .partly else .absent := by
  cases lead <;> cases seat <;> rfl

/-- The command for a position of the two contacts reads that position. -/
theorem exec_contacts (b : BayId) (lead seat : Bool) (s : State) :
    exec (if lead && seat then .presencePresent b else if lead || seat then .presencePartial b lead else .presenceAbsent b) s =
      .next (contactsRead b { lead := lead, seat := seat } s) := by
  cases lead <;> cases seat <;> rfl

/-- Settles O18: a change is `changePresence`, which records the new value for its own bay, and nothing after it touches a recorded presence. -/
theorem contactsAreClassified : Obligations.ContactsAreClassified := by
  intro s b lead seat hs v c u
  have hv : Contacts.classify { lead := lead, seat := seat } = v := classify_eq lead seat
  have hc : exec c s = .next (contactsRead b { lead := lead, seat := seat } s) := exec_contacts b lead seat s
  constructor
  · intro hsame
    rw [← hv] at hsame
    exact ⟨_, hc.trans (congrArg _ (contactsRead_of_same hs hsame)), pump_sameButSending u⟩
  · intro hchanged
    have hpump : Keeps (changePresence b v u) (pump (changePresence b v u)) := pump_keeps (.refl _)
    have hrec : RecordsPresence b v u (pump (changePresence b v u)) := (changePresence_records b v u).keeps hpump
    have hpins : (pump (changePresence b v u)).pins = u.pins := hpump.steady.pins.trans (changePresence_steady b v u).pins
    have hread : contactsRead b { lead := lead, seat := seat } s = pump (changePresence b v u) := by
      rw [← hv] at hchanged ⊢
      exact contactsRead_of_changed hs hchanged
    refine ⟨_, hc.trans (congrArg _ hread), hpins, hrec.own, ?_, hrec.others⟩
    clear_value v
    cases v <;> exact pump_sameButSending _

end Sys2Proof.Machine

/-! SUPPORT. A request line taken at once (R186): the state its owner leaves, with the owner's reply in hand. -/

namespace Sys2Proof.Machine

open Sys2Proof

/-- The command of every verb is a request line of that verb. -/
theorem exec_command (v : Verb) (f : List Txt) (s : State) : exec (v.command f) s = .next (request v f s) := by
  cases v <;> rfl

theorem receive_of_listening {owners : Verb → List Txt → State → Served} {s : State} (hs : Listening s) (l : InLine) :
    receive owners l s = takeLine owners false l s := by
  obtain ⟨hphase, hrestarting, hfree, hwaiting⟩ := hs
  simp [receive, deaf, State.loading, hphase, hrestarting, hfree, hwaiting]

/-- R189: a free transmitter takes the reply before any notice, a busy one leaves it in hand. -/
theorem pump_of_inHand (r : Reply) (u : State) : pump { u with host := { u.host with inHand := some r } } = replying r u := by
  cases htx : u.host.tx <;> simp [pump, replying, htx]

/-- What a listening Host Link makes of a request: its owner's state and reply. -/
theorem answered_of_served {v : Verb} {f : List Txt} {s u : State} {r : Reply} (hs : Listening s) (h : serveVerb v f s = (u, r)) :
    Answered v f s r u := by
  have hline : takeLine serveVerb false (.request v f) s = { u with host := { u.host with inHand := some r } } := by
    simp [takeLine, serveLine, h]
  calc exec (v.command f) s
      = .next (pump (receive serveVerb (.request v f) s)) := exec_command v f s
    _ = .next (replying r u) := by rw [receive_of_listening hs, hline, pump_of_inHand]

/-- A request of one field is judged by its owner once the field has its form (R187). -/
theorem withFields_single {α : Type} {v : Verb} {p : Txt → Option α} {owner : α → State → Served} {w : Txt} {a : α} (h : p w = some a)
    (s : State) : withFields v (fld p fun x => fin x) owner [w] s = owner a s := by
  simp [withFields, fld, fin, h]

end Sys2Proof.Machine

/-! The emptying of a schedule entry (R143). -/

namespace Sys2Proof.Machine

open Sys2Proof

/-! ## The number of an entry -/

theorem entryOf_val_succ (n : Fin 24) : entryOf (n.val + 1) = some n := dif_pos (by omega)

theorem entryOf_outside {m : Nat} (h : m = 0 ∨ 24 < m) : entryOf m = none := dif_neg (by omega)

/-! ## The request -/

theorem serveScheduleClear_of_outside {w : Txt} {m : Nat} (hw : number w = some m) (hm : m = 0 ∨ 24 < m) (s : State) :
    serveScheduleClear [w] s = (s, .no (.verb .scheduleClear) .range []) := by
  rw [serveScheduleClear, withFields_single hw, entryOf_outside hm]
  rfl

theorem serveScheduleClear_of_entry {w : Txt} {n : Fin 24} (hw : number w = some (n.val + 1)) (s : State) :
    serveScheduleClear [w] s = (clearEntry n s, .ok .scheduleClear (.num (n.val + 1) :: closedToks s n)) := by
  rw [serveScheduleClear, withFields_single hw, entryOf_val_succ]
  rfl

/-- R143, in order: the window closes, the entry is emptied, its record is removed, and R110 follows. -/
theorem clearEntry_eq (n : Fin 24) (s : State) :
    let closed := closeEntryWindow n "CLEARED" s
    clearEntry n s = lookAheadAll (dropDue n (storeRecord .profile (5000 + n.val) none
      { closed with sched := { closed.sched with entries := closed.sched.entries.set n none } })) := rfl

/-- Settles O49: the owner either refuses the number or carries `clearEntry` out, and a listening Host Link answers with what the owner says. -/
theorem scheduleClearEmptiesAnEntry : Obligations.ScheduleClearEmptiesAnEntry := by
  intro s w m hs hw
  constructor
  · intro hm
    exact answered_of_served hs (serveScheduleClear_of_outside hw hm s)
  · rintro n rfl
    have hanswered : Answered .scheduleClear [w] s _ _ := answered_of_served hs (serveScheduleClear_of_entry hw s)
    rw [clearEntry_eq n s] at hanswered
    exact hanswered

end Sys2Proof.Machine

/-! The end of a hold: a technician's release and the table of HOLD-CLEAR (R163). -/

namespace Sys2Proof.Machine

open Sys2Proof

/-- An answered request is carried out, and leaves its reply in hand. -/
theorem completes_of_answered {v : Verb} {f : List Txt} {s u : State} {r : Reply} {P : State → Prop} (h : Answered v f s r u)
    (hP : P (replying r u)) : Completes (v.command f) s P := ⟨_, h, hP⟩

/-! ## The number of a bay -/

theorem bayOf_bayNo (b : BayId) : bayOf (bayNo b) = some b := dif_pos ⟨Nat.le_add_left 1 b.val, b.isLt⟩

theorem bayOf_outside {n : Nat} (h : n = 0 ∨ 12 < n) : bayOf n = none := dif_neg (by omega)

theorem onBay_bayNo (v : Verb) (b : BayId) (k : BayId → State → Served) (s : State) : onBay v (bayNo b) k s = k b s := by
  rw [onBay, bayOf_bayNo]

theorem onBay_outside {n : Nat} (h : n = 0 ∨ 12 < n) (v : Verb) (k : BayId → State → Served) (s : State) :
    onBay v n k s = refuse v .range s := by
  rw [onBay, bayOf_outside h]

/-! ## The write service beside the other records -/

theorem beginWrite_eq_withStore (s : State) : beginWrite s = { s with store := (beginWrite s).store } := by
  unfold beginWrite
  split <;> rfl

theorem storeRecord_eq_withStore (p : Partition) (pos : Nat) (x : Option StoreRec) (s : State) :
    storeRecord p pos x s = { s with store := (storeRecord p pos x s).store } := beginWrite_eq_withStore _

theorem beginWrite_setMon (b : BayId) (f : MonBay → MonBay) (s : State) : beginWrite (s.setMon b f) = (beginWrite s).setMon b f := by
  simp only [beginWrite, State.setMon_phase, State.setMon_store]
  split <;> rfl

/-- A record write and a change of the Monitor's record of a bay do not see each other. -/
theorem storeRecord_setMon (p : Partition) (pos : Nat) (x : Option StoreRec) (b : BayId) (f : MonBay → MonBay) (s : State) :
    storeRecord p pos x (s.setMon b f) = (storeRecord p pos x s).setMon b f :=
  beginWrite_setMon b f { s with store := _ }

/-! ## The hold of a bay -/

/-- R45: setting a technician hold hands over the HOLD record. -/
theorem setHold_technician (b : BayId) (releasePending : Bool) (s : State) : setHold b .technician releasePending s =
    (storePut (.hold b .technician releasePending) s).setMon b (fun m => { m with hold := .technician, releasePending := releasePending }) := by
  have hbay : ∀ f : MonBay → MonBay, (s.setMon b f).mon.bays[b] = f s.mon.bays[b] := fun f => upd_same s.mon.bays b f
  rw [setHold, storeHold, hbay, storeRecord_setMon]
  rfl

theorem setHold_mon (b : BayId) (k : HoldKind) (releasePending : Bool) (s : State) :
    (setHold b k releasePending s).mon = (s.setMon b (fun m => { m with hold := k, releasePending := releasePending })).mon := by
  simp [setHold, storeHold]

theorem setHold_jobs (b : BayId) (k : HoldKind) (releasePending : Bool) (s : State) :
    (setHold b k releasePending s).reg = s.reg ∧ (setHold b k releasePending s).runs = s.runs ∧
    (setHold b k releasePending s).clean = s.clean ∧ (setHold b k releasePending s).dist = s.dist := by
  simp [setHold, storeHold]

/-- The examination may order STANDBY; it touches no hold and no job. -/
theorem examineStandby_frame (b : BayId) (s : State) :
    (examineStandby b s).mon = s.mon ∧ (examineStandby b s).reg = s.reg ∧ (examineStandby b s).runs = s.runs ∧
    (examineStandby b s).clean = s.clean ∧ (examineStandby b s).dist = s.dist := by
  unfold examineStandby
  split <;> simp

theorem clearHold_bay (b : BayId) (s : State) :
    (clearHold b s).mon.bays[b] = { s.mon.bays[b] with hold := .nothing, releasePending := false, causes := [] } := by
  simp [clearHold, examineStandby_frame, setHold_mon]

/-- R163: clearing a hold does not restart anything. -/
theorem clearHold_jobs (b : BayId) (s : State) :
    (clearHold b s).reg = s.reg ∧ (clearHold b s).runs = s.runs ∧ (clearHold b s).clean = s.clean ∧ (clearHold b s).dist = s.dist := by
  simp [clearHold, examineStandby_frame, setHold_jobs]

/-! ## Which holds may be cleared -/

theorem clearable_of_nothing {s : State} {b : BayId} (h : s.mon.bays[b].hold = .nothing) : clearable s b = false := by
  simp only [clearable, h]

theorem clearable_of_technician {s : State} {b : BayId} (h : s.mon.bays[b].hold = .technician) :
    clearable s b = s.mon.bays[b].releasePending := by
  simp only [clearable, h]

theorem clearable_of_automation {s : State} {b : BayId} (h : s.mon.bays[b].hold = .automation) :
    clearable s b = true ↔ ∀ id ∈ s.mon.bays[b].causes, callOf s id = none := by
  simp only [clearable, h]
  simp

/-! ## The requests -/

theorem serveTechRelease_of_outside {w : Txt} {n : Nat} (hw : number w = some n) (h : n = 0 ∨ 12 < n) (s : State) :
    serveTechRelease [w] s = (s, .no (.verb .techRelease) .range []) := by
  rw [serveTechRelease, withFields_single hw, onBay_outside h]
  rfl

theorem serveTechRelease_of_not_technician {w : Txt} {b : BayId} (hw : number w = some (bayNo b)) {s : State}
    (h : s.mon.bays[b].hold ≠ .technician) : serveTechRelease [w] s = (s, .no (.verb .techRelease) .state []) := by
  rw [serveTechRelease, withFields_single hw, onBay_bayNo, if_neg h]
  rfl

theorem serveTechRelease_of_technician {w : Txt} {b : BayId} (hw : number w = some (bayNo b)) {s : State}
    (h : s.mon.bays[b].hold = .technician) :
    serveTechRelease [w] s = (setHold b .technician true s, .ok .techRelease [bayTok b, wd "PENDING"]) := by
  rw [serveTechRelease, withFields_single hw, onBay_bayNo, if_pos h]
  rfl

theorem serveHoldClear_of_clearable {w : Txt} {b : BayId} (hw : number w = some (bayNo b)) {s : State} (h : clearable s b = true) :
    serveHoldClear [w] s = (clearHold b s, .ok .holdClear [bayTok b]) := by
  rw [serveHoldClear, withFields_single hw, onBay_bayNo, if_pos h]
  rfl

theorem serveHoldClear_of_not_clearable {w : Txt} {b : BayId} (hw : number w = some (bayNo b)) {s : State} (h : ¬ clearable s b = true) :
    serveHoldClear [w] s = (s, .no (.verb .holdClear) .state []) := by
  rw [serveHoldClear, withFields_single hw, onBay_bayNo, if_neg h]
  rfl

/-- A release that is taken changes the bay's record, hands its HOLD record over, and nothing else but the reply in hand. -/
theorem replying_setHold_technician (r : Reply) (b : BayId) (s : State) (h : s.mon.bays[b].hold = .technician) :
    let t := replying r (setHold b .technician true s)
    t.mon.bays[b] = { s.mon.bays[b] with releasePending := true } ∧ HandedOver s t (.hold b .technician true) ∧
      t = { s with mon := t.mon, store := t.store, host := t.host } := by
  have hstore : storePut (.hold b .technician true) s = { s with store := (storePut (.hold b .technician true) s).store } :=
    storeRecord_eq_withStore _ _ _ s
  have hmon : (setHold b .technician true s).mon.bays[b] = { s.mon.bays[b] with hold := .technician, releasePending := true } := by
    simp [setHold_mon]
  refine ⟨?_, ?_, ?_⟩
  · exact hmon.trans (by rw [← h])
  · rw [setHold_technician]
    rfl
  · rw [setHold_technician, hstore]
    rfl

/-- Settles O55: TECH-RELEASE asks only for a technician's hold, HOLD-CLEAR only whether the hold is `clearable`; the five rows of R163's table say
when it is. -/
theorem holdsAreReleasedAndCleared : Obligations.HoldsAreReleasedAndCleared := by
  intro s w n hs hw
  refine ⟨fun hn => answered_of_served hs (serveTechRelease_of_outside hw hn s), ?_⟩
  rintro b rfl m cleared refused
  have hcleared : clearable s b = true → cleared := by
    intro h
    have hbay := clearHold_bay b s
    obtain ⟨hreg, hruns, hclean, hdist⟩ := clearHold_jobs b s
    have hanswered : Answered .holdClear [w] s _ _ := answered_of_served hs (serveHoldClear_of_clearable hw h)
    exact completes_of_answered hanswered ⟨congrArg MonBay.hold hbay, congrArg MonBay.releasePending hbay, congrArg MonBay.causes hbay,
      hreg, hruns, hclean, hdist, rfl⟩
  have hrefused : ¬ clearable s b = true → refused := fun h => answered_of_served hs (serveHoldClear_of_not_clearable hw h)
  refine ⟨fun h => ?_, fun h => ?_, fun h => ?_, fun h hp => ?_, fun h hp => ?_, fun h hgone => ?_, fun h hopen => ?_⟩
  · exact answered_of_served hs (serveTechRelease_of_not_technician hw h)
  · obtain ⟨hbay, hstored, hrest⟩ := replying_setHold_technician (.ok .techRelease [bayTok b, wd "PENDING"]) b s h
    have hanswered : Answered .techRelease [w] s _ _ := answered_of_served hs (serveTechRelease_of_technician hw h)
    exact completes_of_answered hanswered ⟨hbay, hstored, hrest, rfl⟩
  · exact hrefused (by rw [clearable_of_nothing h]; decide)
  · exact hcleared ((clearable_of_technician h).trans hp)
  · exact hrefused (by rw [(clearable_of_technician h).trans hp]; decide)
  · exact hcleared ((clearable_of_automation h).mpr hgone)
  · obtain ⟨id, hid, hcall⟩ := hopen
    exact hrefused fun hc => hcall ((clearable_of_automation h).mp hc id hid)

end Sys2Proof.Machine


/-! SUPPORT. What each command keeps (R3, R141, R192), the invariant of `Bounds`, and the reset state. -/

namespace Sys2Proof.Machine

open Sys2Proof

/-! ## The events that have no lemma of their own yet -/

theorem settleExpires_keeps (b : BayId) {s t : State} (hk : Keeps s t) : Keeps s (settleExpires b t) := by
  unfold settleExpires
  split
  · dsimp only
    split
    · exact Keeps.setReg _ _ (fun _ => rfl) (Keeps.setReg _ _ (fun _ => rfl) hk)
    · exact setBayState_keeps _ _ _ (Keeps.setReg _ _ (fun _ => rfl) hk)
  · exact hk

theorem partialExpires_keeps (b : BayId) {s t : State} (hk : Keeps s t) : Keeps s (partialExpires b t) := by
  unfold partialExpires
  split
  · exact setCondition_keeps _ _ _ (Keeps.setReg _ _ (fun _ => rfl) hk)
  · exact hk

theorem commissionExpires_keeps (b : BayId) {s t : State} (hk : Keeps s t) : Keeps s (commissionExpires b t) := by
  unfold commissionExpires
  split
  · exact abandonTo_keeps b hk
  · exact hk

theorem lostPoll_keeps (b : BayId) {s t : State} (hk : Keeps s t) : Keeps s (lostPoll b t) := by
  unfold lostPoll
  split
  · exact Keeps.setLine _ _ (fun _ hl => ⟨hl.queue, hl.ids, hl.misses⟩) hk
  · exact hk

theorem applyGrace_keeps (b : BayId) {s t : State} (hk : Keeps s t) : Keeps s (applyGrace b t) := by
  unfold applyGrace
  split
  · exact graceExpires_keeps b hk
  · exact hk

theorem loadExpires_keeps {s t : State} (hk : Keeps s t) : Keeps s (loadExpires t) := by
  unfold loadExpires
  split
  · exact abandonLoad_keeps hk
  · exact hk

theorem writeDone_keeps {s t : State} (hk : Keeps s t) : Keeps s (writeDone t) := by
  unfold writeDone
  split
  · exact beginWrite_keeps (Keeps.withStore _ (fun h => Store.wf_perform _ _ h) hk)
  · exact hk

theorem lineArrivesLate_keeps {s t : State} (hk : Keeps s t) : Keeps s (lineArrivesLate t) := by
  unfold lineArrivesLate
  split
  · exact hk
  · exact loseLine_keeps hk

/-! ## Commands that neither start up, nor read contacts, nor end the load -/

/-- A request line, whatever its verb, and a line that no verb names. -/
theorem receive_pump_keeps (l : InLine) (s : State) : Keeps s (pump (receive serveVerb l s)) :=
  pump_keeps (receive_keeps serveVerb (fun v f u => serveVerb_keeps v f (.refl u)) l (.refl s))

theorem exec_keeps {c : Instr} (hread : ¬ ReadsContacts c) (hload : c ≠ .startUpLoadEnd) (s : State) :
    ∃ t, exec c s = .next t ∧ Keeps s t := by
  have event : ∀ {g : State → State}, Keeps s (g s) → Keeps s (whileOn g s) := fun hg => whileOn_keeps _ hg (.refl s)
  cases c with
  | powerOn | resetPin | restartWritesDrained | restartTimeout | powerFailure => exact absurd (.inl trivial) hread
  | presencePresent | presencePartial | presenceAbsent => exact absurd (.inr trivial) hread
  | startUpLoadEnd => exact absurd rfl hload
  | settleTimerExpiry b => exact ⟨_, rfl, event (settleExpires_keeps b (.refl s))⟩
  | partialTimerExpiry b => exact ⟨_, rfl, event (partialExpires_keeps b (.refl s))⟩
  | commissionDeadlineExpiry b => exact ⟨_, rfl, event (commissionExpires_keeps b (.refl s))⟩
  | pollCycleStart => exact ⟨_, rfl, event (startCycle_keeps (.refl s))⟩
  | pollSend => exact ⟨_, rfl, event (sendNext_keeps (.refl s))⟩
  | lostPollDue b => exact ⟨_, rfl, event (lostPoll_keeps b (.refl s))⟩
  | answerWindowClose => exact ⟨_, rfl, event (closeWindow_keeps (.refl s))⟩
  | answerByteGap | answerFrameInvalid => exact ⟨_, rfl, event (spoil_keeps (.refl s))⟩
  | statusRecord r => exact ⟨_, rfl, event (takeStatus_keeps r (.refl s))⟩
  | identityRecord r => exact ⟨_, rfl, event (takeIdentityRecord_keeps r (.refl s))⟩
  | applyGraceExpiry b => exact ⟨_, rfl, event (applyGrace_keeps b (.refl s))⟩
  | storeWriteDone => exact ⟨_, rfl, event (writeDone_keeps (.refl s))⟩
  | loadDeadlineExpiry => exact ⟨_, rfl, event (loadExpires_keeps (.refl s))⟩
  | importValidation => exact ⟨_, rfl, event (validateImport_keeps (.refl s))⟩
  | importRecord => exact ⟨_, rfl, event (importNext_keeps (.refl s))⟩
  | runWakeDeadlineExpiry b => exact ⟨_, rfl, event (runWakeExpires_keeps b (.refl s))⟩
  | maximumTimeDeadlineExpiry b => exact ⟨_, rfl, event (maximumTimeExpires_keeps b (.refl s))⟩
  | promptDeadlineExpiry b => exact ⟨_, rfl, event (promptExpires_keeps b (.refl s))⟩
  | runDoorGraceExpiry b => exact ⟨_, rfl, event (runDoorExpires_keeps b (.refl s))⟩
  | runawayDeadlineExpiry b => exact ⟨_, rfl, event (runawayExpires_keeps b (.refl s))⟩
  | starvationDeadlineExpiry b => exact ⟨_, rfl, event (starvationExpires_keeps b (.refl s))⟩
  | idleDeadlineExpiry b => exact ⟨_, rfl, event (idleExpires_keeps b (.refl s))⟩
  | phaseDurationEnd b => exact ⟨_, rfl, event (phaseDurationEnds_keeps b (.refl s))⟩
  | overrunDeadlineExpiry b => exact ⟨_, rfl, event (overrunExpires_keeps b (.refl s))⟩
  | cleanWakeDeadlineExpiry b => exact ⟨_, rfl, event (cleanWakeExpires_keeps b (.refl s))⟩
  | coolingDeadlineExpiry b => exact ⟨_, rfl, event (coolingExpires_keeps b (.refl s))⟩
  | cleanDoorGraceExpiry b => exact ⟨_, rfl, event (cleanDoorExpires_keeps b (.refl s))⟩
  | clockUpdate => exact ⟨_, rfl, pump_keeps (updateClock_keeps (.refl s))⟩
  | closeDeadlineExpiry n => exact ⟨_, rfl, event (windowExpires_keeps n (.refl s))⟩
  | laneTimerExpiry l => exact ⟨_, rfl, event (laneExpires_keeps l (.refl s))⟩
  | escalationDeadlineExpiry id => exact ⟨_, rfl, event (escalationExpires_keeps id (.refl s))⟩
  | bundleSealDone k => exact ⟨_, rfl, event (sealDone_keeps k (.refl s))⟩
  | acknowledgementDeadlineExpiry c => exact ⟨_, rfl, event (ackExpires_keeps c (.refl s))⟩
  | offerDeadlineExpiry c => exact ⟨_, rfl, event (offerExpires_keeps c (.refl s))⟩
  | emptyLine => exact ⟨_, rfl, event (emptyArrives_keeps (.refl s))⟩
  | lostLine => exact ⟨_, rfl, event (lineArrivesLate_keeps (.refl s))⟩
  | replySent => exact ⟨_, rfl, event (replyGone_keeps serveVerb (fun v f u => serveVerb_keeps v f (.refl u)) (.refl s))⟩
  | noticeSent => exact ⟨_, rfl, event (noticeGone_keeps (.refl s))⟩
  | vbakLoss => exact ⟨_, rfl, Keeps.withClock _ (.refl s)⟩
  | malformedLine | overlongLine | unknownVerb => exact ⟨_, rfl, receive_pump_keeps _ s⟩
  | _ => exact ⟨_, rfl, receive_pump_keeps _ s⟩

/-! ## The commands that read contacts -/

theorem contactsRead_steady (b : BayId) (c : Contacts) (s : State) :
    (contactsRead b c s).pending = s.pending ∧ (contactsRead b c s).now = s.now ∧ (Bounds s → Bounds (contactsRead b c s)) := by
  have hpins : ∀ p, Bounds s → Bounds { s with pins := p } := fun p h =>
    ⟨⟨h.host.notices, h.host.overflow, h.host.lost⟩, h.line, h.hygiene, h.calls, h.runIds, h.doorGrace, h.limit, h.idleTime, h.shares, h.staging⟩
  unfold contactsRead whileOn
  split
  · exact ⟨rfl, rfl, hpins _⟩
  · have hs := (readContacts_steady b { s with pins := upd s.pins b fun _ => c }).trans (pump_keeps (.refl _)).steady
    exact ⟨hs.pending, hs.now, fun h => hs.bounds (hpins _ h)⟩

/-! ## Start-ups -/

theorem clearVolatile_bounds {s : State} (h : Memory.wf s.store.staging) : Bounds (clearVolatile s) where
  host := ⟨Nat.zero_le _, fun _ _ e => by simp [clearVolatile, HostLink.initial] at e, Nat.zero_le _⟩
  line b := by
    have hb : (clearVolatile s).line.bays[b] = .initial := table_get 12 LineBay.initial b.val b.isLt
    rw [hb]
    exact ⟨Nat.zero_le _, by decide, by decide⟩
  hygiene b := by
    have hb : (clearVolatile s).clean[b] = .initial := table_get 12 CleanBay.initial b.val b.isLt
    rw [hb]
    exact ⟨by decide, by decide⟩
  calls := Nat.zero_le _
  runIds := (by decide : 1 ≤ 1 ∧ 1 ≤ 255)
  doorGrace := (by decide : 30 ≤ 180 ∧ 180 ≤ 900)
  limit := (by decide : 50 ≤ 4000 ∧ 4000 ≤ 4000)
  idleTime := (by decide : 5 ≤ 30 ∧ 30 ≤ 240)
  shares b := by
    have hb : (clearVolatile s).heat.bays[b] = .initial := table_get 12 HeatBay.initial b.val b.isLt
    rw [hb]
    exact Nat.zero_le _
  staging := h

/-- A start-up before its contacts are read: the volatile records cleared, the lone LF sent, the load under way. -/
def beginLoad (c : Cause) (s : State) : State :=
  let t := clearVolatile s
  { t with phase := .loading c, host := { t.host with sent := .lineFeed :: t.host.sent } }

theorem startUp_eq (c : Cause) (s : State) : startUp c s = (beginLoad c s).each allBays readContacts := rfl

theorem beginLoad_bounds (c : Cause) {s : State} (h : Memory.wf s.store.staging) : Bounds (beginLoad c s) :=
  have k := clearVolatile_bounds h
  ⟨⟨Nat.zero_le _, k.host.overflow, k.host.lost⟩, k.line, k.hygiene, k.calls, k.runIds, k.doorGrace, k.limit, k.idleTime, k.shares, k.staging⟩

theorem startUp_steady (c : Cause) (s : State) : Steady (beginLoad c s) (startUp c s) :=
  Steady.each _ _ (fun b u => readContacts_steady b u) (.refl _)

theorem startUp_bounds (c : Cause) {s : State} (h : Memory.wf s.store.staging) : Bounds (startUp c s) :=
  (startUp_steady c s).bounds (beginLoad_bounds c h)

theorem startUp_pending (c : Cause) (s : State) : (startUp c s).pending = s.pending := (startUp_steady c s).pending

/-! ## The load -/

theorem within_iff (lo n hi : Nat) : within lo n hi = true ↔ lo ≤ n ∧ n ≤ hi := by simp [within]

/-- R46: a record in range leaves its owner within its bounds. -/
theorem takeRecord_keeps (r : StoreRec) (hr : r.ok = true) {s t : State} (hk : Keeps s t) : Keeps s (takeRecord r t) := by
  cases r with
  | site limit grace idle =>
    simp only [StoreRec.ok, Bool.and_eq_true, within_iff] at hr
    obtain ⟨⟨hlimit, hgrace⟩, hidle⟩ := hr
    have hheat := hk.withHeat { t.heat with limit := limit, idleTime := idle } (.inl hlimit) (.inl hidle) id
    refine hheat.withRuns { t.runs with doorGrace := grace } ?_ (.inl hgrace)
    exact .inr rfl
  | quick v => exact Keeps.withLib _ hk
  | event k e => exact Keeps.withMon _ id hk
  | dst d => exact Keeps.withClock _ hk
  | sched n e => exact Keeps.withSched _ hk
  | commission b c => exact Keeps.setReg _ _ (fun _ => rfl) hk
  | hold b k rp => exact Keeps.setMon _ _ hk
  | hygiene b h =>
    simp only [StoreRec.ok, Bool.and_eq_true, decide_eq_true_eq] at hr
    exact Keeps.setClean _ _ (fun _ _ => ⟨hr.1, hr.2⟩) hk
  | recipe n x => exact Keeps.withLib _ hk
  | header k h =>
    simp only [takeRecord]
    split
    · exact storeRecord_keeps _ _ _ (Keeps.setSlot _ _ hk)
    · exact Keeps.setSlot _ _ hk

theorem loadable_ok (p : Partition) (last : Option Nat) (l : List StoreRec) : ∀ r ∈ loadable p last l, r.home = p ∧ r.ok = true := by
  induction l generalizing last with
  | nil => simp [loadable]
  | cons x rest ih =>
    unfold loadable
    split
    · next hx =>
      simp only [Bool.and_eq_true, decide_eq_true_eq] at hx
      intro r hr
      rcases List.mem_cons.1 hr with rfl | hr
      · exact ⟨hx.1.1, hx.2⟩
      · exact ih _ r hr
    · simp

/-- R46: the LIBRARY load takes records off the front of its list. -/
theorem loadableRecipes_isPrefix (count slots : Nat) (l : List StoreRec) : loadableRecipes count slots l <+: l := by
  induction l generalizing count slots with
  | nil => simp [loadableRecipes]
  | cons x rest ih =>
    cases x <;> simp only [loadableRecipes, List.nil_prefix]
    split
    · exact List.prefix_cons_inj _ |>.2 (ih _ _)
    · exact List.nil_prefix

theorem readPartition_ok (p : Partition) (l : RecordList) : ∀ r ∈ readPartition p l, r.home = p ∧ r.ok = true := by
  intro r hr
  unfold readPartition at hr
  dsimp only at hr
  split at hr
  · exact loadable_ok p none l.recs r ((loadableRecipes_isPrefix 0 0 _).subset hr)
  · exact loadable_ok p none l.recs r hr

theorem takeRecords_keeps (p : Partition) (l : RecordList) {s t : State} (hk : Keeps s t) : Keeps s (t.each (readPartition p l) takeRecord) := by
  have h : ∀ (m : List StoreRec), (∀ r ∈ m, r.ok = true) → ∀ u, Keeps s u → Keeps s (u.each m takeRecord) := by
    intro m
    induction m with
    | nil => exact fun _ u hu => hu
    | cons r m ih =>
      exact fun hm u hu => ih (fun x hx => hm x (List.mem_cons_of_mem r hx)) _ (takeRecord_keeps r (hm r List.mem_cons_self) hu)
  exact h _ (fun r hr => (readPartition_ok p l r hr).2) t hk

theorem loadProfile_keeps (s : State) : Keeps s (loadProfile s) :=
  Keeps.withClock _ (takeRecords_keeps .profile s.store.profile (Keeps.withClock { s.clock with rule := .initial } (.refl s)))

theorem loadStore_keeps (s : State) : Keeps s (loadStore s) :=
  takeRecords_keeps .headers _ (takeRecords_keeps .library _ (takeRecords_keeps .hygiene _ (loadProfile_keeps s)))

theorem releaseSettled_keeps (b : BayId) {s t : State} (hk : Keeps s t) : Keeps s (releaseSettled b t) := by
  unfold releaseSettled
  split
  · exact setBayState_keeps _ _ _ (Keeps.setReg _ _ (fun _ => rfl) hk)
  · exact hk

/-- The state with its four lists loaded, its settled bays released and its hygiene conditions reported. -/
def loaded (s : State) : State := ((loadStore s).each allBays releaseSettled).each allBays reportHygiene

theorem loaded_keeps (s : State) : Keeps s (loaded s) :=
  Keeps.each _ _ (fun b u => reportHygiene_keeps b (.refl u)) (Keeps.each _ _ (fun b u => releaseSettled_keeps b (.refl u)) (loadStore_keeps s))

/-- R192: the place kept for STARTUP makes room at the head of the notice queue. -/
theorem placeStartup_bounds {c : Cause} {u : State} (n : Notice) (hu : u.phase = .loading c) (h : Bounds u) :
    Bounds { u with phase := .running, host := { u.host with notices := n :: u.host.notices } } := by
  have hn : u.host.notices.length ≤ 63 := by simpa [noticeRoom, hu] using h.host.notices
  exact ⟨⟨Nat.succ_le_succ hn, h.host.overflow, h.host.lost⟩, h.line, h.hygiene, h.calls, h.runIds, h.doorGrace, h.limit, h.idleTime,
    h.shares, h.staging⟩

theorem endLoad_of_loading {c : Cause} {s : State} (h : s.phase = .loading c) : endLoad s = beginWrite
    { loaded s with phase := .running, host := { (loaded s).host with notices := startupNotice c (loaded s) :: (loaded s).host.notices } } := by
  simp [endLoad, h, loaded]

theorem endLoad_of_not_loading {s : State} (h : ∀ c, s.phase ≠ .loading c) : endLoad s = s := by
  unfold endLoad
  split
  · next c hc => exact absurd hc (h c)
  · rfl

theorem endLoad_kept (s : State) : (endLoad s).pending = s.pending ∧ (endLoad s).now = s.now ∧ (Bounds s → Bounds (endLoad s)) ∧
    ∀ b : BayId, (endLoad s).reg[b].presence = s.reg[b].presence := by
  by_cases h : ∃ c, s.phase = .loading c
  · obtain ⟨c, hc⟩ := h
    have hk := loaded_keeps s
    have hw : ∀ u, Keeps u (beginWrite u) := fun u => beginWrite_keeps (.refl u)
    rw [endLoad_of_loading hc]
    generalize loaded s = v at hk ⊢
    have hw := hw { v with phase := .running, host := { v.host with notices := startupNotice c v :: v.host.notices } }
    exact ⟨hw.steady.pending.trans hk.steady.pending, hw.steady.now.trans hk.steady.now,
      fun hb => hw.steady.bounds (placeStartup_bounds _ (hk.steady.phase.trans hc) (hk.steady.bounds hb)),
      fun b => (hw.presence b).trans (hk.presence b)⟩
  · rw [endLoad_of_not_loading fun c hc => h ⟨c, hc⟩]
    exact ⟨rfl, rfl, id, fun _ => rfl⟩

/-! ## Every command -/

/-- What every command keeps: the commands that wait and the bounds; the count, but for a start-up; the presences, but where contacts are read. -/
structure Carried (c : Instr) (s t : State) : Prop where
  pending : t.pending = s.pending
  now : ¬ StartsUp c → t.now = s.now
  presence : ¬ ReadsContacts c → ∀ b : BayId, t.reg[b].presence = s.reg[b].presence
  bounds : Bounds s → Bounds t

theorem Carried.of_keeps {c : Instr} {s t : State} (h : Keeps s t) : Carried c s t :=
  ⟨h.steady.pending, fun _ => h.steady.now, fun _ => h.presence, h.steady.bounds⟩

theorem Carried.of_startUp {c : Instr} (hc : StartsUp c) {s t : State} (hp : t.pending = s.pending) (hb : Bounds s → Bounds t) : Carried c s t :=
  ⟨hp, fun h => absurd hc h, fun h => absurd (.inl hc) h, hb⟩

theorem Carried.contactsRead {c : Instr} (hc : ReadsContacts c) (b : BayId) (p : Contacts) (s : State) : Carried c s (contactsRead b p s) :=
  have h := contactsRead_steady b p s
  ⟨h.1, fun _ => h.2.1, fun hn => absurd hc hn, h.2.2⟩

/-- An event that is a start-up, or finds nothing to do. -/
theorem whileOn_startUp {c : Instr} (hc : StartsUp c) (g : State → State) (s : State)
    (hg : (g s).pending = s.pending ∧ (Bounds s → Bounds (g s))) : Carried c s (whileOn g s) := by
  unfold whileOn
  split
  · exact .of_startUp hc rfl id
  · have hp : Keeps (g s) (pump (g s)) := pump_keeps (.refl _)
    exact .of_startUp hc (hp.steady.pending.trans hg.1) fun h => hp.steady.bounds (hg.2 h)

theorem restartDrained_kept (s : State) : (restartDrained s).pending = s.pending ∧ (Bounds s → Bounds (restartDrained s)) := by
  unfold restartDrained
  split
  · split
    · exact ⟨startUp_pending _ _, fun h => startUp_bounds _ h.staging⟩
    · exact ⟨rfl, id⟩
  · exact ⟨rfl, id⟩

theorem restartExpires_kept (cut : Cut) (s : State) :
    (restartExpires cut s).pending = s.pending ∧ (Bounds s → Bounds (restartExpires cut s)) := by
  unfold restartExpires
  split
  · split
    · exact ⟨startUp_pending _ _, fun h => startUp_bounds _ (Store.wf_cut _ _ h.staging)⟩
    · exact ⟨rfl, id⟩
  · exact ⟨rfl, id⟩

theorem exec_carried (c : Instr) (s : State) : ∃ t, exec c s = .next t ∧ Carried c s t := by
  by_cases hload : c = .startUpLoadEnd
  · subst hload
    refine ⟨_, rfl, ?_⟩
    unfold whileOn
    split
    · exact .of_keeps (.refl s)
    · obtain ⟨hpending, hnow, hbounds, hpresence⟩ := endLoad_kept s
      have hp : Keeps (endLoad s) (pump (endLoad s)) := pump_keeps (.refl _)
      exact ⟨hp.steady.pending.trans hpending, fun _ => hp.steady.now.trans hnow, fun _ b => (hp.presence b).trans (hpresence b),
        fun h => hp.steady.bounds (hbounds h)⟩
  · by_cases hread : ReadsContacts c
    · cases c with
      | presencePresent b | presencePartial b lead | presenceAbsent b => exact ⟨_, rfl, .contactsRead hread b _ s⟩
      | powerOn =>
        have hp : Keeps _ (pump (startUp .powerOn { s with clock := checkBackup s.clock })) := pump_keeps (.refl _)
        exact ⟨_, rfl, (.of_startUp (c := .powerOn) trivial (hp.steady.pending.trans (startUp_pending _ _))
          fun h => hp.steady.bounds (startUp_bounds _ h.staging))⟩
      | resetPin cut =>
        exact ⟨_, rfl, whileOn_startUp (c := .resetPin cut) trivial _ s ⟨startUp_pending _ _, fun h => startUp_bounds _ (Store.wf_cut _ _ h.staging)⟩⟩
      | restartWritesDrained => exact ⟨_, rfl, whileOn_startUp (c := .restartWritesDrained) trivial _ s (restartDrained_kept s)⟩
      | restartTimeout cut => exact ⟨_, rfl, whileOn_startUp (c := .restartTimeout cut) trivial _ s (restartExpires_kept cut s)⟩
      | powerFailure cut => exact ⟨_, rfl, .of_startUp (c := .powerFailure cut) trivial rfl fun h => clearVolatile_bounds (Store.wf_cut _ _ h.staging)⟩
      | _ => exact absurd hread (by simp [ReadsContacts, StartsUp])
    · obtain ⟨t, ht, hk⟩ := exec_keeps hread hload s
      exact ⟨t, ht, .of_keeps hk⟩

/-- Time and the queue of waiting commands are in no bound. -/
theorem Bounds.elsewhere {s : State} (h : Bounds s) (n : Nat) (p : List Instr) : Bounds { s with now := n, pending := p } :=
  ⟨⟨h.host.notices, h.host.overflow, h.host.lost⟩, h.line, h.hygiene, h.calls, h.runIds, h.doorGrace, h.limit, h.idleTime, h.shares, h.staging⟩

/-- A step is one millisecond of an empty queue, or the command at the front on the rest (R141, assumption 1). -/
theorem step_cases {s t : State} (h : step s = .next t) :
    s.pending = [] ∧ t = s.tick ∨ ∃ c rest, s.pending = c :: rest ∧ exec c { s with pending := rest } = .next t := by
  unfold step at h
  split at h
  · next hp => cases h; exact .inl ⟨hp, rfl⟩
  · next c rest hp => exact .inr ⟨c, rest, hp, h⟩

/-- Settles O4: each command is `Carried`, start-ups and the load included; a tick moves nothing but the count. -/
theorem everyStepStaysWithinBounds : Obligations.EveryStepStaysWithinBounds := by
  intro s t hs hstep
  rcases step_cases hstep with ⟨_, rfl⟩ | ⟨c, rest, _, hc⟩
  · exact hs.elsewhere _ _
  · obtain ⟨u, hu, hcarried⟩ := exec_carried c { s with pending := rest }
    obtain rfl : u = t := by rw [hu] at hc; cases hc; rfl
    exact hcarried.bounds (hs.elsewhere _ _)

/-! ## A part without supply -/

theorem deaf_of_off {s : State} (h : s.phase = .off) : deaf s = true := by simp [deaf, h]

theorem pump_of_off {s : State} (h : s.phase = .off) (hin : s.host.inHand = none) : pump s = s := by
  simp [pump, h, hin]

/-- R192: without supply no line is taken. -/
theorem receive_pump_of_off (l : InLine) {s : State} (h : s.phase = .off) (hin : s.host.inHand = none) :
    pump (receive serveVerb l s) = s := by
  have hr : receive serveVerb l s = s := by simp [receive, deaf_of_off h]
  rw [hr, pump_of_off h hin]

theorem whileOn_of_off (g : State → State) {s : State} (h : s.phase = .off) : whileOn g s = s := if_pos h

theorem exec_of_off {c : Instr} {s : State} (h : s.phase = .off) (hin : s.host.inHand = none) (hc : ¬ ReachesUnsupplied c) :
    exec c s = .next s := by
  cases c with
  | powerOn | powerFailure | presencePresent | presencePartial | presenceAbsent | clockUpdate | vbakLoss => exact absurd trivial hc
  | resetPin | startUpLoadEnd | restartWritesDrained | restartTimeout | settleTimerExpiry | partialTimerExpiry | commissionDeadlineExpiry
  | pollCycleStart | pollSend | lostPollDue | answerWindowClose | answerByteGap | answerFrameInvalid | statusRecord | identityRecord
  | applyGraceExpiry | storeWriteDone | loadDeadlineExpiry | importValidation | importRecord | runWakeDeadlineExpiry
  | maximumTimeDeadlineExpiry | promptDeadlineExpiry | runDoorGraceExpiry | runawayDeadlineExpiry | starvationDeadlineExpiry
  | idleDeadlineExpiry | phaseDurationEnd | overrunDeadlineExpiry | cleanWakeDeadlineExpiry | coolingDeadlineExpiry
  | cleanDoorGraceExpiry | closeDeadlineExpiry | laneTimerExpiry | escalationDeadlineExpiry | bundleSealDone
  | acknowledgementDeadlineExpiry | offerDeadlineExpiry | emptyLine | lostLine | replySent | noticeSent =>
    exact congrArg _ (whileOn_of_off _ h)
  | _ => exact congrArg _ (receive_pump_of_off _ h hin)

/-- Settles O8: what `Carried` says of every command, and `exec_of_off` of a part without supply. -/
theorem onlyStartUpsMoveTheCount : Obligations.OnlyStartUpsMoveTheCount := by
  intro c s
  obtain ⟨t, ht, hcarried⟩ := exec_carried c s
  refine ⟨t, ht, hcarried.pending, hcarried.now, hcarried.presence, fun hoff hin hc => ?_⟩
  rw [exec_of_off hoff hin hc] at ht
  cases ht
  rfl

/-! ## The step and the reset state -/

/-- Settles O1: both parts are what `step` says of the front of the queue. -/
theorem stepRunsTheFrontCommand : Obligations.StepRunsTheFrontCommand := by
  refine ⟨fun c rest s => rfl, fun s hs => ⟨s.tick.now, ?_, fun hlast => if_pos hlast⟩⟩
  rw [step]
  split
  · rfl
  · next hp => rw [hs] at hp; cases hp

/-- Settles O2: every field is read off `State.reset`. -/
theorem resetHoldsTheStartUpValues : Obligations.ResetHoldsTheStartUpValues := by
  unfold Obligations.ResetHoldsTheStartUpValues
  decide

theorem reset_bounds : Bounds State.reset :=
  have h := beginLoad_bounds .powerOn (s := State.reset) Memory.wf_reset
  ⟨⟨Nat.zero_le _, h.host.overflow, h.host.lost⟩, h.line, h.hygiene, h.calls, h.runIds, h.doorGrace, h.limit, h.idleTime, h.shares, h.staging⟩

/-! ## No job, no call and an empty library: where every start-up begins -/

/-- No bay has a job, no channel is in use, no call is open, and the Library is empty. -/
structure Idle (s : State) : Prop where
  activity : ∀ b : BayId, s.reg[b].activity = .nothing
  runs : s.runs.runs = table 12 none
  cleanings : ∀ b : BayId, s.clean[b].record = none
  dist : s.dist = .initial
  calls : s.mon.calls = [] ∧ s.mon.lanes = table 2 none ∧ 1 ≤ s.mon.nextCall ∧ s.mon.nextCall ≤ 65535
  lib : s.lib = .initial

theorem Idle.liveRun {s : State} (h : Idle s) (b : BayId) : liveRun s b = none := by simp [Machine.liveRun, h.runs]

theorem Idle.channel {s : State} (h : Idle s) (c : Fin 4) : s.dist.channels[c] = .initial := by simp [h.dist, Distributor.initial]

theorem Idle.jobs {s : State} (h : Idle s) : Jobs s := by
  intro b
  have hentry : Channel.initial.progress[b] = .notTarget := by simp [Channel.initial]
  have hrun := h.liveRun b
  have hclean : liveClean s b = none := by rw [liveClean, h.cleanings b]; rfl
  constructor <;> simp only [h.activity b, hrun, hclean, h.channel, hentry] <;> simp [Channel.initial]

theorem Idle.callTable {s : State} (h : Idle s) : CallTable s := by
  obtain ⟨hcalls, hlanes, hnext⟩ := h.calls
  constructor <;> simp [hcalls, hlanes, hnext]

theorem Idle.pool {s : State} (h : Idle s) : Pool s := by
  have husers : ∀ k : Fin 4, s.dist.slots[k].users = usersOf s k := by
    intro k
    simp [usersOf, h.dist, h.lib, Distributor.initial, Library.initial, Slot.initial, Channel.initial]
  have hindex : s.lib.index = [] := by rw [h.lib]; rfl
  exact
    { slots := by rw [h.lib]; rfl
      order := by simp [hindex]
      pins := by simp [hindex]
      runs := fun b r hr => by rw [h.liveRun b] at hr; cases hr
      load := by simp [h.lib, Library.initial]
      job := by simp [h.lib, Library.initial]
      idle := by simp [h.lib, Library.initial]
      users := husers
      start := fun _ _ => ⟨hindex, by rw [h.lib]; rfl, by rw [h.lib]; rfl, fun k => by rw [h.channel k]; rfl, h.liveRun⟩ }

theorem reset_idle : Idle State.reset where
  activity b := congrArg RegBay.activity (table_get 12 RegBay.initial b.val b.isLt)
  runs := rfl
  cleanings b := congrArg CleanBay.record (table_get 12 CleanBay.initial b.val b.isLt)
  dist := rfl
  calls := ⟨rfl, rfl, by decide, by decide⟩
  lib := rfl

/-- Settles O3: the reset state is idle, and its counts stand at their start. -/
theorem resetIsWithinBounds : Obligations.ResetIsWithinBounds :=
  ⟨reset_bounds, reset_idle.jobs, reset_idle.callTable, reset_idle.pool⟩

end Sys2Proof.Machine


/-! The SHOW requests (R191): each is answered with what its records hold, and changes nothing. -/

namespace Sys2Proof.Machine

open Sys2Proof

/-! ## An owner's judgement of the fields (R187) -/

theorem withFields_of_parse {α : Type} {v : Verb} {parse : List Txt → Option α} {owner : α → State → Served} {f : List Txt} {a : α}
    (h : parse f = some a) (s : State) : withFields v parse owner f s = owner a s := by
  rw [withFields, h]

theorem withFields_refuses {α : Type} {v : Verb} {parse : List Txt → Option α} {owner : α → State → Served} {f : List Txt}
    (h : parse f = none) (s : State) : withFields v parse owner f s = (s, .no (.verb v) .syntaxError []) := by
  rw [withFields, h]
  rfl

theorem fin_nil {β : Type} (v : β) : fin v [] = some v := rfl

theorem optFld_nil {α : Type} (p : Txt → Option α) : optFld p [] = some none := rfl

theorem optFld_single {α : Type} {p : Txt → Option α} {w : Txt} {a : α} (h : p w = some a) : optFld p [w] = some (some a) := by
  rw [optFld, h]
  rfl

theorem fourOf_val_succ (k : Fin 4) : fourOf (k.val + 1) = some k := dif_pos (by omega)

theorem fourOf_outside {n : Nat} (h : n = 0 ∨ 4 < n) : fourOf n = none := dif_neg (by omega)

theorem onFour_val_succ (v : Verb) (c : Fin 4) (k : Fin 4 → State → Served) (s : State) : onFour v (c.val + 1) k s = k c s := by
  rw [onFour, fourOf_val_succ]

theorem onFour_outside {n : Nat} (h : n = 0 ∨ 4 < n) (v : Verb) (k : Fin 4 → State → Served) (s : State) :
    onFour v n k s = refuse v .range s := by
  rw [onFour, fourOf_outside h]

/-! ## The SHOW requests that name a bay -/

theorem serveShowBay_of_bay {w : Txt} {b : BayId} (hw : NamesBay w b) (s : State) :
    serveShowBay [w] s = (s, .ok .showBay (bayTok b :: bayToks s b)) := by
  rw [serveShowBay, withFields_single hw, onBay_bayNo]
  rfl

theorem serveShowBay_of_outside {w : Txt} {n : Nat} (hw : number w = some n) (h : n = 0 ∨ 12 < n) (s : State) :
    serveShowBay [w] s = (s, .no (.verb .showBay) .range []) := by
  rw [serveShowBay, withFields_single hw, onBay_outside h]
  rfl

theorem serveShowRun_of_run {w : Txt} {b : BayId} (hw : NamesBay w b) {s : State} {r : Run} (hr : s.runs.runs[b] = some r) :
    serveShowRun [w] s = (s, .ok .showRun (bayTok b :: runToks r s.now)) := by
  rw [serveShowRun, withFields_single hw, onBay_bayNo, hr]
  rfl

theorem serveShowRun_of_none {w : Txt} {b : BayId} (hw : NamesBay w b) {s : State} (hr : s.runs.runs[b] = none) :
    serveShowRun [w] s = (s, .no (.verb .showRun) .absent []) := by
  rw [serveShowRun, withFields_single hw, onBay_bayNo, hr]
  rfl

theorem serveShowCleaning_of_record {w : Txt} {b : BayId} (hw : NamesBay w b) {s : State} {c : CleanRec} (hc : s.clean[b].record = some c) :
    serveShowCleaning [w] s = (s, .ok .showCleaning (bayTok b :: (cleanToks c s.now ++ pendingToks s.clean[b].pendingWindow))) := by
  rw [serveShowCleaning, withFields_single hw, onBay_bayNo]
  dsimp only
  rw [hc]
  rfl

theorem serveShowCleaning_of_none {w : Txt} {b : BayId} (hw : NamesBay w b) {s : State} (hc : s.clean[b].record = none)
    (hp : s.clean[b].pendingWindow = none) : serveShowCleaning [w] s = (s, .no (.verb .showCleaning) .absent []) := by
  rw [serveShowCleaning, withFields_single hw, onBay_bayNo]
  dsimp only
  rw [hc, hp]
  rfl

theorem serveShowHygiene_of_bay {w : Txt} {b : BayId} (hw : NamesBay w b) (s : State) : serveShowHygiene [w] s = (s, .ok .showHygiene
    ([bayTok b, .num s.clean[b].hygiene.soil, .yn s.clean[b].hygiene.rinseOwed, .num s.clean[b].hygiene.detergent] ++
      hygieneWords s.clean[b].hygiene)) := by
  rw [serveShowHygiene, withFields_single hw, onBay_bayNo]
  rfl

theorem serveShowHeat_of_bay {w : Txt} {b : BayId} (hw : NamesBay w b) (s : State) :
    serveShowHeat [w] s = (s, .ok .showHeat (heatBayToks s b)) := by
  rw [serveShowHeat, withFields_of_parse (optFld_single hw)]
  exact onBay_bayNo _ _ _ _

theorem serveShowEvents_of_bay {w : Txt} {b : BayId} (hw : NamesBay w b) (s : State) :
    serveShowEvents [w] s = (s, .ok .showEvents (eventsToks s b)) := by
  rw [serveShowEvents, withFields_of_parse (optFld_single hw)]
  exact onBay_bayNo _ _ _ _

/-- Settles O10: what each owner answers, in the Host Link's hands. -/
theorem showRequestsOfABay : Obligations.ShowRequestsOfABay := by
  refine ⟨fun s w n hs hw => ⟨?_, fun hn => answered_of_served hs (serveShowBay_of_outside hw hn s)⟩, fun s w b hs hw => ⟨?_, ?_, ?_, ?_, ?_, ?_, ?_⟩⟩
  · rintro b rfl
    exact answered_of_served hs (serveShowBay_of_bay hw s)
  · exact fun r hr => answered_of_served hs (serveShowRun_of_run hw hr)
  · exact fun hr => answered_of_served hs (serveShowRun_of_none hw hr)
  · exact fun c hc => answered_of_served hs (serveShowCleaning_of_record hw hc)
  · exact fun hc hp => answered_of_served hs (serveShowCleaning_of_none hw hc hp)
  · exact answered_of_served hs (serveShowHygiene_of_bay hw s)
  · exact answered_of_served hs (serveShowHeat_of_bay hw s)
  · exact answered_of_served hs (serveShowEvents_of_bay hw s)

/-! ## The SHOW requests of the site -/

theorem serveShowWindows_of_none {s : State} (h : s.sched.windows = []) : serveShowWindows [] s = (s, .ok .showWindows [noneTok]) := by
  rw [serveShowWindows, withFields_of_parse (fin_nil ()), h]
  rfl

theorem serveShowWindows_of_some {s : State} (h : s.sched.windows ≠ []) : serveShowWindows [] s = (s, .ok .showWindows
    (groups (s.sched.windows.map (fun x =>
      [.num (x.entry.val + 1), wd x.kind.word, .bays x.mask, optProgram x.program, .num x.threshold, .num x.opened, .num x.closes])))) := by
  rw [serveShowWindows, withFields_of_parse (fin_nil ()), if_neg (by simpa using h)]
  rfl

theorem serveShowSchedule_of_entry {w : Txt} {n : Fin 24} (hw : number w = some (n.val + 1)) (s : State) :
    serveShowSchedule [w] s = (s, .ok .showSchedule (schedToks s n)) := by
  rw [serveShowSchedule, withFields_of_parse (optFld_single hw)]
  simp only [entryOf_val_succ]
  rfl

/-- The present load of SHOW LIBRARY: its number, its revision and its next step, or NONE. -/
theorem load_toks (o : Option Load) :
    (match o with | some l => [Tok.num l.number, .num l.head.revision, .num l.next] | none => [noneTok]) =
      (o.map (fun l => [Tok.num l.number, .num l.head.revision, .num l.next])).getD [noneTok] := by
  cases o <;> rfl

theorem serveShowLibrary_eq (s : State) : serveShowLibrary [] s = (s, .ok .showLibrary
    ([.num s.lib.index.length, .num s.lib.free, .num s.lib.reserved] ++
      ((s.lib.load.map (fun l => [.num l.number, .num l.head.revision, .num l.next])).getD [noneTok]) ++
      [optNum (s.lib.job.map (fun j => j.slot.val + 1))])) := by
  rw [← load_toks]
  rfl

/-- The two lanes, in their order. -/
theorem lanes_flatten (v : Vector (Option Lane) 2) : (v.toList.map laneToks).flatten = laneToks v[(0 : Fin 2)] ++ laneToks v[(1 : Fin 2)] := by
  have hv : v.toList = [v[(0 : Fin 2)], v[(1 : Fin 2)]] := by
    apply List.ext_getElem
    · simp
    · intro i hi _
      have hi2 : i < 2 := by simpa using hi
      interval_cases i <;> rfl
  rw [hv]
  simp

theorem serveShowCalls_eq (s : State) : serveShowCalls [] s = (s, .ok .showCalls
    ((s.mon.calls.map callToks).flatten ++ laneToks s.mon.lanes[(0 : Fin 2)] ++ laneToks s.mon.lanes[(1 : Fin 2)] ++
      [bayTok s.mon.lastBay, .num s.mon.nextCall])) := by
  rw [serveShowCalls, withFields_of_parse (fin_nil ()), lanes_flatten]
  simp only [okay, List.append_assoc]

/-- R50: the parsing of SHOW RECIPE's one or two fields. -/
theorem serveShowRecipe_of_entry {w : Txt} {n : Nat} (hw : number w = some n) (h1 : 1 ≤ n) (h2 : n ≤ 999) {s : State} {e : Entry}
    (he : entryFor s.lib.index n = some e) : serveShowRecipe [w] s = (s, .ok .showRecipe (.num n :: entryToks e)) := by
  rw [serveShowRecipe, withFields_of_parse (a := (n, none)) (by simp [fld, hw, optFld])]
  simp [within, h1, h2, he, okay]

theorem serveShowRecipe_of_step {w v : Txt} {n k : Nat} (hw : number w = some n) (h1 : 1 ≤ n) (h2 : n ≤ 999) {s : State} {e : Entry}
    (he : entryFor s.lib.index n = some e) (hv : number v = some (k + 1)) (hk : k < 12) {st : Step} (hst : e.cur.steps[k]? = some st) :
    serveShowRecipe [w, v] s = (s, .ok .showRecipe (.num n :: .num (k + 1) :: stepToks st)) := by
  have hrange : within 1 (k + 1) 12 = true := (within_iff _ _ _).2 ⟨by omega, by omega⟩
  rw [serveShowRecipe, withFields_of_parse (a := (n, some (k + 1))) (by simp [fld, hw, optFld, hv])]
  simp [(within_iff 1 n 999).2 ⟨h1, h2⟩, hrange, he, hst, okay]

theorem serveShowSlot_of_slot {w : Txt} {k : Fin 4} (hw : NamesFour w k) (s : State) :
    let h := s.dist.slots[k].header
    serveShowSlot [w] s = (s, .ok .showSlot
      [.num (k.val + 1), wd h.state.word, wd h.kind.word, if h.kind = .firmware then .num h.target else noneTok, .num h.revision,
        .num h.length, .hex8 h.crc, .num s.dist.slots[k].fill, (s.dist.slots[k].computed.map Tok.hex8).getD noneTok,
        .num s.dist.slots[k].users]) := by
  dsimp only
  rw [serveShowSlot, withFields_single hw, onFour_val_succ]
  rfl

theorem serveShowChannel_of_channel {w : Txt} {k : Fin 4} (hw : NamesFour w k) (s : State) :
    serveShowChannel [w] s = (s, .ok .showChannel (.num (k.val + 1) :: channelToks s k)) := by
  rw [serveShowChannel, withFields_single hw, onFour_val_succ]
  rfl

/-- Settles O11: what each owner answers, in the Host Link's hands. -/
theorem showRequestsOfTheSite : Obligations.ShowRequestsOfTheSite := by
  intro s hs
  refine ⟨?_, ?_, ?_, ?_, ?_, ?_, ?_, ?_, ?_, ?_, ?_, ?_⟩
  · exact answered_of_served hs rfl
  · exact answered_of_served hs rfl
  · exact fun h => answered_of_served hs (serveShowWindows_of_none h)
  · exact fun h => answered_of_served hs (serveShowWindows_of_some h)
  · exact answered_of_served hs rfl
  · exact answered_of_served hs rfl
  · exact answered_of_served hs rfl
  · exact answered_of_served hs (serveShowLibrary_eq s)
  · exact answered_of_served hs (serveShowCalls_eq s)
  · exact fun w n hw => answered_of_served hs (serveShowSchedule_of_entry hw s)
  · exact fun w n e hw h1 h2 he => ⟨answered_of_served hs (serveShowRecipe_of_entry hw h1 h2 he),
      fun v k st hv hk hst => answered_of_served hs (serveShowRecipe_of_step hw h1 h2 he hv hk hst)⟩
  · exact fun w k hw => ⟨answered_of_served hs (serveShowSlot_of_slot hw s), answered_of_served hs (serveShowChannel_of_channel hw s)⟩

end Sys2Proof.Machine

/-! The Host Link's lines, replies and notices (R185-R193). -/

namespace Sys2Proof.Machine

open Sys2Proof

/-! ## A line that is taken at once -/

theorem takeLine_pump (owners : Verb → List Txt → State → Served) (early : Bool) (l : InLine) (s : State) :
    pump (takeLine owners early l s) = replying (serveLine owners early l s).2 (serveLine owners early l s).1 := pump_of_inHand _ _

theorem receive_pump_of_listening {s : State} (hs : Listening s) (l : InLine) :
    pump (receive serveVerb l s) = replying (serveLine serveVerb false l s).2 (serveLine serveVerb false l s).1 := by
  rw [receive_of_listening hs, takeLine_pump]

/-- Nothing is in hand while the load runs: the next line is taken at once (R192). -/
structure Starting (s : State) (c : Cause) : Prop where
  loading : s.phase = .loading c
  restarting : s.host.restarting = .no
  inHand : s.host.inHand = none
  waiting : s.host.waiting = none

theorem receive_pump_of_starting {s : State} {c : Cause} (hs : Starting s c) (l : InLine) :
    pump (receive serveVerb l s) = replying (serveLine serveVerb true l s).2 (serveLine serveVerb true l s).1 := by
  have hr : receive serveVerb l s = takeLine serveVerb true l s := by
    simp [receive, deaf, State.loading, hs.loading, hs.restarting, hs.inHand, hs.waiting]
  rw [hr, takeLine_pump]

/-! ## Lines that no owner judges -/

theorem unknownReply_of_not_show {w : Txt} (rest : List Txt) (h : w ≠ "SHOW".toList) : unknownReply (w :: rest) = .no .unjudged .unknown [] := by
  have hw : (w == "SHOW".toList) = false := by simpa using h
  cases rest <;> simp only [unknownReply, hw] <;> rfl

theorem isWord_iff (x : Txt) :
    isWord x = true ↔ x ≠ [] ∧ ∀ c ∈ x, ('A' ≤ c ∧ c ≤ 'Z') ∨ ('0' ≤ c ∧ c ≤ '9') ∨ c = '-' ∨ c = '_' := by
  simp [isWord, or_assoc]

/-- R191: SHOW with an object that no row has. -/
theorem unknownReply_show (x : Txt) (rest : List Txt) : unknownReply ("SHOW".toList :: x :: rest) = .no .show
    (if x ≠ [] ∧ ∀ c ∈ x, ('A' ≤ c ∧ c ≤ 'Z') ∨ ('0' ≤ c ∧ c ≤ '9') ∨ c = '-' ∨ c = '_' then .range else .syntaxError) [] := by
  simp only [unknownReply, beq_self_eq_true, if_true, ← isWord_iff]

/-! ## Lines that arrive behind others (R186) -/

theorem deaf_eq_false {s : State} (hon : s.phase ≠ .off) (hr : ∀ d, s.host.restarting ≠ .waiting d) : deaf s = false := by
  unfold deaf
  cases hp : s.phase with
  | off => exact absurd hp hon
  | loading | running =>
    cases hrest : s.host.restarting with
    | waiting d => exact absurd hrest (hr d)
    | no | replying => rfl

theorem loading_iff (s : State) : s.loading = true ↔ ∃ c, s.phase = .loading c := by
  unfold State.loading
  split <;> simp_all

theorem completes_whileOn {g : State → State} {c : Instr} {s : State} {P : State → Prop} (hon : s.phase ≠ .off)
    (hc : exec c s = .next (whileOn g s)) (hP : P (pump (g s))) : Completes c s P :=
  ⟨_, hc, by rw [whileOn_of_supplied g hon]; exact hP⟩

theorem emptyArrives_of_free {s : State} (h : s.host.waiting = none) : emptyArrives s = s := by
  simp [emptyArrives, h]

theorem emptyArrives_of_waiting {s : State} {l : InLine} (hd : deaf s = false) (h : s.host.waiting = some l) : emptyArrives s = loseLine s := by
  simp [emptyArrives, h, hd]

theorem lineArrivesLate_of_waiting {s : State} {l : InLine} (hd : deaf s = false) (h : s.host.waiting = some l) :
    lineArrivesLate s = loseLine s := by
  simp [lineArrivesLate, h, hd]

theorem receive_behind {s : State} {r : Reply} (hd : deaf s = false) (hin : s.host.inHand = some r) (hw : s.host.waiting = none) (l : InLine) :
    receive serveVerb l s = { s with host := { s.host with waiting := some l, early := s.loading, lostFirst := s.host.lost } } := by
  simp [receive, hd, hin, hw]

/-- Settles O12: a line is malformed, unknown, empty, late, behind a request in hand, or early; each by what the Host Link makes of it. -/
theorem badLinesAreAnsweredOrCounted : Obligations.BadLinesAreAnsweredOrCounted := by
  refine ⟨fun s hs => ⟨?_, ?_, ?_⟩, fun s hs => ⟨?_, ?_⟩, fun s hon => ⟨?_, ?_, ?_⟩, fun s c hc hr hin hw => ?_⟩
  · exact congrArg _ (receive_pump_of_listening hs .bad)
  · exact congrArg _ (receive_pump_of_listening hs .bad)
  · intro w rest hw
    have h := receive_pump_of_listening hs (.unknown (w :: rest))
    simp only [serveLine, unknownReply_of_not_show rest hw] at h
    exact congrArg _ h
  · exact congrArg _ (receive_pump_of_listening hs (.unknown ["SHOW".toList]))
  · intro x rest
    have h := receive_pump_of_listening hs (.unknown ("SHOW".toList :: x :: rest))
    simp only [serveLine, unknownReply_show] at h
    exact congrArg _ h
  · intro hw
    refine completes_whileOn hon rfl ?_
    rw [emptyArrives_of_free hw]
    exact pump_sameButSending s
  · rintro l hw hr c (rfl | rfl)
    · refine completes_whileOn hon rfl ?_
      rw [lineArrivesLate_of_waiting (deaf_eq_false hon hr) hw]
      exact pump_sameButSending _
    · refine completes_whileOn hon rfl ?_
      rw [emptyArrives_of_waiting (deaf_eq_false hon hr) hw]
      exact pump_sameButSending _
  · intro r v f early hin hw hr hearly
    have he : s.loading = early := by
      rw [Bool.eq_iff_iff, loading_iff]
      exact hearly.symm
    refine ⟨_, exec_command v f s, ?_⟩
    rw [request, receive_behind (deaf_eq_false hon hr) hin hw, he]
    exact pump_sameButSending _
  · have hs : Starting s c := ⟨hc, hr, hin, hw⟩
    refine ⟨fun v f => ?_, fun w rest => ?_, ?_, ?_⟩
    · exact (exec_command v f s).trans (congrArg _ (receive_pump_of_starting hs (.request v f)))
    · exact congrArg _ (receive_pump_of_starting hs (.unknown (w :: rest)))
    · exact congrArg _ (receive_pump_of_starting hs .bad)
    · exact congrArg _ (receive_pump_of_starting hs .bad)

/-! ## The end of a reply (R186) -/

/-- The state once the reply in hand has been sent. -/
def replyEnded (s : State) : State := { s with host := { s.host with tx := .idle, inHand := none } }

theorem replyGone_of_request {s : State} (htx : s.host.tx = .reply) (hr : s.host.restarting = .no) :
    replyGone serveVerb s = takeNext serveVerb (replyEnded s) := by
  rw [replyGone, if_pos htx]
  simp only [hr]
  rw [← hr]
  rfl

theorem replyGone_of_restart {s : State} (htx : s.host.tx = .reply) (hr : s.host.restarting = .replying) : replyGone serveVerb s =
    freeBuffer { replyEnded s with host := { (replyEnded s).host with restarting := .waiting (s.now + 10000) } } := by
  simp only [replyGone, htx, hr, if_true]
  rfl

theorem takeNext_of_quiet {s : State} (hw : s.host.waiting = none) (hl : s.host.lost = 0) : takeNext serveVerb s = s := by
  simp [takeNext, hw, hl]

theorem takeNext_of_lost {s : State} (hw : s.host.waiting = none) (hl : 0 < s.host.lost) : takeNext serveVerb s = answerLost s := by
  simp [takeNext, hw, Nat.ne_of_gt hl]

theorem takeNext_of_lostFirst {s : State} {l : InLine} (hw : s.host.waiting = some l) (hl : 0 < s.host.lostFirst) :
    takeNext serveVerb s = answerLost s := by
  simp [takeNext, hw, Nat.ne_of_gt hl]

theorem takeNext_of_waiting {s : State} {l : InLine} (hw : s.host.waiting = some l) (hl : s.host.lostFirst = 0) :
    takeNext serveVerb s = takeLine serveVerb (s.host.early || s.loading) l (freeBuffer s) := by
  simp [takeNext, hw, hl]

theorem answerLost_pump (s : State) : pump (answerLost s) = replying (.no .unjudged .busy [])
    { s with host := { s.host with lost := s.host.lost - 1, lostFirst := s.host.lostFirst - 1 } } :=
  pump_of_inHand (.no .unjudged .busy []) { s with host := { s.host with lost := s.host.lost - 1, lostFirst := s.host.lostFirst - 1 } }

theorem exec_replySent {s : State} (hrun : s.phase = .running) (htx : s.host.tx = .reply) (hr : s.host.restarting = .no) :
    exec .replySent s = .next (pump (takeNext serveVerb (replyEnded s))) := by
  have h : exec .replySent s = .next (pump (replyGone serveVerb s)) := congrArg _ (whileOn_of_supplied _ (by rw [hrun]; decide))
  rw [h, replyGone_of_request htx hr]

theorem loading_of_running {s : State} (h : s.phase = .running) : s.loading = false := by simp [State.loading, h]

/-- The waiting line is served in the state that the buffer's release leaves. -/
theorem exec_replySent_of_waiting {s : State} (hrun : s.phase = .running) (htx : s.host.tx = .reply) (hr : s.host.restarting = .no)
    {l : InLine} (hw : s.host.waiting = some l) (hl : s.host.lostFirst = 0) : exec .replySent s =
      .next (replying (serveLine serveVerb s.host.early l (freeBuffer (replyEnded s))).2
        (serveLine serveVerb s.host.early l (freeBuffer (replyEnded s))).1) := by
  have hload : (replyEnded s).loading = false := loading_of_running hrun
  rw [exec_replySent hrun htx hr, takeNext_of_waiting (s := replyEnded s) hw hl, hload, Bool.or_false, takeLine_pump]
  rfl

/-- Settles O13: a reply's end takes up a lost line, the waiting line, or nothing; RESTART's own reply begins its wait. -/
theorem replySentTakesUpTheNextLine : Obligations.ReplySentTakesUpTheNextLine := by
  refine ⟨fun s hrun htx hr => ⟨?_, ?_, ?_, ?_, ?_⟩, fun s => ⟨fun hs => answered_of_served hs rfl, ?_⟩⟩
  · intro hw hl
    refine ⟨_, exec_replySent hrun htx hr, ?_⟩
    rw [takeNext_of_quiet (s := replyEnded s) hw hl]
    exact pump_sameButSending _
  · intro hw hl
    rw [exec_replySent hrun htx hr, takeNext_of_lost (s := replyEnded s) hw hl, answerLost_pump]
    rfl
  · intro l hw hl
    rw [exec_replySent hrun htx hr, takeNext_of_lostFirst (s := replyEnded s) hw hl, answerLost_pump]
    rfl
  · intro v f hw hl
    rw [exec_replySent_of_waiting hrun htx hr hw hl]
    cases hearly : s.host.early <;> rfl
  · intro w rest hw hl hearly
    rw [exec_replySent_of_waiting hrun htx hr hw hl, hearly]
    rfl
  · intro hrun htx hr
    refine completes_whileOn (by rw [hrun]; decide) rfl ?_
    rw [replyGone_of_restart htx hr]
    have hp := pump_sameButSending (freeBuffer { replyEnded s with host := { (replyEnded s).host with restarting := .waiting (s.now + 10000) } })
    rw [hp]
    exact ⟨rfl, rfl, rfl, rfl⟩

/-! ## Notices (R190) -/

theorem noticeGone_of_notice {s : State} {n : Notice} {rest : List Notice} (htx : s.host.tx = .notice) (hn : s.host.notices = n :: rest)
    (ho : s.host.overflow = none) : noticeGone s = { s with host := { s.host with tx := .idle, notices := rest } } := by
  simp [noticeGone, htx, hn, ho]

theorem noticeGone_of_overflow {s : State} {n : Notice} {rest : List Notice} (htx : s.host.tx = .notice) (hn : s.host.notices = n :: rest)
    {c f : Nat} (ho : s.host.overflow = some (c, f)) : noticeGone s = queueNotice .overflow [.num c, .num f]
      { s with host := { s.host with tx := .idle, notices := rest, overflow := none } } := by
  simp [noticeGone, htx, hn, ho]

theorem queueNotice_of_room {k : NoticeKind} {f : List Tok} {s : State} (h : s.host.notices.length < noticeRoom s) : queueNotice k f s =
    { s with host := { s.host with notices := s.host.notices ++ [{ kind := k, time := s.now / 1000, fields := f }] } } := if_pos h

theorem queueNotice_of_full {k : NoticeKind} {f : List Tok} {s : State} (h : noticeRoom s ≤ s.host.notices.length) : queueNotice k f s =
    { s with host := { s.host with overflow := match s.host.overflow with
      | none => some (1, s.now / 1000)
      | some (c, first) => some (min (c + 1) 65535, first) } } := (if_neg (Nat.not_lt.2 h)).trans (by rfl)

/-- What the transmitter's own part holds does not matter to `SameButSending`. -/
theorem sameButSending_of_tx {s t : State} (tx : Tx) (h : SameButSending { s with host := { s.host with tx := tx } } t) : SameButSending s t := h

/-- Settles O14: a notice is queued or counted by the room there is, and the end of a notice frees its place. -/
theorem noticesAreQueuedCountedAndSent : Obligations.NoticesAreQueuedCountedAndSent := by
  refine ⟨fun k f s => ⟨queueNotice_of_room, fun hfull ho => ?_, fun c first hfull ho => ?_⟩, fun s n rest hrun htx hn => ⟨fun ho => ?_, fun c f ho hroom => ?_⟩⟩
  · rw [queueNotice_of_full hfull, ho]
  · rw [queueNotice_of_full hfull, ho]
  · refine completes_whileOn (by rw [hrun]; decide) rfl ?_
    rw [noticeGone_of_notice htx hn ho]
    exact sameButSending_of_tx .idle (pump_sameButSending _)
  · have hr : rest.length < noticeRoom { s with host := { s.host with tx := .idle, notices := rest, overflow := none } } := by
      simpa [noticeRoom, hrun] using hroom
    refine completes_whileOn (by rw [hrun]; decide) rfl ?_
    rw [noticeGone_of_overflow htx hn ho, queueNotice_of_room hr]
    exact sameButSending_of_tx .idle (pump_sameButSending _)

end Sys2Proof.Machine


/-! The write service (R42-R44): the turn of the writes, what a rewrite leaves, and what the staging reads as. -/

namespace Sys2Proof.Machine

open Sys2Proof

/-! ## Taking the writes in turn -/

theorem beginWrite_of_empty {s : State} (h : s.store.waiting = []) : beginWrite s = s := by simp [beginWrite, h]

theorem beginWrite_of_waiting {s : State} (hrun : s.phase = .running) (hp : s.store.performing = none) {x : Write} {rest : List Write}
    (hw : s.store.waiting = x :: rest) : beginWrite s = { s with store := { s.store with performing := some x, waiting := rest } } := by
  simp [beginWrite, hrun, hp, hw]

theorem writeDone_of_performing {s : State} {w : Write} (h : s.store.performing = some w) :
    writeDone s = beginWrite { s with store := { s.store.perform w with performing := none } } := by
  simp [writeDone, h]

theorem Store.setList_waiting (t : Store) (p : Partition) (f : RecordList → RecordList) : (t.setList p f).waiting = t.waiting := by
  cases p <;> rfl

/-- A completed write leaves the queue of those that wait. -/
theorem Store.perform_waiting (t : Store) (w : Write) : (t.perform w).waiting = t.waiting := by
  cases w with
  | record p pos content => exact Store.setList_waiting t p _
  | erase k => rfl
  | bytes k o d => rfl

/-! ## A rewritten list -/

theorem RecordList.mem_rewrite_other (l : RecordList) {pos : Nat} {content : Option StoreRec} (hc : ∀ r, content = some r → r.pos = pos)
    {r : StoreRec} (hr : r.pos ≠ pos) : r ∈ (l.rewrite pos content).recs ↔ r ∈ l.recs := by
  have hnot : r ∉ content.toList := fun h => hr (hc r (Option.mem_toList.1 h))
  simp only [RecordList.rewrite, recordsBefore, recordsFrom, List.mem_append, List.mem_filter, decide_eq_true_eq, hnot, false_or]
  rcases Nat.lt_or_gt_of_ne hr with h | h <;> simp [h, Nat.not_lt_of_gt h]

theorem RecordList.mem_rewrite_same (l : RecordList) {pos : Nat} {content : Option StoreRec} {r : StoreRec} (hr : r.pos = pos) :
    r ∈ (l.rewrite pos content).recs ↔ content = some r := by
  simp [RecordList.rewrite, recordsBefore, recordsFrom, hr]

/-- R42: a rewrite keeps the order of the positions. -/
theorem RecordList.rewrite_pairwise (l : RecordList) {pos : Nat} {content : Option StoreRec} (hc : ∀ r, content = some r → r.pos = pos)
    (h : l.recs.Pairwise (fun a b => a.pos < b.pos)) : (l.rewrite pos content).recs.Pairwise (fun a b => a.pos < b.pos) := by
  have hbefore : ∀ a ∈ recordsBefore l.recs pos, a.pos < pos := fun a ha => by simpa using (List.mem_filter.1 ha).2
  have hafter : ∀ a ∈ l.recs.filter (fun r => decide (pos < r.pos)), pos < a.pos := fun a ha => by simpa using (List.mem_filter.1 ha).2
  have hcontent : ∀ a ∈ content.toList, a.pos = pos := fun a ha => hc a (Option.mem_toList.1 ha)
  refine List.pairwise_append.2 ⟨h.filter _, List.pairwise_append.2 ⟨?_, h.filter _, ?_⟩, ?_⟩
  · cases content <;> simp
  · exact fun a ha b hb => (hcontent a ha).trans_lt (hafter b hb)
  · intro a ha b hb
    rcases List.mem_append.1 hb with hb | hb
    · exact (hbefore a ha).trans_eq (hcontent b hb).symm
    · exact (hbefore a ha).trans (hafter b hb)

/-! ## The staging bytes -/

theorem Memory.read_writeBytes_other (l : List Byte) (m : List Host.Cell) (i a : Nat) (hm : Memory.wf m) (ha : a < i ∨ i + l.length ≤ a) :
    Memory.read (Memory.writeBytes m i l) a = Memory.read m a := by
  induction l generalizing m i with
  | nil => rfl
  | cons x rest ih =>
    rw [List.length_cons] at ha
    rw [Memory.writeBytes, ih _ (i + 1) (Memory.wf_write m i x hm) (by omega), Memory.read_write_other m i a x hm (by omega)]

theorem Memory.read_writeBytes (l : List Byte) (m : List Host.Cell) (i j : Nat) (hm : Memory.wf m) (hj : j < l.length) :
    Memory.read (Memory.writeBytes m i l) (i + j) = l[j] := by
  induction l generalizing m i j with
  | nil => exact absurd hj (Nat.not_lt_zero j)
  | cons x rest ih =>
    rw [Memory.writeBytes]
    cases j with
    | zero =>
      rw [Memory.read_writeBytes_other rest _ (i + 1) (i + 0) (Memory.wf_write m i x hm) (by omega)]
      exact Memory.read_write_same m i x hm
    | succ j =>
      have hrest : j < rest.length := Nat.lt_of_succ_lt_succ hj
      rw [show i + (j + 1) = i + 1 + j by omega, ih _ (i + 1) j (Memory.wf_write m i x hm) hrest]
      rfl

/-- An address that no cell names reads as erased. -/
theorem Memory.read_of_absent (m : List Host.Cell) (a : Nat) (h : ∀ c ∈ m, c.1 ≠ a) : Memory.read m a = erasedByte := by
  induction m with
  | nil => rfl
  | cons c rest ih =>
    rw [Memory.read, if_neg (h c List.mem_cons_self)]
    exact ih fun d hd => h d (List.mem_cons_of_mem c hd)

/-- Cells dropped elsewhere do not matter to a read. -/
theorem Memory.read_filter (m : List Host.Cell) (p : Host.Cell → Bool) (a : Nat) (h : ∀ c ∈ m, c.1 = a → p c = true) :
    Memory.read (m.filter p) a = Memory.read m a := by
  induction m with
  | nil => rfl
  | cons c rest ih =>
    have hrest := ih fun d hd => h d (List.mem_cons_of_mem c hd)
    by_cases hp : p c = true
    · rw [List.filter_cons_of_pos hp, Memory.read, Memory.read, hrest]
    · have hc : c.1 ≠ a := fun e => hp (h c List.mem_cons_self e)
      rw [List.filter_cons_of_neg hp, hrest, Memory.read, if_neg hc]

theorem Memory.read_eraseSlot_inside (m : List Host.Cell) (k : Fin 4) (o : Nat) (ho : o < 524288) :
    Memory.read (Memory.eraseSlot m k) (stagingAddr k o) = erasedByte := by
  refine Memory.read_of_absent _ _ fun c hc e => ?_
  have hp := (List.mem_filter.1 hc).2
  rw [e, Bool.or_eq_true, decide_eq_true_eq, decide_eq_true_eq] at hp
  unfold stagingAddr slotSize at hp
  omega

theorem Memory.read_eraseSlot_outside (m : List Host.Cell) (k : Fin 4) (a : Nat) (ha : a < stagingAddr k 0 ∨ stagingAddr k 524288 ≤ a) :
    Memory.read (Memory.eraseSlot m k) a = Memory.read m a := by
  refine Memory.read_filter m _ a fun c _ e => ?_
  rw [e, Bool.or_eq_true, decide_eq_true_eq, decide_eq_true_eq]
  exact ha

/-! ## Reads through the write service (R44) -/

/-- The writes that a read looks through: the one being performed, then those that wait. -/
def Store.outstanding (t : Store) : List Write := t.performing.toList ++ t.waiting

theorem beginWrite_outstanding (s : State) :
    (beginWrite s).store.outstanding = s.store.outstanding ∧ (beginWrite s).store.staging = s.store.staging := by
  unfold beginWrite
  split
  · next hp hw => simp [Store.outstanding, hp, hw]
  · exact ⟨rfl, rfl⟩

theorem Store.stagingRead_eq (t : Store) (k : Fin 4) (o : Nat) : t.stagingRead k o =
    ((t.outstanding.reverse.findSome? (Write.byteOf k o)).getD (Memory.read t.staging (stagingAddr k o))) := by
  unfold Store.stagingRead Store.outstanding
  cases List.findSome? (Write.byteOf k o) (t.performing.toList ++ t.waiting).reverse <;> rfl

/-- The latest write is asked first. -/
theorem storeStaging_read (x : Write) (s : State) (k : Fin 4) (o : Nat) :
    (storeStaging x s).store.stagingRead k o = (Write.byteOf k o x).getD (s.store.stagingRead k o) := by
  obtain ⟨hout, hstaging⟩ := beginWrite_outstanding { s with store := { s.store with waiting := s.store.waiting ++ [x] } }
  have hlist : (storeStaging x s).store.outstanding = s.store.outstanding ++ [x] := by
    rw [storeStaging, hout]
    simp [Store.outstanding]
  have hbytes : (storeStaging x s).store.staging = s.store.staging := hstaging
  rw [Store.stagingRead_eq, Store.stagingRead_eq, hlist, hbytes, List.reverse_append, List.reverse_singleton, List.singleton_append,
    List.findSome?_cons]
  cases Write.byteOf k o x <;> rfl

/-- Settles O17: the turn of the writes, what each form performs, a rewritten list, the staging bytes, and a read through the queue. -/
theorem storeWritesArePerformedInTurn : Obligations.StoreWritesArePerformedInTurn := by
  refine ⟨fun s w hrun hp => ⟨fun hw => ?_, fun x rest hw => ?_⟩, fun t => ⟨fun pos content => ⟨rfl, rfl, rfl, rfl⟩, fun k => rfl, fun k o d => rfl⟩,
    fun l pos content hc => ⟨rfl, fun r hr => l.mem_rewrite_other hc hr, fun r hr => l.mem_rewrite_same hr, l.rewrite_pairwise hc⟩,
    fun m hm => ⟨fun i l => ⟨Memory.wf_writes l m i hm, fun j hj => Memory.read_writeBytes l m i j hm hj, fun a ha =>
      Memory.read_writeBytes_other l m i a hm ha⟩, fun k => ⟨Memory.wf_erase m k hm, Memory.read_eraseSlot_inside m k, Memory.read_eraseSlot_outside m k⟩⟩,
    fun s k o d => ⟨fun i hi => ?_, fun j i hi => ?_⟩⟩
  · refine completes_whileOn (by rw [hrun]; decide) rfl ?_
    rw [writeDone_of_performing hp, beginWrite_of_empty ((Store.perform_waiting _ w).trans hw)]
    exact pump_sameButSending _
  · refine completes_whileOn (by rw [hrun]; decide) rfl ?_
    rw [writeDone_of_performing hp, beginWrite_of_waiting
      (s := { s with store := { s.store.perform w with performing := none } }) hrun rfl ((Store.perform_waiting _ w).trans hw)]
    exact pump_sameButSending _
  · have hbyte : Write.byteOf k (o + i) (.bytes k o d) = some d[i] := by simp [Write.byteOf, hi]
    rw [storeStaging_read, hbyte]
    rfl
  · have hbyte : Write.byteOf j i (.bytes k o d) = none := by
      simp only [Write.byteOf]
      split
      · next h =>
        obtain ⟨rfl, ho⟩ := h
        exact List.getElem?_eq_none (by have := hi.resolve_left (fun h => h rfl); omega)
      · rfl
    rw [storeStaging_read, hbyte]
    rfl

end Sys2Proof.Machine

/-! Start-ups and the loss of power (R22, R192): the volatile records cleared, the contacts read. -/

namespace Sys2Proof.Machine

open Sys2Proof

/-! ## A bay that leaves EMPTY at the reading of its contacts -/

/-- What entry to SETTLING leaves of a bay's other records, where no condition of the bay is true. -/
def settled (b : BayId) (s : State) : State := heatGone b (emptyQueue b
  ((s.setMon b (fun m => { m with service := none })).setClean b (fun c => { c with baseline := none })))

theorem setCondition_of_same {b : BayId} {k : EventKind} {v : Bool} {s : State} (h : condition s b k = v) : setCondition b k v s = s := if_pos h

theorem setBayState_settling_of_empty {b : BayId} {cause : BayCause} {s : State} (hs : s.reg[b].state = .empty)
    (hc : condition s b .ovenFault = false) : setBayState b .settling cause s =
      settled b (queueNotice .bay [bayTok b, wd BayState.settling.word, wd cause.word] (s.setReg b (fun r => { r with state := .settling }))) := by
  have hcond : ∀ k f u, condition u b .ovenFault = false → setCondition b .ovenFault false (queueNotice k f u) = queueNotice k f u :=
    fun k f u hu => setCondition_of_same (by simpa [condition] using hu)
  rw [setBayState, if_neg (by rw [hs]; decide), hs]
  simp only [leaveState, enterState, ovenSilent, settled]
  rw [hcond]
  exact hc

/-- The start-up at the reading of its contacts: what stands at its start value whatever contacts have been read. -/
structure Reading (s u : State) (c : Cause) : Prop where
  phase : u.phase = .loading c
  now : u.now = 0
  pins : u.pins = s.pins
  pending : u.pending = s.pending
  clock : u.clock = s.clock
  store : u.store = { s.store with performing := none, waiting := [] }
  reg : ∀ b : BayId, u.reg[b].activity = .nothing ∧ u.reg[b].commission = none
  mon : ∀ b : BayId, u.mon.bays[b].hold = .nothing ∧ u.mon.bays[b].releasePending = false ∧ u.mon.bays[b].conds = table 16 false
  clean : ∀ b : BayId, u.clean[b].record = none ∧ u.clean[b].pendingWindow = none ∧ u.clean[b].hygiene = .initial
  heat : u.heat.limit = 4000 ∧ u.heat.idleTime = 30
  settings : u.mon.settings = defaultSettings
  library : u.lib = .initial
  runs : u.runs = .initial
  schedule : u.sched = .initial
  distributor : u.dist = .initial
  calls : u.mon.calls = [] ∧ u.mon.lanes = table 2 none ∧ u.mon.nextCall = 1
  line : ∀ b : BayId, u.line.bays[b].queue = [] ∧ u.line.bays[b].misses = 0 ∧ u.line.bays[b].grace = none
  request : u.host.inHand = none ∧ u.host.waiting = none ∧ u.host.lost = 0 ∧ u.host.restarting = .no ∧ u.host.tx = .idle
  lineFeed : u.host.sent = .lineFeed :: s.host.sent

theorem beginLoad_reading (c : Cause) (s : State) : Reading s (beginLoad c s) c where
  phase := rfl
  now := rfl
  pins := rfl
  pending := rfl
  clock := rfl
  store := rfl
  reg b := by simp [beginLoad, clearVolatile, State.reset, RegBay.initial]
  mon b := by simp [beginLoad, clearVolatile, State.reset, Monitor.initial, MonBay.initial]
  clean b := by simp [beginLoad, clearVolatile, State.reset, CleanBay.initial]
  heat := ⟨rfl, rfl⟩
  settings := rfl
  library := rfl
  runs := rfl
  schedule := rfl
  distributor := rfl
  calls := ⟨rfl, rfl, rfl⟩
  line b := by simp [beginLoad, clearVolatile, State.reset, LineCtl.initial, LineBay.initial]
  request := ⟨rfl, rfl, rfl, rfl, rfl⟩
  lineFeed := rfl

/-- A change of a Registry record that leaves the activity and the commission record alone. -/
theorem Reading.setReg {s u : State} {c : Cause} (h : Reading s u c) (b : BayId) (f : RegBay → RegBay)
    (hf : ∀ r, (f r).activity = r.activity ∧ (f r).commission = r.commission) : Reading s (u.setReg b f) c :=
  { h with
    reg := fun d => by
      simp only [State.setReg_reg, upd_get]
      split
      · next e => subst e; rw [(hf _).1, (hf _).2]; exact h.reg _
      · exact h.reg d }

theorem Reading.queueNotice {s u : State} {c : Cause} (h : Reading s u c) (k : NoticeKind) (f : List Tok) :
    Reading s (queueNotice k f u) c := by
  unfold Machine.queueNotice
  dsimp only
  split <;> exact { h with }

theorem Reading.settled {s u : State} {c : Cause} (h : Reading s u c) (b : BayId) : Reading s (settled b u) c := by
  unfold Machine.settled heatGone emptyQueue
  refine { h with mon := fun d => ?_, clean := fun d => ?_, line := fun d => ?_ }
  · simp only [State.setHeat_mon, State.setLine_mon, State.setClean_mon, State.setMon_mon, upd_get]
    split
    · next e => subst e; exact h.mon _
    · exact h.mon d
  · simp only [State.setHeat_clean, State.setLine_clean, State.setClean_clean, State.setMon_clean, upd_get]
    split
    · next e => subst e; exact h.clean _
    · exact h.clean d
  · simp only [State.setHeat_line, State.setLine_line, State.setClean_line, State.setMon_line, upd_get]
    split
    · next e => subst e; exact ⟨rfl, (h.line d).2⟩
    · exact h.line d

theorem Reading.condition {s u : State} {c : Cause} (h : Reading s u c) (b : BayId) (k : EventKind) : condition u b k = false := by
  have hc := (h.mon b).2.2
  simp only [Machine.condition, hc]
  exact table_get 16 false _ k.slot.isLt

theorem Reading.setBayState {s u : State} {c : Cause} (h : Reading s u c) {b : BayId} (hb : u.reg[b].state = .empty) (cause : BayCause) :
    Reading s (setBayState b .settling cause u) c := by
  rw [setBayState_settling_of_empty hb (h.condition b .ovenFault)]
  exact ((h.setReg b (fun r => { r with state := .settling }) (fun _ => ⟨rfl, rfl⟩)).queueNotice _ _).settled b

theorem setReg_initial {u : State} {b : BayId} (f : RegBay → RegBay) (h : u.reg[b] = .initial) : (u.setReg b f).reg[b] = f .initial := by
  rw [State.setReg_reg, upd_same, h]

/-- R4: what becoming PRESENT at `now` makes of a bay's record before its state changes. -/
def RegBay.nowPresent (now : Nat) (r : RegBay) : RegBay :=
  { r with presence := .present, settleDue := some (now + 2000), partialDue := none, settled := false }

/-- R5: what becoming PARTIAL makes of a bay's record before its state changes. -/
def RegBay.nowPartly (r : RegBay) : RegBay := { r with presence := .partly }

theorem becomePresent_eq (b : BayId) (s : State) : becomePresent b s =
    setCondition b .presencePartial false (setBayState b .settling .present (s.setReg b (RegBay.nowPresent s.now))) := rfl

/-- R5: an oven that was not seated leaves nothing to tear down. -/
theorem becomePartial_of_not_present {b : BayId} {s : State} (h : s.reg[b].presence ≠ .present) : becomePartial b s =
    (setBayState b .settling .partly (s.setReg b RegBay.nowPartly)).setReg b
      (fun x => { x with identity := none, partialDue := some (s.now + 2000), settleDue := none, settled := false }) := by
  have hc : ¬ (s.reg[b].presence = .present ∧ s.reg[b].state ≠ .settling) := fun hc => h hc.1
  rw [becomePartial, if_neg hc]
  rfl

/-- R22: the reading of an unread bay's contacts. -/
theorem Reading.readContacts {s u : State} {c : Cause} (h : Reading s u c) {b : BayId} (hb : u.reg[b] = .initial) :
    Reading s (Machine.readContacts b u) c := by
  by_cases hp : u.reg[b].presence = (u.pins[b]).classify
  · rw [readContacts_of_same hp]
    exact h
  · rw [readContacts_of_changed hp]
    cases hcl : (u.pins[b]).classify with
    | absent => rw [hb, hcl] at hp; exact absurd rfl hp
    | present =>
      have hset := (h.setReg b (RegBay.nowPresent u.now) (fun _ => ⟨rfl, rfl⟩)).setBayState
        (congrArg RegBay.state (setReg_initial _ hb)) .present
      rw [changePresence, becomePresent_eq, setCondition_of_same (hset.condition b _)]
      exact hset
    | partly =>
      have hset := (h.setReg b RegBay.nowPartly (fun _ => ⟨rfl, rfl⟩)).setBayState (congrArg RegBay.state (setReg_initial _ hb)) .partly
      rw [changePresence, becomePartial_of_not_present (by rw [hb]; decide)]
      exact hset.setReg b _ (fun _ => ⟨rfl, rfl⟩)

/-! ## One bay after another -/

theorem queueNotice_reg (k : NoticeKind) (f : List Tok) (s : State) : (queueNotice k f s).reg = s.reg := by simp

theorem setBayState_settling_reg {b : BayId} {cause : BayCause} {s : State} (hs : s.reg[b].state = .empty)
    (hc : condition s b .ovenFault = false) :
    (setBayState b .settling cause s).reg = upd s.reg b (fun r => { r with state := .settling }) := by
  rw [setBayState_settling_of_empty hs hc]
  simp [settled, heatGone, emptyQueue]

/-- At a start-up the reading of one bay's contacts leaves the other bays unread. -/
theorem Reading.readContacts_reg {s u : State} {c : Cause} (h : Reading s u c) {b : BayId} (hb : u.reg[b] = .initial) :
    (∀ d : BayId, d ≠ b → (Machine.readContacts b u).reg[d] = u.reg[d]) ∧ (Machine.readContacts b u).reg[b].presence = (s.pins[b]).classify := by
  have hpins : u.pins[b] = s.pins[b] := by rw [h.pins]
  by_cases hp : u.reg[b].presence = (u.pins[b]).classify
  · rw [readContacts_of_same hp]
    exact ⟨fun _ _ => rfl, by rw [hp, hpins]⟩
  · have hrec := changePresence_records b (u.pins[b]).classify u
    rw [readContacts_of_changed hp]
    refine ⟨fun d hd => ?_, by rw [hrec.own, hpins]⟩
    cases hcl : (u.pins[b]).classify with
    | absent => rw [hb, hcl] at hp; exact absurd rfl hp
    | present =>
      have hk := h.setReg b (RegBay.nowPresent u.now) (fun _ => ⟨rfl, rfl⟩)
      have hstate := congrArg RegBay.state (setReg_initial (RegBay.nowPresent u.now) hb)
      rw [changePresence, becomePresent_eq, setCondition_of_same ((hk.setBayState hstate .present).condition b _),
        setBayState_settling_reg hstate (hk.condition b _), upd_other _ _ _ _ hd]
      exact upd_other _ _ _ _ hd
    | partly =>
      have hk := h.setReg b RegBay.nowPartly (fun _ => ⟨rfl, rfl⟩)
      have hstate := congrArg RegBay.state (setReg_initial RegBay.nowPartly hb)
      rw [changePresence, becomePartial_of_not_present (by rw [hb]; decide), State.setReg_reg, upd_other _ _ _ _ hd,
        setBayState_settling_reg hstate (hk.condition b _), upd_other _ _ _ _ hd]
      exact upd_other _ _ _ _ hd

theorem Reading.each {s : State} {c : Cause} (l : List BayId) (hl : l.Nodup) (u : State) (h : Reading s u c)
    (hunread : ∀ b ∈ l, u.reg[b] = .initial) (hread : ∀ b ∉ l, u.reg[b].presence = (s.pins[b]).classify) :
    Reading s (u.each l Machine.readContacts) c ∧ ∀ b : BayId, (u.each l Machine.readContacts).reg[b].presence = (s.pins[b]).classify := by
  induction l generalizing u with
  | nil => exact ⟨h, fun b => hread b List.not_mem_nil⟩
  | cons b l ih =>
    obtain ⟨hb, hl⟩ := List.nodup_cons.1 hl
    have hinit := hunread b List.mem_cons_self
    obtain ⟨hothers, hown⟩ := h.readContacts_reg hinit
    refine ih hl _ (h.readContacts hinit) (fun d hd => ?_) (fun d hd => ?_)
    · rw [hothers d fun e => hb (e ▸ hd)]
      exact hunread d (List.mem_cons_of_mem b hd)
    · by_cases hdb : d = b
      · subst hdb; exact hown
      · rw [hothers d hdb]
        exact hread d fun hmem => (List.mem_cons.1 hmem).elim hdb hd

theorem startUp_reading (c : Cause) (s : State) :
    Reading s (startUp c s) c ∧ ∀ b : BayId, (startUp c s).reg[b].presence = (s.pins[b]).classify := by
  refine Reading.each allBays (by decide) (beginLoad c s) (beginLoad_reading c s) (fun b _ => ?_) (fun b hb => ?_)
  · exact table_get 12 RegBay.initial b.val b.isLt
  · exact absurd (by fin_cases b <;> decide) hb

/-- A start-up leaves what `StartedUp` lists, whatever it started from; the flash and the backup domain are kept. -/
theorem startUp_startedUp {c : Cause} {s s0 : State} (hpins : s.pins = s0.pins) (hpending : s.pending = s0.pending) (hsent : s.host.sent = s0.host.sent) :
    StartedUp s0 (pump (startUp c s)) c ∧ (pump (startUp c s)).clock = s.clock ∧
      (pump (startUp c s)).store = { s.store with performing := none, waiting := [] } := by
  obtain ⟨h, hpresence⟩ := startUp_reading c s
  obtain ⟨hin, hwait, hlost, hrest, htx⟩ := h.request
  have hpump : pump (startUp c s) = startUp c s := by simp [pump, htx, hin, h.phase]
  rw [hpump]
  refine ⟨?_, h.clock, h.store⟩
  exact
    { phase := h.phase, now := h.now, pins := h.pins.trans hpins, pending := h.pending.trans hpending
      presence := fun b => (hpresence b).trans (by rw [hpins])
      activity := fun b => (h.reg b).1
      commission := fun b => ⟨(h.reg b).2, (h.mon b).1, (h.mon b).2.1⟩
      hygiene := h.clean
      site := ⟨h.heat.1, h.heat.2, by rw [h.runs]; rfl⟩
      settings := h.settings, library := h.library, runs := h.runs, schedule := h.schedule, distributor := h.distributor
      calls := ⟨h.calls.1, fun l => by rw [h.calls.2.1]; exact table_get 2 none l.val l.isLt⟩
      line := h.line
      writes := by rw [h.store]; exact ⟨rfl, rfl⟩
      request := ⟨hin, hwait, hlost, hrest⟩
      lineFeed := h.lineFeed.trans (by rw [hsent]) }

/-- A start-up leaves nothing of a cut store's queue. -/
theorem Store.cut_queue (t : Store) (c : Cut) : { t.cut c with performing := none, waiting := [] } = t.cut c := rfl

theorem checkBackup_kept {c : Backup} (h : c.lossSeen = false) : checkBackup c = c := by simp [checkBackup, h]

theorem checkBackup_lost {c : Backup} (h : c.lossSeen = true) : (checkBackup c).valid = false ∧ (checkBackup c).cal = .initial := by
  simp [checkBackup, h, Backup.initial]

theorem restartDrained_of_drained {s : State} {d : Nat} (hr : s.host.restarting = .waiting d) (hp : s.store.performing = none)
    (hw : s.store.waiting = []) : restartDrained s = startUp .request s := by
  simp [restartDrained, hr, hp, hw]

theorem restartExpires_of_due {s : State} {d : Nat} (hr : s.host.restarting = .waiting d) (hd : d ≤ s.now) (cut : Cut) :
    restartExpires cut s = startUp .request (cutStore cut s) := by
  simp [restartExpires, hr, hd]

/-- Settles O15: the four start-ups by `startUp_startedUp`; the losses of supply read off their own definitions. -/
theorem startUpsClearTheVolatileRecords : Obligations.StartUpsClearTheVolatileRecords := by
  intro s cut
  refine ⟨?_, fun hon => ?_, fun d hon hr hp hw => ?_, fun d hon hr hd => ?_, ?_, ?_⟩
  · obtain ⟨hstart, hclock, -⟩ := startUp_startedUp (c := .powerOn) (s := { s with clock := checkBackup s.clock }) (s0 := s) rfl rfl rfl
    refine ⟨_, rfl, hstart, fun h => hclock.trans (checkBackup_kept h), fun h => ?_⟩
    rw [hclock]
    exact checkBackup_lost h
  · refine completes_whileOn hon rfl ?_
    obtain ⟨hstart, hclock, hstore⟩ := startUp_startedUp (c := .pin) (s := cutStore cut s) (s0 := s) rfl rfl rfl
    exact ⟨hstart, hclock, hstore⟩
  · refine completes_whileOn hon rfl ?_
    rw [restartDrained_of_drained hr hp hw]
    obtain ⟨hstart, hclock, hstore⟩ := startUp_startedUp (c := .request) (s := s) (s0 := s) rfl rfl rfl
    exact ⟨hstart, hclock, hstore.trans (by rw [← hp, ← hw])⟩
  · refine completes_whileOn hon rfl ?_
    rw [restartExpires_of_due hr hd]
    obtain ⟨hstart, hclock, hstore⟩ := startUp_startedUp (c := .request) (s := cutStore cut s) (s0 := s) rfl rfl rfl
    exact ⟨hstart, hclock, hstore⟩
  · exact ⟨_, rfl, rfl, rfl, rfl, rfl, rfl, rfl, rfl, rfl, rfl, rfl⟩
  · exact ⟨_, rfl, rfl, rfl⟩

end Sys2Proof.Machine


/-! SUPPORT. The parts of the state that an operation may change: `Touches m s t` says that from `s` to `t` only the parts named by `m` have
changed, that notices were only added, and that the call table was kept. One lemma per operation; a proof about an operation then reads off what
the operation leaves alone. -/

namespace Sys2Proof.Machine

set_option Elab.async false

open Sys2Proof

/-! ## The parts -/

/-- Parts of the state, each present where it may change. -/
structure Parts where
  /-- The Registry's record of a bay, but for its activity. -/
  reg : BayId → Prop := fun _ => False
  /-- The activity of a bay. -/
  claim : BayId → Prop := fun _ => False
  /-- The order queue of a bay, its held orders and its next id. -/
  line : BayId → Prop := fun _ => False
  /-- Orders of a kind that stand in the queue of a bay may leave it. -/
  drops : BayId → OrderKind → Prop := fun _ _ => False
  /-- The miss count, the apply-grace deadline and the LOST timer of a bay. -/
  grace : BayId → Prop := fun _ => False
  /-- They may change otherwise than by the placement of a held APPLY-GO, or an APPLY-GO may come to be held. -/
  go : BayId → Prop := fun _ => False
  /-- The miss count of a bay may change otherwise than by a valid answer. -/
  misses : BayId → Prop := fun _ => False
  store : Prop := False
  lib : Prop := False
  sched : Prop := False
  /-- The run record of a bay. -/
  run : BayId → Prop := fun _ => False
  /-- What of a bay's run the placement of its orders does not record. -/
  runEnd : BayId → Prop := fun _ => False
  /-- The demand, the idle reference, standby requested, the door and the due entries of a bay. -/
  heat : BayId → Prop := fun _ => False
  /-- The allowances, classes, sent values and starvation of all bays, and the rotation pointers. -/
  shares : Prop := False
  /-- The cleaning record of a bay. -/
  cleaning : BayId → Prop := fun _ => False
  /-- What of a bay's cleaning the placement of its orders does not record. -/
  cleanEnd : BayId → Prop := fun _ => False
  hygiene : BayId → Prop := fun _ => False
  /-- The pending window cleaning, the dose baseline and the cabinet temperature of a bay. -/
  clean : BayId → Prop := fun _ => False
  /-- The latches and the fault code of a bay. -/
  latch : BayId → Prop := fun _ => False
  /-- Latches of a bay may be cleared. -/
  clears : BayId → Prop := fun _ => False
  /-- The conditions of a bay. -/
  cond : BayId → Prop := fun _ => False
  /-- The local mode, the deferred take and the hold of a bay. -/
  hold : BayId → Prop := fun _ => False
  /-- The call queue and the lanes. -/
  calls : Prop := False
  /-- The block flow of a channel. -/
  flow : Fin 4 → Prop := fun _ => False
  /-- The state, the settings, the current bay and the progress of a channel. -/
  chan : Fin 4 → Prop := fun _ => False
  /-- Final entries of a channel may change. -/
  opens : Fin 4 → Prop := fun _ => False
  slots : Prop := False
  /-- The heater demand of a bay; free, like the two below, where nothing asks for it. -/
  demand : BayId → Prop := fun _ => True
  /-- The dose baseline and the cabinet temperature of a bay. -/
  sensed : BayId → Prop := fun _ => True
  /-- A SAFE at the head of a bay's queue may leave it. -/
  first : BayId → Prop := fun _ => True

/-! ## What a record's part holds -/

/-- A run, but for what the placement of its orders records. -/
def Run.job (r : Run) : Run := { r with orderedId := none, setpoint := 0 }

/-- A cleaning, but for what the placement of its orders records. -/
def CleanRec.job (c : CleanRec) : CleanRec := { c with orderedId := none }

/-- What of a channel the block flow does not change. -/
def Channel.job (x : Channel) : ChannelState × Bool × Fin 4 × List BayId × Bool × Bool × Option BayId × Vector Progress 12 :=
  (x.state, x.masked, x.slot, x.group, x.demand, x.windowRequired, x.current, x.progress)

/-- The orders of a bay's line. -/
def LineBay.orders (l : LineBay) : List Order × List HeldOrder × Nat := (l.queue, l.held, l.nextId)

/-- The counts and timers of a bay's line. -/
def LineBay.timers (l : LineBay) : Nat × Option Nat × Nat × Bool := (l.misses, l.grace, l.lostFrom, l.lostDue)

/-- No APPLY-GO is held for a bay. -/
def NoGoHeld (l : LineBay) : Prop := ∀ h ∈ l.held, h.body.kind ≠ .applyGo

/-- The entry of a bay is final, and the bay is not the current one of the channel. -/
def Channel.past (x : Channel) (b : BayId) : Prop := x.progress[b].settled = true ∧ x.current ≠ some b

/-- What the other blocks hand to the Allocator for a bay. -/
def HeatBay.usage (h : HeatBay) : Bool × Option Nat × Bool × Option Bool × List (Fin 24) :=
  (h.demand, h.idleRef, h.standbyRequested, h.prevDoor, h.due)

/-- What a recompute makes of a bay. -/
def HeatBay.share (h : HeatBay) : Nat × Option HeatClass × Option Nat × Option Nat × Bool × Option Nat :=
  (h.allowance, h.cls, h.sent, h.zeroSince, h.starvedReported, h.starveDue)

/-- The Sequencer's record of a bay but for its cleaning and its hygiene. -/
def CleanBay.rest (c : CleanBay) : Option PendingClean × Option Nat × Option Int := (c.pendingWindow, c.baseline, c.cabinet)

/-- What the last status record of a bay has shown to the Sequencer. -/
def CleanBay.sensed (c : CleanBay) : Option Nat × Option Int := (c.baseline, c.cabinet)

/-- A SAFE stands at the head of the queue. -/
def SafeAhead (q : List Order) : Prop := q.head?.map Order.body = some .safe

/-- A bay's mode and hold. -/
def MonBay.mode (x : MonBay) : Option Bool × Bool × HoldKind × Bool × List Nat := (x.service, x.takeDeferred, x.hold, x.releasePending, x.causes)

/-- From `s` to `t` only the parts of `m` have changed; the line's cycle, the settings, the clock and the Host Link's reply are kept, notices are only
added, orders of no coalescing kind leave a queue and set latches are cleared only by leave, and the call table is kept. -/
structure Touches (m : Parts) (s t : State) : Prop where
  phase : t.phase = s.phase
  now : t.now = s.now
  pins : t.pins = s.pins
  clock : t.clock = s.clock
  host : t.host = { s.host with notices := t.host.notices, overflow := t.host.overflow }
  notices : s.host.notices <+: t.host.notices
  overflow : s.host.overflow.isSome = true → t.host.overflow.isSome = true
  cycle : t.line = { s.line with bays := t.line.bays }
  runSite : t.runs.doorGrace = s.runs.doorGrace
  heatSite : t.heat = { s.heat with bays := t.heat.bays, ptr := t.heat.ptr }
  settings : t.mon.settings = s.mon.settings
  reg : ∀ b : BayId, ¬ m.reg b → t.reg[b] = { s.reg[b] with activity := t.reg[b].activity }
  claim : ∀ b : BayId, ¬ m.claim b → t.reg[b].activity = s.reg[b].activity
  line : ∀ b : BayId, ¬ m.line b → t.line.bays[b].orders = s.line.bays[b].orders
  stays : ∀ b : BayId, ∀ o ∈ s.line.bays[b].queue, ¬ m.drops b o.body.kind → o.body.kind.coalesces = false → o ∈ t.line.bays[b].queue
  grace : ∀ b : BayId, ¬ m.grace b → t.line.bays[b].timers = s.line.bays[b].timers
  go : ∀ b : BayId, ¬ m.go b → NoGoHeld s.line.bays[b] → t.line.bays[b].timers = s.line.bays[b].timers ∧ NoGoHeld t.line.bays[b]
  misses : ∀ b : BayId, ¬ m.misses b → t.line.bays[b].misses = s.line.bays[b].misses
  store : ¬ m.store → t.store = s.store
  lib : ¬ m.lib → t.lib = s.lib
  sched : ¬ m.sched → t.sched = s.sched
  run : ∀ b : BayId, ¬ m.run b → t.runs.runs[b] = s.runs.runs[b]
  runEnd : ∀ b : BayId, ¬ m.runEnd b → (t.runs.runs[b]).map Run.job = (s.runs.runs[b]).map Run.job
  heat : ∀ b : BayId, ¬ m.heat b → t.heat.bays[b].usage = s.heat.bays[b].usage
  shares : ¬ m.shares → t.heat.ptr = s.heat.ptr ∧ ∀ b : BayId, t.heat.bays[b].share = s.heat.bays[b].share
  cleaning : ∀ b : BayId, ¬ m.cleaning b → t.clean[b].record = s.clean[b].record
  cleanEnd : ∀ b : BayId, ¬ m.cleanEnd b → (t.clean[b].record).map CleanRec.job = (s.clean[b].record).map CleanRec.job
  hygiene : ∀ b : BayId, ¬ m.hygiene b → t.clean[b].hygiene = s.clean[b].hygiene
  clean : ∀ b : BayId, ¬ m.clean b → t.clean[b].rest = s.clean[b].rest
  latch : ∀ b : BayId, ¬ m.latch b → t.mon.bays[b].latches = s.mon.bays[b].latches ∧ t.mon.bays[b].code = s.mon.bays[b].code
  clears : ∀ b : BayId, ¬ m.clears b → ∀ k : Fin 16, s.mon.bays[b].latches[k].set = true → t.mon.bays[b].latches[k].set = true
  cond : ∀ b : BayId, ¬ m.cond b → t.mon.bays[b].conds = s.mon.bays[b].conds
  hold : ∀ b : BayId, ¬ m.hold b → t.mon.bays[b].mode = s.mon.bays[b].mode
  calls : ¬ m.calls → t.mon.calls = s.mon.calls ∧ t.mon.lanes = s.mon.lanes ∧ t.mon.nextCall = s.mon.nextCall ∧ t.mon.lastBay = s.mon.lastBay
  table : CallTable s → CallTable t
  flow : ∀ c : Fin 4, ¬ m.flow c → t.dist.channels[c] = s.dist.channels[c]
  chan : ∀ c : Fin 4, ¬ m.chan c → t.dist.channels[c].job = s.dist.channels[c].job
  past : ∀ c : Fin 4, ¬ m.opens c → ∀ b : BayId, s.dist.channels[c].past b →
    t.dist.channels[c].progress[b] = s.dist.channels[c].progress[b] ∧ t.dist.channels[c].past b
  slots : ¬ m.slots → t.dist.slots = s.dist.slots
  demand : ∀ b : BayId, ¬ m.demand b → t.heat.bays[b].demand = s.heat.bays[b].demand
  sensed : ∀ b : BayId, ¬ m.sensed b → t.clean[b].sensed = s.clean[b].sensed
  first : ∀ b : BayId, ¬ m.first b → SafeAhead s.line.bays[b].queue → SafeAhead t.line.bays[b].queue

/-- The call table is a matter of the calls, the lanes and the next id alone. -/
theorem CallTable.congr {s t : State} (h : CallTable s) (hc : t.mon.calls = s.mon.calls) (hl : t.mon.lanes = s.mon.lanes)
    (hn : t.mon.nextCall = s.mon.nextCall) : CallTable t := by
  obtain ⟨room, next, range, ids, kinds, lane, free, held, deadline⟩ := h
  constructor <;> simp only [hc, hl, hn] <;> assumption

protected theorem Touches.refl {m : Parts} (s : State) : Touches m s s where
  phase := rfl
  now := rfl
  pins := rfl
  clock := rfl
  host := rfl
  notices := List.prefix_rfl
  overflow := id
  cycle := rfl
  runSite := rfl
  heatSite := rfl
  settings := rfl
  reg _ _ := rfl
  claim _ _ := rfl
  line _ _ := rfl
  stays _ _ h _ _ := h
  grace _ _ := rfl
  go _ _ h := ⟨rfl, h⟩
  misses _ _ := rfl
  store _ := rfl
  lib _ := rfl
  sched _ := rfl
  run _ _ := rfl
  runEnd _ _ := rfl
  heat _ _ := rfl
  shares _ := ⟨rfl, fun _ => rfl⟩
  cleaning _ _ := rfl
  cleanEnd _ _ := rfl
  hygiene _ _ := rfl
  clean _ _ := rfl
  latch _ _ := ⟨rfl, rfl⟩
  clears _ _ _ h := h
  cond _ _ := rfl
  hold _ _ := rfl
  calls _ := ⟨rfl, rfl, rfl, rfl⟩
  table := id
  flow _ _ := rfl
  chan _ _ := rfl
  past _ _ _ h := ⟨rfl, h⟩
  slots _ := rfl
  demand _ _ := rfl
  sensed _ _ := rfl
  first _ _ h := h

protected theorem Touches.trans {m : Parts} {s t u : State} (h : Touches m s t) (k : Touches m t u) : Touches m s u where
  phase := k.phase.trans h.phase
  now := k.now.trans h.now
  pins := k.pins.trans h.pins
  clock := k.clock.trans h.clock
  host := by rw [k.host, h.host]
  notices := h.notices.trans k.notices
  overflow := k.overflow ∘ h.overflow
  cycle := by rw [k.cycle, h.cycle]
  runSite := k.runSite.trans h.runSite
  heatSite := by rw [k.heatSite, h.heatSite]
  settings := k.settings.trans h.settings
  reg b hb := by rw [k.reg b hb, h.reg b hb]
  claim b hb := (k.claim b hb).trans (h.claim b hb)
  line b hb := (k.line b hb).trans (h.line b hb)
  stays b o ho hb hc := k.stays b o (h.stays b o ho hb hc) hb hc
  grace b hb := (k.grace b hb).trans (h.grace b hb)
  go b hb hn := by
    obtain ⟨htimers, hheld⟩ := h.go b hb hn
    obtain ⟨ktimers, kheld⟩ := k.go b hb hheld
    exact ⟨ktimers.trans htimers, kheld⟩
  misses b hb := (k.misses b hb).trans (h.misses b hb)
  store hb := (k.store hb).trans (h.store hb)
  lib hb := (k.lib hb).trans (h.lib hb)
  sched hb := (k.sched hb).trans (h.sched hb)
  run b hb := (k.run b hb).trans (h.run b hb)
  runEnd b hb := (k.runEnd b hb).trans (h.runEnd b hb)
  heat b hb := (k.heat b hb).trans (h.heat b hb)
  shares hb := ⟨(k.shares hb).1.trans (h.shares hb).1, fun b => ((k.shares hb).2 b).trans ((h.shares hb).2 b)⟩
  cleaning b hb := (k.cleaning b hb).trans (h.cleaning b hb)
  cleanEnd b hb := (k.cleanEnd b hb).trans (h.cleanEnd b hb)
  hygiene b hb := (k.hygiene b hb).trans (h.hygiene b hb)
  clean b hb := (k.clean b hb).trans (h.clean b hb)
  latch b hb := ⟨(k.latch b hb).1.trans (h.latch b hb).1, (k.latch b hb).2.trans (h.latch b hb).2⟩
  clears b hb i hi := k.clears b hb i (h.clears b hb i hi)
  cond b hb := (k.cond b hb).trans (h.cond b hb)
  hold b hb := (k.hold b hb).trans (h.hold b hb)
  calls hb := by
    obtain ⟨k1, k2, k3, k4⟩ := k.calls hb
    obtain ⟨h1, h2, h3, h4⟩ := h.calls hb
    exact ⟨k1.trans h1, k2.trans h2, k3.trans h3, k4.trans h4⟩
  table := k.table ∘ h.table
  flow c hc := (k.flow c hc).trans (h.flow c hc)
  chan c hc := (k.chan c hc).trans (h.chan c hc)
  past c hc b hb := by
    obtain ⟨hentry, hpast⟩ := h.past c hc b hb
    obtain ⟨kentry, kpast⟩ := k.past c hc b hpast
    exact ⟨kentry.trans hentry, kpast⟩
  slots hb := (k.slots hb).trans (h.slots hb)
  demand b hb := (k.demand b hb).trans (h.demand b hb)
  sensed b hb := (k.sensed b hb).trans (h.sensed b hb)
  first b hb hs := k.first b hb (h.first b hb hs)

protected theorem Touches.each {α : Type} {m : Parts} {s t : State} (l : List α) (f : α → State → State) (hf : ∀ a ∈ l, ∀ u, Touches m u (f a u))
    (h : Touches m s t) : Touches m s (t.each l f) := by
  induction l generalizing t with
  | nil => exact h
  | cons a l ih =>
    exact ih (fun x hx => hf x (List.mem_cons_of_mem a hx)) (h.trans (hf a List.mem_cons_self t))

/-! ## The state's named updates -/

section
variable {m : Parts} {s t : State}

/-- An entry of an updated table reads as before, but at the place of the update. -/
theorem upd_get_of_ne {α : Type} {n : Nat} {P : Fin n → Prop} {v : Vector α n} {b : Fin n} {f : α → α} (hb : P b) {d : Fin n} (hd : ¬ P d) :
    (upd v b f)[d] = v[d] := upd_other v b d f fun e => hd (e ▸ hb)

/-- A view of an entry that the update keeps reads as before. -/
theorem upd_view {α β : Type} {n : Nat} (g : α → β) (v : Vector α n) (b d : Fin n) (f : α → α) (hf : g (f v[b]) = g v[b]) :
    g (upd v b f)[d] = g v[d] := by
  rw [upd_get]
  split
  · next e => subst e; exact hf
  · rfl

/-- A Registry record changes, but for its activity. -/
protected theorem Touches.setReg (h : Touches m s t) {b : BayId} {f : RegBay → RegBay} (hb : m.reg b) (hf : ∀ r, (f r).activity = r.activity := by intro; rfl) :
    Touches m s (t.setReg b f) :=
  h.trans { Touches.refl t with
    table := fun k => k.congr rfl rfl rfl
    reg := fun d hd => by
      rw [State.setReg_reg, upd_get_of_ne hb hd]
    claim := fun d _ => upd_view RegBay.activity t.reg b d f (hf _) }

/-- An activity changes, and nothing else of its record. -/
protected theorem Touches.setClaim (h : Touches m s t) {b : BayId} {f : RegBay → RegBay} (hb : m.claim b)
    (hf : ∀ r, f r = { r with activity := (f r).activity } := by intro; rfl) : Touches m s (t.setReg b f) :=
  h.trans { Touches.refl t with
    table := fun k => k.congr rfl rfl rfl
    reg := fun d _ => by
      rw [State.setReg_reg, upd_get]
      split
      · next e => subst e; exact hf _
      · rfl
    claim := fun d hd => congrArg RegBay.activity (upd_get_of_ne hb hd) }

/-- A bay's orders change; where orders may not leave its queue, those of no coalescing kind stay. -/
protected theorem Touches.setOrders (h : Touches m s t) {b : BayId} {f : LineBay → LineBay} (hb : m.line b)
    (hstay : ∀ o ∈ t.line.bays[b].queue, m.drops b o.body.kind ∨ (o.body.kind.coalesces = false → o ∈ (f t.line.bays[b]).queue))
    (hf : ∀ l, (f l).timers = l.timers := by intro; rfl)
    (hgo : m.go b ∨ (NoGoHeld t.line.bays[b] → NoGoHeld (f t.line.bays[b])) := by exact .inr fun h => h)
    (hfirst : m.first b ∨ (SafeAhead t.line.bays[b].queue → SafeAhead (f t.line.bays[b]).queue) := by exact .inr fun h => h) :
    Touches m s (t.setLine b f) :=
  h.trans { Touches.refl t with
    table := fun k => k.congr rfl rfl rfl
    cycle := rfl
    line := fun d hd => congrArg LineBay.orders (upd_get_of_ne hb hd)
    stays := fun d o ho hd hc => by
      show o ∈ ((upd t.line.bays b f)[d]).queue
      rw [upd_get]
      split
      · next e => subst e; exact (hstay o ho).elim (absurd · hd) (fun k => k hc)
      · exact ho
    grace := fun d _ => upd_view LineBay.timers t.line.bays b d f (hf _)
    go := fun d hd hn => by
      refine ⟨upd_view LineBay.timers t.line.bays b d f (hf _), ?_⟩
      show NoGoHeld (upd t.line.bays b f)[d]
      rw [upd_get]
      split
      · next e => subst e; exact hgo.elim (absurd · hd) (fun k => k hn)
      · exact hn
    misses := fun d _ => upd_view LineBay.misses t.line.bays b d f (congrArg Prod.fst (hf _))
    first := fun d hd hs => by
      show SafeAhead ((upd t.line.bays b f)[d]).queue
      rw [upd_get]
      split
      · next e => subst e; exact hfirst.elim (absurd · hd) (fun k => k hs)
      · exact hs }

/-- The counts and timers of a bay's line change. -/
protected theorem Touches.setTimers (h : Touches m s t) {b : BayId} {f : LineBay → LineBay} (hb : m.grace b) (hgo : m.go b)
    (hf : ∀ l, (f l).orders = l.orders := by intro; rfl) (hm : m.misses b ∨ ∀ l, (f l).misses = l.misses := by exact .inr fun _ => rfl) :
    Touches m s (t.setLine b f) :=
  h.trans { Touches.refl t with
    table := fun k => k.congr rfl rfl rfl
    cycle := rfl
    line := fun d _ => upd_view LineBay.orders t.line.bays b d f (hf _)
    stays := fun d o ho _ _ => by
      have hq : ((upd t.line.bays b f)[d]).queue = t.line.bays[d].queue :=
        upd_view LineBay.queue t.line.bays b d f (congrArg Prod.fst (hf _))
      exact hq ▸ ho
    grace := fun d hd => congrArg LineBay.timers (upd_get_of_ne hb hd)
    go := fun d hd hn => by
      have hsame : (upd t.line.bays b f)[d] = t.line.bays[d] := upd_get_of_ne hgo hd
      exact ⟨congrArg LineBay.timers hsame, by show NoGoHeld (upd t.line.bays b f)[d]; rw [hsame]; exact hn⟩
    misses := fun d hd => by
      rcases hm with hm | hm
      · exact congrArg LineBay.misses (upd_get_of_ne hm hd)
      · exact upd_view LineBay.misses t.line.bays b d f (hm _)
    first := fun d _ hs => by
      have hq : ((upd t.line.bays b f)[d]).queue = t.line.bays[d].queue :=
        upd_view LineBay.queue t.line.bays b d f (congrArg Prod.fst (hf _))
      exact hq ▸ hs }

/-- A run record changes; where its job may not change, its job is kept. -/
protected theorem Touches.setRun (h : Touches m s t) {b : BayId} {f : Run → Run} (hb : m.run b)
    (hf : m.runEnd b ∨ ∀ r, t.runs.runs[b] = some r → (f r).job = r.job := by exact .inr fun _ _ => rfl) : Touches m s (t.setRun b f) :=
  h.trans { Touches.refl t with
    table := fun k => k.congr rfl rfl rfl
    runSite := rfl
    run := fun d hd => upd_get_of_ne hb hd
    runEnd := fun d hd => by
      show ((upd t.runs.runs b (Option.map f))[d]).map Run.job = _
      rcases hf with hend | hf
      · rw [upd_get_of_ne hend hd]
      · refine upd_view (Option.map Run.job) t.runs.runs b d _ ?_
        rw [Option.map_map]
        exact Option.map_congr fun r hr => hf r hr }

protected theorem Touches.setHeat (h : Touches m s t) {b : BayId} {f : HeatBay → HeatBay} (hb : m.heat b) (hf : ∀ x, (f x).share = x.share := by intro; rfl)
    (hdem : m.demand b ∨ ∀ x, (f x).demand = x.demand := by exact .inr fun _ => rfl) : Touches m s (t.setHeat b f) :=
  h.trans { Touches.refl t with
    table := fun k => k.congr rfl rfl rfl
    heatSite := rfl
    heat := fun d hd => congrArg HeatBay.usage (upd_get_of_ne hb hd)
    shares := fun _ => ⟨rfl, fun d => upd_view HeatBay.share t.heat.bays b d f (hf _)⟩
    demand := fun d hd => by
      rcases hdem with hdem | hdem
      · exact congrArg HeatBay.demand (upd_get_of_ne hdem hd)
      · exact upd_view HeatBay.demand t.heat.bays b d f (hdem _) }

/-- What a recompute may change of a bay. -/
protected theorem Touches.setShare (h : Touches m s t) {b : BayId} {f : HeatBay → HeatBay} (hb : m.shares) (hf : ∀ x, (f x).usage = x.usage := by intro; rfl) :
    Touches m s (t.setHeat b f) :=
  h.trans { Touches.refl t with
    table := fun k => k.congr rfl rfl rfl
    heatSite := rfl
    heat := fun d _ => upd_view HeatBay.usage t.heat.bays b d f (hf _)
    shares := fun hn => absurd hb hn
    demand := fun d _ => upd_view HeatBay.demand t.heat.bays b d f (congrArg Prod.fst (hf _)) }

/-- The Sequencer's record of a bay changes, but for its cleaning and its hygiene. -/
protected theorem Touches.setClean (h : Touches m s t) {b : BayId} {f : CleanBay → CleanBay} (hb : m.clean b)
    (hf : ∀ x, (f x).record = x.record ∧ (f x).hygiene = x.hygiene := by exact fun _ => ⟨rfl, rfl⟩)
    (hsen : m.sensed b ∨ ∀ x, (f x).sensed = x.sensed := by exact .inr fun _ => rfl) : Touches m s (t.setClean b f) :=
  h.trans { Touches.refl t with
    table := fun k => k.congr rfl rfl rfl
    cleaning := fun d _ => upd_view CleanBay.record t.clean b d f (hf _).1
    cleanEnd := fun d _ => congrArg (Option.map CleanRec.job) (upd_view CleanBay.record t.clean b d f (hf _).1)
    hygiene := fun d _ => upd_view CleanBay.hygiene t.clean b d f (hf _).2
    clean := fun d hd => congrArg CleanBay.rest (upd_get_of_ne hb hd)
    sensed := fun d hd => by
      rcases hsen with hsen | hsen
      · exact congrArg CleanBay.sensed (upd_get_of_ne hsen hd)
      · exact upd_view CleanBay.sensed t.clean b d f (hsen _) }

/-- The hygiene record of a bay changes. -/
protected theorem Touches.putHygiene (h : Touches m s t) {b : BayId} {x : Hygiene} (hb : m.hygiene b) :
    Touches m s (t.setClean b (fun c => { c with hygiene := x })) :=
  h.trans { Touches.refl t with
    table := fun k => k.congr rfl rfl rfl
    cleaning := fun d _ => upd_view CleanBay.record t.clean b d _ rfl
    cleanEnd := fun d _ => congrArg (Option.map CleanRec.job) (upd_view CleanBay.record t.clean b d _ rfl)
    hygiene := fun d hd => congrArg CleanBay.hygiene (upd_get_of_ne hb hd)
    clean := fun d _ => upd_view CleanBay.rest t.clean b d _ rfl
    sensed := fun d _ => upd_view CleanBay.sensed t.clean b d _ rfl }

/-- The cleaning record of a bay is made or changed. -/
protected theorem Touches.setCleaning (h : Touches m s t) {b : BayId} {f : CleanBay → CleanBay} (hb : m.cleaning b)
    (hf : ∀ x, (f x).hygiene = x.hygiene ∧ (f x).rest = x.rest)
    (hjob : m.cleanEnd b ∨ (f t.clean[b]).record.map CleanRec.job = (t.clean[b]).record.map CleanRec.job) : Touches m s (t.setClean b f) :=
  h.trans { Touches.refl t with
    table := fun k => k.congr rfl rfl rfl
    cleaning := fun d hd => congrArg CleanBay.record (upd_get_of_ne hb hd)
    cleanEnd := fun d hd => by
      show ((upd t.clean b f)[d]).record.map CleanRec.job = _
      rcases hjob with hend | hjob
      · rw [upd_get_of_ne hend hd]
      · exact upd_view (fun x => x.record.map CleanRec.job) t.clean b d f hjob
    hygiene := fun d _ => upd_view CleanBay.hygiene t.clean b d f (hf _).1
    clean := fun d _ => upd_view CleanBay.rest t.clean b d f (hf _).2
    sensed := fun d _ => upd_view CleanBay.sensed t.clean b d f (congrArg Prod.snd (hf _).2) }

protected theorem Touches.setCleanRec (h : Touches m s t) {b : BayId} {f : CleanRec → CleanRec} (hb : m.cleaning b)
    (hjob : m.cleanEnd b ∨ ∀ x, t.clean[b].record = some x → (f x).job = x.job := by exact .inr fun _ _ => rfl) : Touches m s (t.setCleanRec b f) :=
  h.setCleaning hb (fun _ => ⟨rfl, rfl⟩) (hjob.imp id fun hj => by
    rw [Option.map_map]
    exact Option.map_congr fun x hx => hj x hx)

/-- The latches and the fault code of a bay change; where latches may not be cleared, the set ones stay set. -/
protected theorem Touches.setLatches (h : Touches m s t) {b : BayId} {f : MonBay → MonBay} (hb : m.latch b)
    (hf : ∀ x, (f x).conds = x.conds ∧ (f x).mode = x.mode := by exact fun _ => ⟨rfl, rfl⟩)
    (hset : m.clears b ∨ ∀ k : Fin 16, t.mon.bays[b].latches[k].set = true → (f t.mon.bays[b]).latches[k].set = true) :
    Touches m s (t.setMon b f) :=
  h.trans { Touches.refl t with
    table := fun k => k.congr rfl rfl rfl
    settings := rfl
    latch := fun d hd => ⟨congrArg MonBay.latches (upd_get_of_ne hb hd), congrArg MonBay.code (upd_get_of_ne hb hd)⟩
    clears := fun d hd k hk => by
      show ((upd t.mon.bays b f)[d]).latches[k].set = true
      rw [upd_get]
      split
      · next e => subst e; exact hset.elim (absurd · hd) (fun g => g k hk)
      · exact hk
    cond := fun d _ => upd_view MonBay.conds t.mon.bays b d f (hf _).1
    hold := fun d _ => upd_view MonBay.mode t.mon.bays b d f (hf _).2
    calls := fun _ => ⟨rfl, rfl, rfl, rfl⟩ }

/-- The conditions of a bay change. -/
protected theorem Touches.setConds (h : Touches m s t) {b : BayId} {f : MonBay → MonBay} (hb : m.cond b)
    (hf : ∀ x, (f x).latches = x.latches ∧ (f x).code = x.code ∧ (f x).mode = x.mode := by exact fun _ => ⟨rfl, rfl, rfl⟩) : Touches m s (t.setMon b f) :=
  h.trans { Touches.refl t with
    table := fun k => k.congr rfl rfl rfl
    settings := rfl
    latch := fun d _ => ⟨upd_view MonBay.latches t.mon.bays b d f (hf _).1, upd_view MonBay.code t.mon.bays b d f (hf _).2.1⟩
    clears := fun d _ k hk => by
      have hl : ((upd t.mon.bays b f)[d]).latches = t.mon.bays[d].latches := upd_view MonBay.latches t.mon.bays b d f (hf _).1
      show ((upd t.mon.bays b f)[d]).latches[k].set = true
      rw [hl]; exact hk
    cond := fun d hd => congrArg MonBay.conds (upd_get_of_ne hb hd)
    hold := fun d _ => upd_view MonBay.mode t.mon.bays b d f (hf _).2.2
    calls := fun _ => ⟨rfl, rfl, rfl, rfl⟩ }

/-- The mode or the hold of a bay changes. -/
protected theorem Touches.setMode (h : Touches m s t) {b : BayId} {f : MonBay → MonBay} (hb : m.hold b)
    (hf : ∀ x, (f x).latches = x.latches ∧ (f x).code = x.code ∧ (f x).conds = x.conds := by exact fun _ => ⟨rfl, rfl, rfl⟩) : Touches m s (t.setMon b f) :=
  h.trans { Touches.refl t with
    table := fun k => k.congr rfl rfl rfl
    settings := rfl
    latch := fun d _ => ⟨upd_view MonBay.latches t.mon.bays b d f (hf _).1, upd_view MonBay.code t.mon.bays b d f (hf _).2.1⟩
    clears := fun d _ k hk => by
      have hl : ((upd t.mon.bays b f)[d]).latches = t.mon.bays[d].latches := upd_view MonBay.latches t.mon.bays b d f (hf _).1
      show ((upd t.mon.bays b f)[d]).latches[k].set = true
      rw [hl]; exact hk
    cond := fun d _ => upd_view MonBay.conds t.mon.bays b d f (hf _).2.2
    hold := fun d hd => congrArg MonBay.mode (upd_get_of_ne hb hd)
    calls := fun _ => ⟨rfl, rfl, rfl, rfl⟩ }

protected theorem Touches.setSlot (h : Touches m s t) {k : Fin 4} {f : Slot → Slot} (hm : m.slots) : Touches m s (t.setSlot k f) :=
  h.trans { Touches.refl t with
    table := fun k => k.congr rfl rfl rfl
    flow := fun _ _ => rfl
    chan := fun _ _ => rfl
    slots := fun hn => absurd hm hn }

/-- A channel changes; where only its block flow may, its job is kept. -/
protected theorem Touches.setChannel (h : Touches m s t) {c : Fin 4} {f : Channel → Channel} (hc : m.flow c)
    (hf : m.chan c ∨ ∀ x, (f x).job = x.job := by exact .inr fun _ => rfl)
    (hp : m.opens c ∨ ∀ b : BayId, t.dist.channels[c].past b → (f t.dist.channels[c]).progress[b] = t.dist.channels[c].progress[b] ∧
      (f t.dist.channels[c]).current ≠ some b := by exact .inr fun _ h => ⟨rfl, h.2⟩) :
    Touches m s (t.setChannel c f) :=
  h.trans { Touches.refl t with
    table := fun k => k.congr rfl rfl rfl
    flow := fun d hd => upd_get_of_ne hc hd
    chan := fun d hd => by
      show ((upd t.dist.channels c f)[d]).job = _
      rcases hf with hm | hf
      · rw [upd_get_of_ne hm hd]
      · exact upd_view Channel.job t.dist.channels c d f (hf _)
    past := fun d hd b hb => by
      have hentry : ((upd t.dist.channels c f)[d]).progress[b] = t.dist.channels[d].progress[b] ∧ ((upd t.dist.channels c f)[d]).current ≠ some b := by
        rw [upd_get]
        split
        · next e => subst e; exact hp.elim (absurd · hd) (fun k => k b hb)
        · exact ⟨rfl, hb.2⟩
      exact ⟨hentry.1, by show (((upd t.dist.channels c f)[d]).progress[b]).settled = true; rw [hentry.1]; exact hb.1, hentry.2⟩
    slots := fun _ => rfl }

protected theorem Touches.withLib (h : Touches m s t) (hm : m.lib) (l : Library) : Touches m s { t with lib := l } :=
  h.trans { Touches.refl t with
    table := fun k => k.congr rfl rfl rfl
    lib := fun hn => absurd hm hn }

protected theorem Touches.withSched (h : Touches m s t) (hm : m.sched) (x : Schedule) : Touches m s { t with sched := x } :=
  h.trans { Touches.refl t with
    table := fun k => k.congr rfl rfl rfl
    sched := fun hn => absurd hm hn }

protected theorem Touches.withStore (h : Touches m s t) (hm : m.store) (x : Store) : Touches m s { t with store := x } :=
  h.trans { Touches.refl t with
    table := fun k => k.congr rfl rfl rfl
    store := fun hn => absurd hm hn }

/-! ## Notices, writes and orders -/

protected theorem Touches.queueNotice (h : Touches m s t) (k : NoticeKind) (f : List Tok) : Touches m s (queueNotice k f t) := by
  refine h.trans ?_
  unfold Machine.queueNotice
  dsimp only
  split
  · exact { Touches.refl t with
      table := fun k => k.congr rfl rfl rfl
      host := rfl
      notices := List.prefix_append _ _ }
  · exact { Touches.refl t with
      table := fun k => k.congr rfl rfl rfl
      host := rfl
      overflow := fun _ => by dsimp only; split <;> rfl }

protected theorem Touches.beginWrite (h : Touches m s t) (hm : m.store) : Touches m s (beginWrite t) := by
  rw [beginWrite_eq_withStore]
  exact h.withStore hm _

protected theorem Touches.storeRecord (h : Touches m s t) (hm : m.store) (p : Partition) (pos : Nat) (x : Option StoreRec) :
    Touches m s (storeRecord p pos x t) := by
  rw [storeRecord_eq_withStore]
  exact h.withStore hm _

protected theorem Touches.storePut (h : Touches m s t) (hm : m.store) (r : StoreRec) : Touches m s (storePut r t) := h.storeRecord hm _ _ _

protected theorem Touches.storeSealHeader (h : Touches m s t) (hm : m.store) (k : Fin 4) (x : Header) : Touches m s (storeSealHeader k x t) :=
  (h.withStore hm _).beginWrite hm

protected theorem Touches.storeStaging (h : Touches m s t) (hm : m.store) (x : Write) : Touches m s (storeStaging x t) :=
  (h.withStore hm _).beginWrite hm

/-- What may be recorded for a bay when an order of it is placed. -/
structure Parts.Orders (m : Parts) (b : BayId) : Prop where
  line : m.line b
  grace : m.grace b
  run : m.run b
  cleaning : m.cleaning b
  flow : ∀ c, m.flow c

protected theorem Touches.applyNote (h : Touches m s t) {b : BayId} (hm : m.Orders b) (body : OrderBody) (note : Note) (id : Nat)
    (hgo : m.go b ∨ body.kind ≠ .applyGo) : Touches m s (applyNote b body note id t) := by
  unfold Machine.applyNote
  split
  · exact h.setRun hm.run
  · exact h.setCleanRec hm.cleaning
  · exact h.setChannel (hm.flow _)
  · exact h.setTimers hm.grace (hgo.resolve_right (not_not.mpr rfl))
  · exact h

/-- An order that joins the queue, or takes the place of one of its own coalescing kind, puts out no order of another kind. -/
theorem mem_replaced {q : List Order} {k : OrderKind} (hk : k.coalesces = true) {n o : Order} (ho : o ∈ q) (hc : o.body.kind.coalesces = false) :
    o ∈ q.map (fun x => if x.body.is k then n else x) := by
  refine List.mem_map.2 ⟨o, ho, if_neg ?_⟩
  intro his
  rw [OrderBody.is, decide_eq_true_eq] at his
  rw [his, hk] at hc
  cases hc

/-- An order that is placed stands behind a SAFE. -/
theorem safeAhead_append {q : List Order} (h : SafeAhead q) (r : List Order) : SafeAhead (q ++ r) := by
  cases q with
  | nil => cases h
  | cons o q => exact h

theorem safeAhead_replaced {q : List Order} {k : OrderKind} (hk : k.coalesces = true) {n : Order} (h : SafeAhead q) :
    SafeAhead (q.map (fun x => if x.body.is k then n else x)) := by
  cases q with
  | nil => cases h
  | cons o q =>
    have hsafe : o.body = .safe := Option.some.inj h
    have hnot : ¬ o.body.is k = true := fun his => by
      rw [OrderBody.is, decide_eq_true_eq, hsafe] at his
      rw [← his] at hk
      cases hk
    show ((if o.body.is k = true then n else o) :: _).head?.map Order.body = _
    rw [if_neg hnot]
    exact h

theorem safeAhead_filter {q : List Order} {f : Order → Bool} (hf : ∀ o, o.body = .safe → f o = true) (h : SafeAhead q) : SafeAhead (q.filter f) := by
  cases q with
  | nil => cases h
  | cons o q =>
    rw [List.filter_cons_of_pos (hf o (Option.some.inj h))]
    exact h

theorem mem_holdOrder {n h : HeldOrder} {l : List HeldOrder} (hh : h ∈ holdOrder n l) : h = n ∨ h ∈ l := by
  unfold holdOrder at hh
  dsimp only at hh
  split at hh
  · obtain ⟨x, hx, he⟩ := List.mem_map.1 hh
    split at he
    · exact .inl he.symm
    · exact .inr (he ▸ hx)
  · obtain hh | hh := List.mem_append.1 hh
    · exact .inr hh
    · exact .inl (List.mem_singleton.1 hh)

theorem noGoHeld_holdOrder {l : LineBay} {body : OrderBody} {note : Note} (hk : body.kind ≠ .applyGo) (h : NoGoHeld l) :
    NoGoHeld { l with held := holdOrder { body := body, note := note } l.held } := fun x hx => by
  obtain rfl | hx := mem_holdOrder hx
  · exact hk
  · exact h x hx

/-- R35: an order with nothing to record at its placement touches its bay's orders alone. -/
protected theorem Touches.placeNoted (h : Touches m s t) {b : BayId} (hl : m.line b) (body : OrderBody) (note : Note) (hgo : m.go b ∨ body.kind ≠ .applyGo)
    (hn : ∀ u id, Touches m s u → Touches m s (Machine.applyNote b body note id u)) : Touches m s (placeOrder b body note t) := by
  unfold placeOrder
  split
  · dsimp only
    split
    · next hc =>
      have hco : body.kind.coalesces = true := (Bool.and_eq_true _ _ ▸ hc).1
      exact hn _ _ (h.setOrders hl (fun o ho => .inr fun hk => mem_replaced hco ho hk) (hfirst := .inr fun hs => safeAhead_replaced hco hs))
    · split
      · exact hn _ _ (h.setOrders hl (fun o ho => .inr fun _ => List.mem_append_left _ ho) (hfirst := .inr fun hs => safeAhead_append hs _))
      · exact h.setOrders hl (fun o ho => .inr fun _ => ho) (hgo := hgo.imp id fun hk => noGoHeld_holdOrder hk)
  · exact h

protected theorem Touches.placePlain (h : Touches m s t) {b : BayId} (hl : m.line b) (body : OrderBody)
    (hgo : m.go b ∨ body.kind ≠ .applyGo := by exact .inr nofun) : Touches m s (placeOrder b body .plain t) :=
  h.placeNoted hl body .plain hgo fun u id hu => by rw [applyNote_plain]; exact hu

protected theorem Touches.placeOrder (h : Touches m s t) {b : BayId} (hm : m.Orders b) (body : OrderBody) (note : Note)
    (hgo : m.go b ∨ body.kind ≠ .applyGo := by exact .inr nofun) : Touches m s (placeOrder b body note t) :=
  h.placeNoted hm.line body note hgo fun _ id hu => hu.applyNote hm body note id hgo

/-- Where an APPLY-GO is held the timers may change by its placement. -/
theorem Touches.of_goHeld {b : BayId} (h : Touches { m with go := fun d => m.go d ∨ d = b } s t) (hb : ¬ NoGoHeld s.line.bays[b]) : Touches m s t :=
  { h with
    go := fun d hd hn => by
      by_cases e : d = b
      · subst e; exact absurd hn hb
      · exact h.go d (fun hg => hg.elim hd e) hn }

protected theorem Touches.offerHeld (h : Touches m s t) {b : BayId} (hm : m.Orders b) : Touches m s (offerHeld b t) := by
  have hput : ∀ {n : Parts}, n.Orders b → (n.go b ∨ NoGoHeld t.line.bays[b]) → Touches n t (offerHeld b t) := fun hn hgo =>
    ((Touches.refl t).setOrders hn.line (fun _ ho => .inr fun _ => ho) (hgo := .inr fun _ _ hx => absurd hx List.not_mem_nil)).each _ _ fun x hx u =>
      (Touches.refl u).placeOrder hn _ _ (hgo := hgo.imp id fun k => k x hx)
  refine h.trans ?_
  by_cases hgo : NoGoHeld t.line.bays[b]
  · exact hput hm (.inr hgo)
  · obtain ⟨hl, hg, hr, hc, hf⟩ := hm
    exact Touches.of_goHeld (b := b) (hput ⟨hl, hg, hr, hc, hf⟩ (.inl (.inr rfl))) hgo

protected theorem Touches.withdraw (h : Touches m s t) {b : BayId} (hm : m.Orders b) {kinds : List OrderKind} (hd : ∀ k ∈ kinds, m.drops b k)
    (hs : m.first b ∨ .safe ∉ kinds := by exact .inr (by decide)) : Touches m s (withdraw b kinds t) := by
  refine Touches.offerHeld (h.setOrders hm.line (fun o ho => ?_) (hgo := .inr fun hn x hx => hn x (List.mem_filter.1 hx).1)
    (hfirst := hs.imp id fun hsafe hfirst => safeAhead_filter (fun o ho => ?_) hfirst)) hm
  case refine_2 =>
    rw [Bool.not_eq_true', List.any_eq_false]
    intro k hk his
    rw [OrderBody.is, decide_eq_true_eq, ho] at his
    have hkind : k = .safe := his.symm
    exact hsafe (hkind ▸ hk)
  by_cases hk : kinds.any (fun k => o.body.is k) = true
  · obtain ⟨k, hmem, his⟩ := List.any_eq_true.1 hk
    rw [OrderBody.is, decide_eq_true_eq] at his
    exact .inl (his ▸ hd k hmem)
  · exact .inr fun _ => List.mem_filter.2 ⟨ho, by simpa using hk⟩

protected theorem Touches.emptyQueue (h : Touches m s t) {b : BayId} (hl : m.line b) (hd : ∀ k, m.drops b k)
    (hs : m.first b := by trivial) : Touches m s (emptyQueue b t) :=
  h.setOrders hl (fun _ _ => .inl (hd _)) (hgo := .inr fun _ _ hx => absurd hx List.not_mem_nil) (hfirst := .inl hs)

/-! ## The Library -/

protected theorem Touches.settleEntry (h : Touches m s t) (hm : m.lib) (e : Entry) : Touches m s (settleEntry e t) := by
  unfold Machine.settleEntry
  split <;> exact h.withLib hm _

protected theorem Touches.pin (h : Touches m s t) (hm : m.lib) (n : Nat) : Touches m s (pin n t) := by
  unfold Machine.pin
  split
  · exact h.withLib hm _
  · exact h

protected theorem Touches.releasePin (h : Touches m s t) (hm : m.lib) (n r : Nat) : Touches m s (releasePin n r t) := by
  unfold Machine.releasePin
  split
  · exact h
  · split
    · exact h.settleEntry hm _
    · split
      · exact h
      · split
        · exact (h.withLib hm _).settleEntry hm _
        · exact h.settleEntry hm _

protected theorem Touches.abandonLoad (h : Touches m s t) (hm : m.lib) : Touches m s (abandonLoad t) := by
  unfold Machine.abandonLoad
  split
  · exact h.withLib hm _
  · exact h

protected theorem Touches.install (h : Touches m s t) (hl : m.lib) (hs : m.store) (n : Nat) (r : Revision) : Touches m s (install n r t) := by
  unfold Machine.install
  split
  · exact (h.withLib hl _).storePut hs _
  · exact h.withLib hl _

/-! ## The Allocator -/

/-- What a recompute may change: the shares, and the orders of every bay by a HEAT-ALLOW. -/
structure Parts.Recompute (m : Parts) : Prop where
  shares : m.shares
  line : ∀ b, m.line b

protected theorem Touches.sendAllowance (h : Touches m s t) (hm : m.Recompute) (b : BayId) : Touches m s (sendAllowance b t) := by
  unfold Machine.sendAllowance
  dsimp only
  split
  · exact (h.placePlain (hm.line b) _).setShare hm.shares
  · exact h

theorem starve_usage (h : HeatBay) (starving : Bool) (sec : Nat) : (h.starve starving sec).usage = h.usage := by
  unfold HeatBay.starve
  split <;> rfl

theorem allot_usage (s : State) (out : Option BayId) (d : Division) (b : BayId) (h : HeatBay) : (allot s out d b h).usage = h.usage :=
  starve_usage _ _ _

protected theorem Touches.recomputeBut (h : Touches m s t) (hm : m.Recompute) (out : Option BayId) : Touches m s (recomputeBut out t) := by
  refine h.trans (Touches.each _ _ (fun b _ u => (Touches.refl u).sendAllowance hm b) ?_)
  exact { Touches.refl t with
    table := fun k => k.congr rfl rfl rfl
    heatSite := rfl
    heat := fun b _ => by simp [allot_usage]
    shares := fun hn => absurd hm.shares hn
    demand := fun b _ => by
      show ((Vector.ofFn (fun d => allot t out (divisionOf t out) d t.heat.bays[d]))[b]).demand = _
      rw [Fin.getElem_fin, Vector.getElem_ofFn]
      exact congrArg Prod.fst (allot_usage t out (divisionOf t out) b t.heat.bays[b]) }

protected theorem Touches.recompute (h : Touches m s t) (hm : m.Recompute) : Touches m s (recompute t) := h.recomputeBut hm none

protected theorem Touches.touchIdle (h : Touches m s t) {b : BayId} (hb : m.heat b) : Touches m s (touchIdle b t) := h.setHeat hb

protected theorem Touches.wakeCause (h : Touches m s t) {b : BayId} (hb : m.heat b) (hl : m.line b) : Touches m s (wakeCause b t) := by
  unfold Machine.wakeCause
  dsimp only
  split
  · exact ((h.touchIdle hb).setHeat hb).placePlain hl _
  · exact h.touchIdle hb

protected theorem Touches.examineStandby (h : Touches m s t) {b : BayId} (hb : m.heat b) (hl : m.line b) : Touches m s (examineStandby b t) := by
  unfold Machine.examineStandby
  split
  · exact h
  · exact (h.setHeat hb).placePlain hl _

protected theorem Touches.lookAhead (h : Touches m s t) {b : BayId} (hb : m.heat b) (hl : m.line b) : Touches m s (lookAhead b t) := by
  refine Touches.examineStandby ?_ hb hl
  split
  · exact (h.setHeat hb).wakeCause hb hl
  · exact h.setHeat hb

protected theorem Touches.lookAheadAll (h : Touches m s t) (hb : ∀ b, m.heat b) (hl : ∀ b, m.line b) : Touches m s (lookAheadAll t) :=
  h.each _ _ fun b _ u => (Touches.refl u).lookAhead (hb b) (hl b)

protected theorem Touches.dropDue (h : Touches m s t) (hb : ∀ b, m.heat b) (n : Fin 24) : Touches m s (dropDue n t) :=
  h.each _ _ fun b _ u => (Touches.refl u).setHeat (hb b)

protected theorem Touches.takeDemand (h : Touches m s t) {b : BayId} (hb : m.heat b) (hm : m.Recompute) (d : Bool)
    (hd : m.demand b := by trivial) : Touches m s (takeDemand b d t) := by
  unfold Machine.takeDemand
  split
  · exact h
  · exact (h.setHeat hb (hdem := .inl hd)).recompute hm

protected theorem Touches.takeDoor (h : Touches m s t) {b : BayId} (hb : m.heat b) (hl : m.line b) (d : Bool) : Touches m s (takeDoor b d t) := by
  unfold Machine.takeDoor
  dsimp only
  split
  · exact (h.setHeat hb).wakeCause hb hl
  · split
    · exact (h.setHeat hb).touchIdle hb
    · exact h.setHeat hb

protected theorem Touches.heatPower (h : Touches m s t) {b : BayId} (hb : m.heat b) (hm : m.Recompute) : Touches m s (heatPower b t) := by
  refine Touches.recompute ?_ hm
  split
  · exact (h.setHeat hb).touchIdle hb
  · exact h.setHeat hb

protected theorem Touches.heatRelease (h : Touches m s t) {b : BayId} (hb : m.heat b) (hm : m.Recompute) : Touches m s (heatRelease b t) :=
  (h.recompute hm).touchIdle hb

protected theorem Touches.heatReady (h : Touches m s t) {b : BayId} (hb : m.heat b) (hm : m.Recompute) : Touches m s (heatReady b t) :=
  (h.touchIdle hb).recompute hm

protected theorem Touches.clearStarvation (h : Touches m s t) {b : BayId} (hb : m.heat b) (hm : m.shares) : Touches m s (clearStarvation b t) :=
  (h.setHeat (f := fun x => { x with standbyRequested := false }) hb).trans
    { Touches.refl _ with
      table := fun k => k.congr rfl rfl rfl
      heatSite := rfl
      heat := fun d hd => by
        show (upd t.heat.bays b _)[d].usage = (upd t.heat.bays b _)[d].usage
        rw [upd_get_of_ne hb hd, upd_get_of_ne hb hd]
      shares := fun hn => absurd hm hn
      demand := fun d _ => (upd_view HeatBay.demand t.heat.bays b d _ rfl).trans (upd_view HeatBay.demand t.heat.bays b d _ rfl).symm }

protected theorem Touches.heatGone (h : Touches m s t) {b : BayId} (hb : m.heat b) (hm : m.shares) : Touches m s (heatGone b t) :=
  ((h.setHeat (f := fun x => { x with prevDoor := none }) hb).setShare (b := b) (f := fun x => { x with sent := none }) hm
   ).trans
    { Touches.refl _ with
      table := fun k => k.congr rfl rfl rfl
      heatSite := rfl
      heat := fun d hd => by
        simp only [Machine.heatGone, State.setHeat_heat]
        rw [upd_get_of_ne hb hd, upd_get_of_ne hb hd, upd_get_of_ne hb hd]
      shares := fun hn => absurd hm hn
      demand := fun d _ => by
        simp only [Machine.heatGone, State.setHeat_heat]
        rw [upd_view HeatBay.demand t.heat.bays b d _ rfl, upd_view HeatBay.demand _ b d _ rfl, upd_view HeatBay.demand _ b d _ rfl] }

end

end Sys2Proof.Machine


/-! The calendar's arithmetic, its transitions of daylight time, and the requests that set the clock (O46, O47). -/

namespace Sys2Proof.Machine

set_option Elab.async false

open Sys2Proof

/-! ## The transitions of daylight time (R139, R140) -/

theorem atTransition_iff (c : Calendar) (month nth hour : Nat) : c.atTransition month nth hour = true ↔
    c.month = month ∧ c.weekday = 7 ∧ c.hour = hour ∧ c.minute = 0 ∧ c.second = 0 ∧
      (if nth = 5 then daysIn c.year c.month < c.day + 7 else (c.day - 1) / 7 + 1 = nth) := by
  simp only [Calendar.atTransition, Calendar.nthSunday, Bool.and_eq_true, decide_eq_true_eq]
  split <;> simp only [decide_eq_true_eq] <;> tauto

theorem startsDst_iff (b : Backup) (c : Calendar) : startsDst b c = true ↔
    c.atTransition b.rule.startMonth b.rule.startNth b.rule.startHour = true ∧ b.rule.enabled = true ∧ b.inDst = false ∧ b.valid = true := by
  simp only [startsDst, Bool.and_eq_true, Bool.not_eq_true']
  tauto

theorem endsDst_iff (b : Backup) (c : Calendar) : endsDst b c = true ↔
    c.atTransition b.rule.endMonth b.rule.endNth b.rule.endHour = true ∧ b.rule.enabled = true ∧ b.inDst = true ∧ b.secondPass = false ∧
      b.valid = true := by
  simp only [endsDst, reachesEnd, Bool.and_eq_true, Bool.not_eq_true']
  tauto

theorem update_of_starts {b : Backup} {c : Calendar} (hc : b.cal.next = some c) (h : startsDst b c = true) :
    b.update = { b with cal := { c with hour := c.hour + 1 }, inDst := true, divider := 0 } := by
  simp only [Backup.update, hc, h, if_true]

theorem update_of_ends {b : Backup} {c : Calendar} (hc : b.cal.next = some c) (hs : startsDst b c = false) (h : endsDst b c = true) :
    b.update = { b with cal := { c with hour := c.hour - 1 }, inDst := false, secondPass := true, divider := 0 } := by
  simp only [Backup.update, hc, hs, h, if_true, if_false, Bool.false_eq_true]

theorem update_of_neither {b : Backup} {c : Calendar} (hc : b.cal.next = some c) (hs : startsDst b c = false) (he : endsDst b c = false) :
    b.update = { b with
      cal := c
      secondPass := b.secondPass && !(decide (c.hour = b.rule.endHour) && decide (c.minute = 0) && decide (c.second = 0))
      divider := 0 } := by
  simp only [Backup.update, hc, hs, he, if_false, Bool.false_eq_true]
  split
  · next h => simp_all
  · next h =>
    have hold : (b.secondPass && !(decide (c.hour = b.rule.endHour) && decide (c.minute = 0) && decide (c.second = 0))) = b.secondPass := by
      cases hp : b.secondPass
      · rfl
      · simpa [hp, and_assoc, imp_iff_not_or, or_assoc] using h
    rw [hold]

/-- An update that begins daylight time does not end it: the one is made outside of daylight time, the other within it. -/
theorem endsDst_of_startsDst {b : Backup} {c : Calendar} (h : endsDst b c = true) : startsDst b c = false := by
  rw [← Bool.not_eq_true, startsDst_iff]
  intro hs
  rw [((endsDst_iff b c).1 h).2.2.1] at hs
  simp at hs

/-- Settles O47: the three branches of an update, by what `startsDst` and `endsDst` say. -/
theorem dstStartSkipsAnHour : Obligations.DstStartSkipsAnHour := by
  intro b c hc
  simp only [← atTransition_iff, ← startsDst_iff, ← endsDst_iff, Bool.not_eq_true]
  refine ⟨update_of_starts hc, fun he => update_of_ends hc (endsDst_of_startsDst he) he, fun hs he => ?_⟩
  rw [update_of_neither hc hs he]
  exact ⟨rfl, rfl, rfl, rfl, rfl⟩

/-! ## The rolls of the calendar (R135, R136) -/

/-- Days from 2000-01-01 to the first day of a month. -/
def monthStart (year month : Nat) : Nat :=
  (year - 2000) * 365 + (year - 2000 + 3) / 4 + ((List.range (month - 1)).map (fun m => daysIn year (m + 1))).sum

theorem dayNumber_eq (year month day : Nat) : dayNumber year month day = monthStart year month + (day - 1) := rfl

/-- A month begins where the month before it ends. -/
theorem monthStart_succ (year : Nat) {month : Nat} (h : 1 ≤ month) : monthStart year (month + 1) = monthStart year month + daysIn year month := by
  obtain ⟨m, rfl⟩ : ∃ m, month = m + 1 := ⟨month - 1, by omega⟩
  simp only [monthStart, Nat.add_sub_cancel]
  rw [List.range_succ]
  simp only [List.map_append, List.sum_append, List.map_cons, List.map_nil, List.sum_cons, List.sum_nil]
  omega

/-- A year begins where December of the year before it ends. -/
theorem monthStart_nextYear {year : Nat} (h : 2000 ≤ year) : monthStart (year + 1) 1 = monthStart year 12 + daysIn year 12 := by
  have hsum : ((List.range 11).map (fun m => daysIn year (m + 1))).sum = 306 + daysIn year 2 := by
    have hl : List.range 11 = [0, 1, 2, 3, 4, 5, 6, 7, 8, 9, 10] := rfl
    rw [hl]
    simp [daysIn]
    omega
  have hfeb : daysIn year 2 = if year % 4 = 0 then 29 else 28 := rfl
  have hdec : daysIn year 12 = 31 := rfl
  simp only [monthStart, Nat.add_one_sub_one, Nat.sub_self, List.range_zero, List.map_nil, List.sum_nil]
  rw [hsum, hfeb, hdec]
  split <;> omega

theorem calendarOk_iff (c : Calendar) : calendarOk c = true ↔
    (2000 ≤ c.year ∧ c.year ≤ 2099) ∧ (1 ≤ c.month ∧ c.month ≤ 12) ∧ (1 ≤ c.day ∧ c.day ≤ daysIn c.year c.month) ∧ c.hour ≤ 23 ∧ c.minute ≤ 59 ∧
      c.second ≤ 59 ∧ c.weekday = (dayNumber c.year c.month c.day + 5) % 7 + 1 := by
  simp only [calendarOk, Bool.and_eq_true, within_iff, decide_eq_true_eq, beq_iff_eq, weekdayOf]
  constructor
  · rintro ⟨⟨⟨⟨⟨⟨⟨a, b⟩, c⟩, d⟩, e⟩, f⟩, _⟩, g⟩; exact ⟨a, b, c, d, e, f, g⟩
  · rintro ⟨a, b, c, d, e, f, g⟩; exact ⟨⟨⟨⟨⟨⟨⟨a, b⟩, c⟩, d⟩, e⟩, f⟩, by omega⟩, g⟩

theorem nextWeekday_of_day (n : Nat) : nextWeekday ((n + 5) % 7 + 1) = (n + 1 + 5) % 7 + 1 := by
  unfold nextWeekday
  split <;> omega

/-- The seconds from 2000-01-01 00:00:00 to a time. -/
def secondsOf (c : Calendar) : Nat := ((dayNumber c.year c.month c.day * 24 + c.hour) * 60 + c.minute) * 60 + c.second

/-- One day later at midnight, the day number grows by one. -/
theorem rolled_day {c : Calendar} (hok : calendarOk c = true) (hs : c.second = 59) (hm : c.minute = 59) (hh : c.hour = 23) {year month day : Nat}
    (hday : dayNumber year month day = dayNumber c.year c.month c.day + 1)
    (hrange : (2000 ≤ year ∧ year ≤ 2099) ∧ (1 ≤ month ∧ month ≤ 12) ∧ 1 ≤ day ∧ day ≤ daysIn year month) :
    let d : Calendar := { c with second := 0, minute := 0, hour := 0, weekday := nextWeekday c.weekday, year := year, month := month, day := day }
    calendarOk d = true ∧ secondsOf d = secondsOf c + 1 := by
  obtain ⟨hy, hmo, hd⟩ := hrange
  obtain ⟨-, -, -, -, -, -, hw⟩ := (calendarOk_iff c).1 hok
  refine ⟨(calendarOk_iff _).2 ⟨hy, hmo, hd, by simp, by simp, by simp, ?_⟩, ?_⟩
  · dsimp only
    rw [hw, nextWeekday_of_day, hday]
  · dsimp only [secondsOf]
    rw [hday, hs, hm, hh]
    omega

theorem daysIn_pos (year month : Nat) : 1 ≤ daysIn year month := by
  unfold daysIn
  split
  · split <;> omega
  · split <;> omega

/-- R135: a roll keeps the fields in range and the weekday in step, and counts one second on. -/
theorem next_ok {c d : Calendar} (hok : calendarOk c = true) (h : c.next = some d) : calendarOk d = true ∧ secondsOf d = secondsOf c + 1 := by
  obtain ⟨hy, hmo, hd, hh, hmi, hs, hw⟩ := (calendarOk_iff c).1 hok
  unfold Calendar.next at h
  split at h
  · cases h
    exact ⟨(calendarOk_iff _).2 ⟨hy, hmo, hd, hh, hmi, by dsimp only; omega, hw⟩, by dsimp only [secondsOf]; omega⟩
  · split at h
    · cases h
      exact ⟨(calendarOk_iff _).2 ⟨hy, hmo, hd, hh, by dsimp only; omega, by simp, hw⟩, by dsimp only [secondsOf]; omega⟩
    · split at h
      · cases h
        exact ⟨(calendarOk_iff _).2 ⟨hy, hmo, hd, by dsimp only; omega, by simp, by simp, hw⟩, by dsimp only [secondsOf]; omega⟩
      · dsimp only at h
        have roll := @rolled_day c hok (by omega) (by omega) (by omega)
        split at h
        · cases h
          exact roll (by simp only [dayNumber_eq]; omega) ⟨hy, hmo, by omega, by omega⟩
        · next hlast =>
          split at h
          · cases h
            exact roll (by simp only [dayNumber_eq, monthStart_succ _ hmo.1]; omega) ⟨hy, by omega, by omega, daysIn_pos _ _⟩
          · split at h
            · cases h
              have hdec : c.month = 12 := by omega
              refine roll ?_ ⟨by omega, by omega, by omega, daysIn_pos _ _⟩
              rw [hdec] at hd hlast ⊢
              simp only [dayNumber_eq, monthStart_nextYear hy.1]
              omega
            · cases h

/-- R135: the last second of 2099 has no successor, and every other has. -/
theorem next_eq_none_iff {c : Calendar} (hok : calendarOk c = true) : c.next = none ↔
    c.year = 2099 ∧ c.month = 12 ∧ c.day = 31 ∧ c.hour = 23 ∧ c.minute = 59 ∧ c.second = 59 := by
  obtain ⟨hy, hmo, hd, hh, hmi, hs, -⟩ := (calendarOk_iff c).1 hok
  have hdec : daysIn c.year 12 = 31 := rfl
  constructor
  · intro h
    simp only [Calendar.next] at h
    split at h
    · cases h
    · split at h
      · cases h
      · split at h
        · cases h
        · split at h
          · cases h
          · split at h
            · cases h
            · split at h
              · cases h
              · next hday hmonth _ =>
                have h12 : c.month = 12 := by omega
                rw [h12, hdec] at hday hd
                omega
  · rintro ⟨h1, h2, h3, h4, h5, h6⟩
    simp [Calendar.next, h1, h2, h3, h4, h5, h6, daysIn]

end Sys2Proof.Machine


/-! The call queue and the lanes: what the arbiter's and the calls' operations keep of `CallTable`. -/

namespace Sys2Proof.Machine

set_option Elab.async false

open Sys2Proof

/-! ## The first id that is free -/

/-- The first number from `n` on that `held` does not hold, among `fuel` numbers in the order of `next`. -/
def firstFree (next : Nat → Nat) (held : Nat → Bool) : Nat → Nat → Nat
  | 0, n => n
  | fuel + 1, n => if held n then firstFree next held fuel (next n) else n

theorem freeCallId_eq (calls : List Call) (fuel n : Nat) :
    freeCallId calls fuel n = firstFree nextCallId (fun n => calls.any (fun c => c.id = n)) fuel n := by
  induction fuel generalizing n with
  | zero => rfl
  | succ fuel ih => rw [freeCallId, firstFree, ih]

theorem freeRunId_eq (runs : List Run) (fuel n : Nat) :
    freeRunId runs fuel n = firstFree nextOrderId (fun n => runs.any (fun r => r.id = n)) fuel n := by
  induction fuel generalizing n with
  | zero => rfl
  | succ fuel ih => rw [freeRunId, firstFree, ih]

/-- Where the number found is held after all, every number tried is. -/
theorem held_of_firstFree {next : Nat → Nat} {held : Nat → Bool} {fuel n : Nat} (h : held (firstFree next held fuel n) = true) :
    ∀ i ≤ fuel, held (next^[i] n) = true := by
  induction fuel generalizing n with
  | zero =>
    intro i hi
    rw [Nat.le_zero.1 hi]
    exact h
  | succ fuel ih =>
    intro i hi
    by_cases hn : held n = true
    · rw [firstFree, if_pos hn] at h
      cases i with
      | zero => exact hn
      | succ i => exact ih h i (by omega)
    · rw [firstFree, if_neg hn] at h
      exact absurd h hn

/-- Numbers 1 to `m` that wrap from the last to 1. -/
def wrapNext (m n : Nat) : Nat := if n < m then n + 1 else 1

theorem wrapNext_iterate {m n : Nat} (hn : 1 ≤ n) (hm : n ≤ m) (i : Nat) : (wrapNext m)^[i] n = (n - 1 + i) % m + 1 := by
  induction i with
  | zero => rw [Function.iterate_zero_apply, Nat.add_zero, Nat.mod_eq_of_lt (by omega)]; omega
  | succ i ih =>
    have hlt : (n - 1 + i) % m < m := Nat.mod_lt _ (by omega)
    rw [Function.iterate_succ_apply', ih, wrapNext, ← Nat.add_assoc, Nat.add_mod (n - 1 + i) 1 m]
    split
    · next h => rw [Nat.mod_eq_of_lt (a := 1) (by omega), Nat.mod_eq_of_lt (a := _ + 1) h]
    · next h =>
      have hlast : (n - 1 + i) % m = m - 1 := by omega
      rcases Nat.lt_or_ge 1 m with h1 | h1
      · rw [hlast, Nat.mod_eq_of_lt (a := 1) h1, Nat.sub_add_cancel (by omega), Nat.mod_self]
      · obtain rfl : m = 1 := by omega
        simp [Nat.mod_one]

/-- The number found lies in the range. -/
theorem firstFree_range {m : Nat} {held : Nat → Bool} {fuel n : Nat} (hn : 1 ≤ n) (hm : n ≤ m) :
    1 ≤ firstFree (wrapNext m) held fuel n ∧ firstFree (wrapNext m) held fuel n ≤ m := by
  induction fuel generalizing n with
  | zero => exact ⟨hn, hm⟩
  | succ fuel ih =>
    unfold firstFree
    split
    · exact ih (by unfold wrapNext; split <;> omega) (by unfold wrapNext; split <;> omega)
    · exact ⟨hn, hm⟩

/-- Among more numbers than are held, one is free. -/
theorem firstFree_notMem {m : Nat} {l : List Nat} {fuel n : Nat} (hn : 1 ≤ n) (hm : n ≤ m) (hl : l.length ≤ fuel) (hfuel : fuel < m) :
    firstFree (wrapNext m) (fun n => decide (n ∈ l)) fuel n ∉ l := by
  intro hmem
  have hall := held_of_firstFree (next := wrapNext m) (held := fun n => decide (n ∈ l)) (decide_eq_true hmem)
  have hnodup : ((List.range (fuel + 1)).map (fun i => (wrapNext m)^[i] n)).Nodup := by
    refine List.Nodup.map_on (fun i hi j hj hij => ?_) List.nodup_range
    rw [wrapNext_iterate hn hm, wrapNext_iterate hn hm] at hij
    rw [List.mem_range] at hi hj
    have hmod : (n - 1 + i) ≡ (n - 1 + j) [MOD m] := by unfold Nat.ModEq; omega
    exact Nat.ModEq.eq_of_lt_of_lt (Nat.ModEq.add_left_cancel' _ hmod) (by omega) (by omega)
  have hsub : ((List.range (fuel + 1)).map (fun i => (wrapNext m)^[i] n)) ⊆ l := by
    intro x hx
    obtain ⟨i, hi, rfl⟩ := List.mem_map.1 hx
    exact of_decide_eq_true (hall i (by rw [List.mem_range] at hi; omega))
  have hlen := (List.subperm_of_subset hnodup hsub).length_le
  rw [List.length_map, List.length_range] at hlen
  omega

/-! ## The call queue -/

theorem nextCallId_eq : nextCallId = wrapNext 65535 := rfl

theorem raiseId_range {s : State} (h : CallTable s) : 1 ≤ raiseId s ∧ raiseId s ≤ 65535 := by
  rw [raiseId, freeCallId_eq, nextCallId_eq]
  exact firstFree_range h.next.1 h.next.2

theorem raiseId_notMem {s : State} (h : CallTable s) : raiseId s ∉ s.mon.calls.map Call.id := by
  have heq : (fun n => s.mon.calls.any (fun c => c.id = n)) = fun n => decide (n ∈ s.mon.calls.map Call.id) := by
    funext n
    rw [Bool.eq_iff_iff]
    simp
  rw [raiseId, freeCallId_eq, nextCallId_eq, heq]
  exact firstFree_notMem h.next.1 h.next.2 (by rw [List.length_map]; exact h.room) (by decide)

theorem callFor_eq_none_iff {s : State} {b : BayId} {k : EventKind} : callFor s b k = none ↔ ∀ c ∈ s.mon.calls, ¬ (c.bay = b ∧ c.kind = k) := by
  simp [callFor, List.find?_eq_none]

theorem callOf_eq_some {s : State} {i : Nat} {c : Call} (h : callOf s i = some c) : c ∈ s.mon.calls ∧ c.id = i :=
  ⟨List.mem_of_find?_eq_some h, by simpa using List.find?_some h⟩

/-- R154: a raised call joins a queue with room that has none of its bay and kind. -/
theorem CallTable.raised {s : State} (h : CallTable s) {b : BayId} {k : EventKind} (hroom : s.mon.calls.length < 32) (hnone : callFor s b k = none) :
    CallTable (raiseCall b k s) := by
  obtain ⟨hlow, hhigh⟩ := raiseId_range h
  have hnew := raiseId_notMem h
  have hnolane : ∀ l x, s.mon.lanes[(l : Fin 2)] = some x → x.call ≠ raiseId s := by
    intro l x hx e
    obtain ⟨c, hc, hid⟩ := h.held l x hx
    exact hnew (List.mem_map.2 ⟨c, hc, hid.trans e⟩)
  have hmem : ∀ c ∈ (raiseCall b k s).mon.calls, c ∈ s.mon.calls ∨ c.id = raiseId s ∧ c.bay = b ∧ c.kind = k ∧ c.state = .waiting ∧ c.lane = none ∧
      c.deadline = none := by
    intro c hc
    rcases List.mem_append.1 hc with hc | hc
    · exact .inl hc
    · rw [List.mem_singleton] at hc
      subst hc
      exact .inr ⟨rfl, rfl, rfl, rfl, rfl, rfl⟩
  refine { room := ?_, next := ?_, range := fun c hc => ?_, ids := ?_, kinds := ?_, lane := fun c hc l => ?_, free := fun c hc => ?_,
           held := fun l x hx => ?_, deadline := fun c hc hd => ?_ }
  · show (s.mon.calls ++ [_]).length ≤ 32
    rw [List.length_append, List.length_singleton]
    omega
  · show 1 ≤ nextCallId (raiseId s) ∧ nextCallId (raiseId s) ≤ 65535
    unfold nextCallId
    split <;> omega
  · rcases hmem c hc with hc | ⟨e, -⟩
    · exact h.range c hc
    · omega
  · show ((s.mon.calls ++ [_]).map Call.id).Nodup
    rw [List.map_append, List.nodup_append]
    refine ⟨h.ids, by simp, fun a ha x hx e => hnew ?_⟩
    rw [List.map_singleton, List.mem_singleton] at hx
    have hid : a = raiseId s := e.trans hx
    rwa [hid] at ha
  · show (s.mon.calls ++ [_]).Pairwise _
    rw [List.pairwise_append]
    refine ⟨h.kinds, List.pairwise_singleton _ _, fun c hc d hd => ?_⟩
    rw [List.mem_singleton] at hd
    subst hd
    exact callFor_eq_none_iff.1 hnone c hc
  · rcases hmem c hc with hc | ⟨e, -, -, hst, hl, -⟩
    · exact h.lane c hc l
    · rw [hst, hl, e]
      exact ⟨fun x => by simp at x, fun ⟨x, hx, hxe⟩ => absurd hxe (hnolane l x hx)⟩
  · rcases hmem c hc with hc | ⟨-, -, -, hst, hl, -⟩
    · exact h.free c hc
    · rw [hst, hl]; simp
  · obtain ⟨c, hc, e⟩ := h.held l x hx
    exact ⟨c, List.mem_append_left _ hc, e⟩
  · rcases hmem c hc with hc | ⟨-, -, -, -, -, hdl⟩
    · exact h.deadline c hc hd
    · rw [hdl] at hd; cases hd

/-- One call of the queue and the lanes change: what has to hold of the changed call, and of the lanes that hold it. -/
theorem CallTable.changed {s t : State} (h : CallTable s) {i : Nat} {f : Call → Call}
    (hcalls : t.mon.calls = s.mon.calls.map (fun c => if c.id = i then f c else c)) (hnext : t.mon.nextCall = s.mon.nextCall)
    (hf : ∀ c, (f c).id = c.id ∧ (f c).bay = c.bay ∧ (f c).kind = c.kind)
    (hlanes : ∀ (l : Fin 2) (x : Lane), x.call ≠ i → (t.mon.lanes[l] = some x ↔ s.mon.lanes[l] = some x))
    (hheld : ∀ (l : Fin 2) (x : Lane), t.mon.lanes[l] = some x → x.call = i → ∃ c ∈ s.mon.calls, c.id = i)
    (hnew : ∀ c ∈ s.mon.calls, c.id = i →
      (∀ l : Fin 2, ((f c).state = .dispatched ∧ (f c).lane = some l) ↔ ∃ x, t.mon.lanes[l] = some x ∧ x.call = i) ∧
      ((f c).state = .dispatched ↔ (f c).lane.isSome = true) ∧ ((f c).deadline.isSome = true → (f c).state = .acknowledged)) : CallTable t := by
  let g : Call → Call := fun c => if c.id = i then f c else c
  have hgid : ∀ c, (g c).id = c.id := fun c => by dsimp only [g]; split; exacts [(hf c).1, rfl]
  have hgkind : ∀ c, (g c).bay = c.bay ∧ (g c).kind = c.kind := fun c => by dsimp only [g]; split; exacts [(hf c).2, ⟨rfl, rfl⟩]
  have hmem : ∀ c ∈ t.mon.calls, ∃ d ∈ s.mon.calls, g d = c := fun c hc => List.mem_map.1 (by rw [hcalls] at hc; exact hc)
  refine { room := ?_, next := ?_, range := fun c hc => ?_, ids := ?_, kinds := ?_, lane := fun c hc l => ?_, free := fun c hc => ?_,
           held := fun l x hx => ?_, deadline := fun c hc => ?_ }
  · rw [hcalls, List.length_map]; exact h.room
  · rw [hnext]; exact h.next
  · obtain ⟨d, hd, rfl⟩ := hmem c hc
    rw [hgid]; exact h.range d hd
  · rw [hcalls, List.map_map]
    have : Call.id ∘ g = Call.id := funext hgid
    rw [show (Call.id ∘ fun c => if c.id = i then f c else c) = Call.id from this]
    exact h.ids
  · rw [hcalls, List.pairwise_map]
    refine h.kinds.imp fun {c d} hcd => ?_
    have hc := hgkind c
    have hd := hgkind d
    dsimp only [g] at hc hd
    rw [hc.1, hc.2, hd.1, hd.2]
    exact hcd
  · obtain ⟨d, hd, rfl⟩ := hmem c hc
    rw [hgid]
    by_cases e : d.id = i
    · have := (hnew d hd e).1 l
      rw [show g d = f d from if_pos e, this, e]
    · rw [show g d = d from if_neg e, h.lane d hd l]
      constructor
      · rintro ⟨x, hx, hxe⟩; exact ⟨x, (hlanes l x (by rw [hxe]; exact e)).2 hx, hxe⟩
      · rintro ⟨x, hx, hxe⟩; exact ⟨x, (hlanes l x (by rw [hxe]; exact e)).1 hx, hxe⟩
  · obtain ⟨d, hd, rfl⟩ := hmem c hc
    by_cases e : d.id = i
    · rw [show g d = f d from if_pos e]; exact (hnew d hd e).2.1
    · rw [show g d = d from if_neg e]; exact h.free d hd
  · have hsome : ∃ c ∈ s.mon.calls, c.id = x.call := by
      by_cases e : x.call = i
      · obtain ⟨c, hc, hci⟩ := hheld l x hx e
        exact ⟨c, hc, hci.trans e.symm⟩
      · exact h.held l x ((hlanes l x e).1 hx)
    obtain ⟨c, hc, hce⟩ := hsome
    exact ⟨g c, by rw [hcalls]; exact List.mem_map_of_mem hc, (hgid c).trans hce⟩
  · obtain ⟨d, hd, rfl⟩ := hmem c hc
    by_cases e : d.id = i
    · rw [show g d = f d from if_pos e]; exact (hnew d hd e).2.2
    · rw [show g d = d from if_neg e]; exact h.deadline d hd

/-- A change of a call that leaves its state, its lane and its deadline alone. -/
theorem CallTable.edited {s : State} (h : CallTable s) (i : Nat) {f : Call → Call}
    (hf : ∀ c, (f c).id = c.id ∧ (f c).bay = c.bay ∧ (f c).kind = c.kind ∧ (f c).state = c.state ∧ (f c).lane = c.lane ∧ (f c).deadline = c.deadline) :
    CallTable (s.setCall i f) := by
  refine h.changed (i := i) (f := f) rfl rfl (fun c => ⟨(hf c).1, (hf c).2.1, (hf c).2.2.1⟩) (fun _ _ _ => Iff.rfl)
    (fun l x hx e => ?_) (fun c hc e => ?_)
  · obtain ⟨c, hc, hce⟩ := h.held l x hx
    exact ⟨c, hc, hce.trans e⟩
  · obtain ⟨-, -, -, hst, hl, hd⟩ := hf c
    rw [hst, hl, hd, ← e]
    exact ⟨h.lane c hc, h.free c hc, h.deadline c hc⟩

/-! ## The arbiter (R155) -/

theorem freeLane_eq_some {s : State} {l : Fin 2} (h : freeLane s = some l) : s.mon.lanes[l] = none := by
  have := List.find?_some h
  simpa using this

/-- The better of a candidate and what was best before it. -/
def keepBest {α : Type} (better : α → α → Bool) (best : Option α) (x : α) : Option α :=
  match best with
  | none => some x
  | some y => if better x y then some x else some y

theorem keepBest_isSome {α : Type} (better : α → α → Bool) (best : Option α) (x : α) : (keepBest better best x).isSome = true := by
  cases best with
  | none => rfl
  | some y => dsimp only [keepBest]; split <;> rfl

theorem keepBest_eq_some {α : Type} {better : α → α → Bool} {best : Option α} {x c : α} (h : keepBest better best x = some c) : c = x ∨ best = some c := by
  cases best with
  | none => exact .inl (Option.some.inj h).symm
  | some y =>
    dsimp only [keepBest] at h
    split at h
    · exact .inl (Option.some.inj h).symm
    · exact .inr h

/-- The search for the best ends with one of the candidates. -/
theorem mem_of_foldl_keepBest {α : Type} (better : α → α → Bool) (l : List α) (o : Option α) {c : α} (h : l.foldl (keepBest better) o = some c) :
    c ∈ l ∨ o = some c := by
  induction l generalizing o with
  | nil => exact .inr h
  | cons x l ih =>
    rcases ih _ h with hc | hc
    · exact .inl (List.mem_cons_of_mem _ hc)
    · rcases keepBest_eq_some hc with rfl | hc
      · exact .inl List.mem_cons_self
      · exact .inr hc

theorem foldl_keepBest_isSome {α : Type} (better : α → α → Bool) (l : List α) (o : Option α) (h : o.isSome = true ∨ l ≠ []) :
    (l.foldl (keepBest better) o).isSome = true := by
  induction l generalizing o with
  | nil => exact h.resolve_right fun k => k rfl
  | cons x l ih => exact ih _ (.inl (keepBest_isSome better o x))

theorem bestCall_eq (s : State) : bestCall s =
    (s.mon.calls.filter (fun c => decide (c.state = .waiting))).foldl (keepBest fun c d => c.before s.mon.lastBay d) none := by
  unfold bestCall
  congr 1
  funext best c
  cases best <;> rfl

theorem bestCall_mem {s : State} {c : Call} (h : bestCall s = some c) : c ∈ s.mon.calls ∧ c.state = .waiting := by
  rw [bestCall_eq] at h
  obtain hc | hc := mem_of_foldl_keepBest _ _ _ h
  · simpa using hc
  · cases hc

theorem bestCall_exists {s : State} {c : Call} (hc : c ∈ s.mon.calls) (hw : c.state = .waiting) : ∃ d, bestCall s = some d := by
  rw [bestCall_eq]
  exact Option.isSome_iff_exists.1
    (foldl_keepBest_isSome _ _ _ (.inr (List.ne_nil_of_mem (List.mem_filter.2 ⟨hc, decide_eq_true hw⟩))))

/-- The state a dispatch leaves, but for its notice. -/
theorem CallTable.dispatched {s : State} (h : CallTable s) {l : Fin 2} {c : Call} (hl : s.mon.lanes[l] = none) (hc : c ∈ s.mon.calls)
    (hw : c.state = .waiting) : CallTable (dispatch l c s) := by
  have hnot : ∀ (m : Fin 2) (x : Lane), s.mon.lanes[m] = some x → x.call ≠ c.id := by
    intro m x hx e
    have := ((h.lane c hc m).2 ⟨x, hx, e⟩).1
    rw [hw] at this
    cases this
  have hlane : ∀ m : Fin 2, (dispatch l c s).mon.lanes[m] = if m = l then some { call := c.id, due := s.sec + laneTime } else s.mon.lanes[m] := by
    intro m
    rw [show (dispatch l c s).mon.lanes = upd s.mon.lanes l (fun _ => some { call := c.id, due := s.sec + laneTime }) from by
      simp [dispatch, State.setCall], upd_get]
  refine h.changed (i := c.id) (f := fun x => { x with state := .dispatched, lane := some l, number := nextDispatch c.number })
    (by simp [dispatch, State.setCall]) (by simp [dispatch, State.setCall]) (fun _ => ⟨rfl, rfl, rfl⟩) (fun m x hx => ?_)
    (fun _ _ _ _ => ⟨c, hc, rfl⟩) (fun d hd e => ⟨fun m => ?_, ⟨fun _ => rfl, fun _ => rfl⟩, fun hdl => ?_⟩)
  · rw [hlane]
    split
    · next e =>
      rw [e, hl]
      exact ⟨fun k => absurd (by cases k; rfl) hx, fun k => by cases k⟩
    · exact Iff.rfl
  · rw [hlane]
    constructor
    · rintro ⟨-, hm⟩
      cases hm
      exact ⟨_, if_pos rfl, rfl⟩
    · rintro ⟨x, hx, hxe⟩
      split at hx
      · next e => exact ⟨rfl, by rw [e]⟩
      · exact absurd hxe (hnot m x hx)
  · have hdc : d = c := List.inj_on_of_nodup_map h.ids hd hc e
    rw [hdc] at hdl
    have := h.deadline c hc hdl
    rw [hw] at this
    cases this

theorem arbiterOnce_callTable {s : State} (h : CallTable s) : CallTable (arbiterOnce s) := by
  unfold arbiterOnce
  split
  · next l c hl hc => exact h.dispatched (freeLane_eq_some hl) (bestCall_mem hc).1 (bestCall_mem hc).2
  · exact h

theorem arbiter_callTable {s : State} (h : CallTable s) : CallTable (arbiter s) := arbiterOnce_callTable (arbiterOnce_callTable h)

/-! ## A call leaves its lane, or the queue -/

theorem freeCallLane_lanes (i : Nat) (s : State) (l : Fin 2) (x : Lane) :
    (freeCallLane i s).mon.lanes[l] = some x ↔ s.mon.lanes[l] = some x ∧ x.call ≠ i := by
  simp only [freeCallLane, Fin.getElem_fin, Vector.getElem_ofFn, Fin.eta]
  cases hl : s.mon.lanes[l] with
  | none => simp_all
  | some y =>
    have hl' : s.mon.lanes[(l : Nat)] = some y := hl
    simp only [Option.any_some, decide_eq_true_eq, hl', Option.some.injEq]
    constructor
    · split
      · intro k; cases k
      · next hne => rintro k; cases k; exact ⟨rfl, hne⟩
    · rintro ⟨rfl, hne⟩; rw [if_neg hne]

/-- A call leaves its lane as it takes another state: it is no longer dispatched, and it has a deadline only where it is acknowledged. -/
theorem CallTable.undispatched {s : State} (h : CallTable s) (i : Nat) {f : Call → Call}
    (hf : ∀ c, (f c).id = c.id ∧ (f c).bay = c.bay ∧ (f c).kind = c.kind)
    (hnew : ∀ c ∈ s.mon.calls, c.id = i → (f c).state ≠ .dispatched ∧ (f c).lane = none ∧ ((f c).deadline.isSome = true → (f c).state = .acknowledged)) :
    CallTable (freeCallLane i (s.setCall i f)) := by
  refine h.changed (i := i) (f := f) rfl rfl hf (fun l x hx => ?_) (fun l x hx e => ?_) (fun c hc e => ?_)
  · rw [freeCallLane_lanes]
    exact ⟨fun k => k.1, fun k => ⟨k, hx⟩⟩
  · exact absurd e ((freeCallLane_lanes _ _ _ _).1 hx).2
  · obtain ⟨hst, hl, hd⟩ := hnew c hc e
    refine ⟨fun l => ⟨fun k => absurd k.1 hst, fun ⟨x, hx, hxe⟩ => absurd hxe ((freeCallLane_lanes _ _ _ _).1 hx).2⟩, ?_, hd⟩
    rw [hl]
    exact ⟨fun k => absurd k hst, fun k => by cases k⟩

/-- A call that no lane holds takes another state. -/
theorem CallTable.restated {s : State} (h : CallTable s) {c : Call} (hc : c ∈ s.mon.calls) (hst : c.state ≠ .dispatched) {f : Call → Call}
    (hf : ∀ c, (f c).id = c.id ∧ (f c).bay = c.bay ∧ (f c).kind = c.kind ∧ (f c).lane = c.lane)
    (hnew : (f c).state ≠ .dispatched ∧ ((f c).deadline.isSome = true → (f c).state = .acknowledged)) : CallTable (s.setCall c.id f) := by
  have hlane : c.lane = none := by
    rw [← Option.not_isSome_iff_eq_none]
    exact fun k => hst ((h.free c hc).2 k)
  refine h.changed (i := c.id) (f := f) rfl rfl (fun c => ⟨(hf c).1, (hf c).2.1, (hf c).2.2.1⟩) (fun _ _ _ => Iff.rfl) (fun _ _ _ _ => ⟨c, hc, rfl⟩)
    (fun d hd e => ?_)
  obtain rfl : d = c := List.inj_on_of_nodup_map h.ids hd hc e
  refine ⟨fun l => ⟨fun k => absurd k.1 hnew.1, fun ⟨x, hx, hxe⟩ => absurd ((h.lane d hd l).2 ⟨x, hx, hxe⟩).1 hst⟩, ?_, hnew.2⟩
  rw [(hf d).2.2.2, hlane]
  exact ⟨fun k => absurd k hnew.1, fun k => by cases k⟩

/-- A call leaves the queue and its lane. -/
theorem CallTable.removed {s t : State} (h : CallTable s) (i : Nat) (hcalls : t.mon.calls = s.mon.calls.filter (fun c => c.id ≠ i))
    (hnext : t.mon.nextCall = s.mon.nextCall) (hlanes : ∀ (l : Fin 2) (x : Lane), t.mon.lanes[l] = some x ↔ s.mon.lanes[l] = some x ∧ x.call ≠ i) :
    CallTable t := by
  have hmem : ∀ c, c ∈ t.mon.calls ↔ c ∈ s.mon.calls ∧ c.id ≠ i := fun c => by rw [hcalls, List.mem_filter]; simp
  refine { room := ?_, next := hnext ▸ h.next, range := fun c hc => h.range c ((hmem c).1 hc).1, ids := ?_, kinds := ?_,
           lane := fun c hc l => ?_, free := fun c hc => h.free c ((hmem c).1 hc).1, held := fun l x hx => ?_,
           deadline := fun c hc => h.deadline c ((hmem c).1 hc).1 }
  · rw [hcalls]; exact (List.length_filter_le _ _).trans h.room
  · rw [hcalls]; exact h.ids.sublist (List.filter_sublist.map _)
  · rw [hcalls]; exact h.kinds.sublist List.filter_sublist
  · obtain ⟨hc', hne⟩ := (hmem c).1 hc
    rw [h.lane c hc' l]
    constructor
    · rintro ⟨x, hx, e⟩; exact ⟨x, (hlanes l x).2 ⟨hx, by rw [e]; exact hne⟩, e⟩
    · rintro ⟨x, hx, e⟩; exact ⟨x, ((hlanes l x).1 hx).1, e⟩
  · obtain ⟨hx', hne⟩ := (hlanes l x).1 hx
    obtain ⟨c, hc, e⟩ := h.held l x hx'
    exact ⟨c, (hmem c).2 ⟨hc, by rw [e]; exact hne⟩, e⟩

end Sys2Proof.Machine


/-! SUPPORT. `Touches` for the operations of the Service Monitor, the Run Engine, the Cleaning Sequencer and the Update Distributor up to the endings
of their jobs. -/

namespace Sys2Proof.Machine

set_option Elab.async false

open Sys2Proof

section
variable {m : Parts} {s t : State}

/-! ## The Service Monitor -/

/-- What a report of a bay may change. -/
structure Parts.Alarm (m : Parts) (b : BayId) : Prop where
  latch : m.latch b
  calls : m.calls

protected theorem Touches.setLatch (h : Touches m s t) {b : BayId} {k : EventKind} {f : Latch → Latch} (hb : m.latch b)
    (hset : m.clears b ∨ ∀ x : Latch, x.set = true → (f x).set = true := by exact .inr fun _ k => k) : Touches m s (t.setLatch b k f) := by
  refine h.setLatches hb (fun _ => ⟨rfl, rfl⟩) (hset.imp id fun hf i hi => ?_)
  show ((upd t.mon.bays[b].latches k.slot f)[i]).set = true
  rw [upd_get]
  split
  · next e => subst e; exact hf _ hi
  · exact hi

/-- The call queue or a lane changes. -/
protected theorem Touches.withCalls (h : Touches m s t) (hm : m.calls) {u : State}
    (hu : u = { t with mon := { t.mon with calls := u.mon.calls, lanes := u.mon.lanes, nextCall := u.mon.nextCall, lastBay := u.mon.lastBay } })
    (ht : CallTable t → CallTable u) : Touches m s u := by
  refine h.trans ?_
  rw [hu]
  exact { Touches.refl t with
    table := fun k => (ht k).congr rfl rfl rfl
    settings := rfl
    latch := fun _ _ => ⟨rfl, rfl⟩
    clears := fun _ _ _ k => k
    cond := fun _ _ => rfl
    hold := fun _ _ => rfl
    calls := fun hn => absurd hm hn }

protected theorem Touches.setCall (h : Touches m s t) (hm : m.calls) {i : Nat} {f : Call → Call} (ht : CallTable t → CallTable (t.setCall i f)) :
    Touches m s (t.setCall i f) := h.withCalls hm rfl ht

protected theorem Touches.arbiterOnce (h : Touches m s t) (hm : m.calls) : Touches m s (arbiterOnce t) := by
  unfold Machine.arbiterOnce
  split
  · next l c hl hc =>
    refine (h.withCalls hm (u := { t.setCall c.id (fun x => { x with state := .dispatched, lane := some l, number := nextDispatch c.number }) with
      mon := { (t.setCall c.id (fun x => { x with state := .dispatched, lane := some l, number := nextDispatch c.number })).mon with
        lanes := upd t.mon.lanes l (fun _ => some { call := c.id, due := t.sec + laneTime }), lastBay := c.bay } })
      rfl fun k => ?_).queueNotice _ _
    exact (k.dispatched (freeLane_eq_some hl) (bestCall_mem hc).1 (bestCall_mem hc).2).congr
      (by simp [dispatch]) (by simp [dispatch, State.setCall]) (by simp [dispatch])
  · exact h

protected theorem Touches.arbiter (h : Touches m s t) (hm : m.calls) : Touches m s (arbiter t) := (h.arbiterOnce hm).arbiterOnce hm

protected theorem Touches.eventNotice (h : Touches m s t) (b : BayId) (k : EventKind) (call : String) (id : Nat) : Touches m s (eventNotice b k call id t) :=
  h.queueNotice _ _

protected theorem Touches.raiseCall (h : Touches m s t) (hm : m.calls) {b : BayId} {k : EventKind} (hroom : t.mon.calls.length < 32)
    (hnone : callFor t b k = none) : Touches m s (raiseCall b k t) :=
  h.withCalls hm rfl fun ht => ht.raised hroom hnone

protected theorem Touches.announce (h : Touches m s t) {b : BayId} (hb : m.Alarm b) (k : EventKind) : Touches m s (announce b k t) := by
  unfold Machine.announce
  split
  · exact h.eventNotice _ _ _ _
  · split
    · exact h.eventNotice _ _ _ _
    · next hnone =>
      split
      · next hroom => exact (((h.setLatch hb.latch).raiseCall hb.calls hroom hnone).eventNotice _ _ _ _).arbiter hb.calls
      · exact (h.setLatch hb.latch).eventNotice _ _ _ _

protected theorem Touches.newlySet (h : Touches m s t) {b : BayId} (hb : m.Alarm b) (k : EventKind) (forced : Bool) : Touches m s (newlySet b k forced t) := by
  unfold Machine.newlySet
  dsimp only
  split
  · exact (h.setLatch hb.latch (.inr fun _ _ => rfl)).announce hb k
  · exact h.setLatch hb.latch (.inr fun _ _ => rfl)

protected theorem Touches.raise (h : Touches m s t) {b : BayId} (hb : m.Alarm b) (k : EventKind) (forced : Bool) : Touches m s (Machine.latch b k forced t) := by
  unfold Machine.latch
  split
  · exact h
  · exact h.newlySet hb k forced

protected theorem Touches.report (h : Touches m s t) {b : BayId} (hb : m.Alarm b) (k : EventKind) : Touches m s (report b k t) := h.raise hb k false

protected theorem Touches.setCondition (h : Touches m s t) {b : BayId} (hb : m.Alarm b) (hc : m.cond b) (k : EventKind) (v : Bool) :
    Touches m s (setCondition b k v t) := by
  unfold Machine.setCondition
  split
  · exact h
  · dsimp only
    split
    · exact (h.setConds hc).raise hb k false
    · exact h.setConds hc

/-- What the clearing of a latch may change: the latch, and the standby of the bay. -/
structure Parts.Clearing (m : Parts) (b : BayId) : Prop where
  latch : m.latch b
  clears : m.clears b
  heat : m.heat b
  line : m.line b

protected theorem Touches.clearLatch (h : Touches m s t) {b : BayId} (hb : m.Clearing b) (k : EventKind) : Touches m s (clearLatch b k t) := by
  unfold Machine.clearLatch
  dsimp only
  split
  · exact (h.setLatch hb.latch (.inl hb.clears)).examineStandby hb.heat hb.line
  · exact h.setLatch hb.latch (.inl hb.clears)

protected theorem Touches.acknowledge (h : Touches m s t) {b : BayId} (hb : m.Clearing b) (k : EventKind) : Touches m s (acknowledge b k t) := by
  unfold Machine.acknowledge
  split
  · exact h
  · exact h.clearLatch hb k

protected theorem Touches.takeFault (h : Touches m s t) {b : BayId} (hb : m.Alarm b) (hc : m.cond b) (code : Nat) : Touches m s (takeFault b code t) := by
  unfold Machine.takeFault
  have hcode : Touches m s (t.setMon b fun x => { x with code := code }) := h.setLatches hb.latch (hset := .inr (by exact fun _ k => k))
  split
  · exact h.setCondition hb hc _ _
  · dsimp only
    split
    · split
      · exact h
      · have hl := hcode.setLatch (b := b) (k := .ovenFault) (f := fun x => { x with code := code }) hb.latch
        split
        · exact hl.setCall hb.calls fun k => k.edited _ fun _ => ⟨rfl, rfl, rfl, rfl, rfl, rfl⟩
        · exact hl
    · exact hcode.setCondition hb hc _ _

protected theorem Touches.rescanLatch (h : Touches m s t) {b : BayId} (hb : m.Alarm b) (k : EventKind) : Touches m s (rescanLatch b k t) := by
  unfold Machine.rescanLatch
  dsimp only
  split
  · next hif =>
    simp only [Bool.and_eq_true, decide_eq_true_eq, Option.isNone_iff_eq_none] at hif
    split
    · exact ((h.setLatch hb.latch).raiseCall hb.calls hif.1.1.1 hif.2).arbiter hb.calls
    · exact h.setLatch hb.latch
  · exact h

protected theorem Touches.rescan (h : Touches m s t) (hb : ∀ b, m.Alarm b) : Touches m s (rescan t) :=
  h.each _ _ fun b _ u => (Touches.refl u).each _ _ fun k _ w => (Touches.refl w).rescanLatch (hb b) k

protected theorem Touches.storeHold (h : Touches m s t) (hm : m.store) (b : BayId) : Touches m s (storeHold b t) := h.storeRecord hm _ _ _

protected theorem Touches.setHold (h : Touches m s t) {b : BayId} (hb : m.hold b) (hm : m.store) (k : HoldKind) (p : Bool) : Touches m s (setHold b k p t) :=
  (h.setMode hb).storeHold hm b

protected theorem Touches.takeHold (h : Touches m s t) {b : BayId} (hb : m.hold b) (hm : m.store) : Touches m s (takeHold b t) := by
  unfold Machine.takeHold
  split
  · exact h
  · exact h.setHold hb hm _ _

protected theorem Touches.actDeferred (h : Touches m s t) {b : BayId} (hb : m.hold b) (hm : m.store) : Touches m s (actDeferred b t) := by
  unfold Machine.actDeferred
  dsimp only
  split
  · split
    · exact (h.setMode hb).takeHold hb hm
    · exact h.setMode hb
  · exact h

/-! ## Orders whose placement is recorded -/

protected theorem Touches.placeStep (h : Touches m s t) {b : BayId} (hl : m.line b) (hr : m.run b) (body : OrderBody)
    (hgo : body.kind ≠ .applyGo := by exact nofun) : Touches m s (placeOrder b body .step t) := by
  refine h.placeNoted hl body .step (.inr hgo) fun u id hu => ?_
  unfold Machine.applyNote
  split
  · exact hu.setRun hr
  all_goals first | exact hu | simp_all

protected theorem Touches.placePhase (h : Touches m s t) {b : BayId} (hl : m.line b) (hc : m.cleaning b) (body : OrderBody)
    (hgo : body.kind ≠ .applyGo := by exact nofun) : Touches m s (placeOrder b body .cleanPhase t) :=
  h.placeNoted hl body .cleanPhase (.inr hgo) fun _ _ hu => hu.setCleanRec hc

protected theorem Touches.placeDiscard (h : Touches m s t) {b : BayId} (hl : m.line b) {c : Fin 4} (hc : m.flow c) (body : OrderBody)
    (hgo : body.kind ≠ .applyGo := by exact nofun) : Touches m s (placeOrder b body (.discard c) t) :=
  h.placeNoted hl body (.discard c) (.inr hgo) fun _ _ hu => hu.setChannel hc

protected theorem Touches.placeGo (h : Touches m s t) {b : BayId} (hl : m.line b) (hg : m.grace b) (hgo : m.go b) :
    Touches m s (placeOrder b .applyGo .applyGo t) :=
  h.placeNoted hl .applyGo .applyGo (.inl hgo) fun _ _ hu => hu.setTimers hg hgo

/-! ## The Run Engine -/

/-- What the Run Engine's work on a bay's run may change. -/
structure Parts.RunWork (m : Parts) (b : BayId) : Prop where
  run : m.run b
  runEnd : m.runEnd b

protected theorem Touches.runStep (h : Touches m s t) {b : BayId} (hr : m.RunWork b) (event : String) : Touches m s (runStep b event t) := by
  unfold Machine.runStep
  split
  · exact h
  · exact (h.setRun hr.run (.inl hr.runEnd)).queueNotice _ _

protected theorem Touches.orderStep (h : Touches m s t) {b : BayId} (hr : m.RunWork b) (hm : m.Recompute) : Touches m s (orderStep b t) := by
  unfold Machine.orderStep
  split
  · exact h
  · split
    · exact h
    · exact ((h.setRun hr.run (.inl hr.runEnd)).placeStep (hm.line b) hr.run _).recompute hm

protected theorem Touches.reorderStep (h : Touches m s t) {b : BayId} (hr : m.RunWork b) (hl : m.line b) (r : Run) : Touches m s (reorderStep b r t) := by
  unfold Machine.reorderStep
  split
  · exact h
  · exact (h.setRun hr.run (.inl hr.runEnd)).placeStep hl hr.run _

/-- What the start of a job of a bay may change. -/
structure Parts.StartRun (m : Parts) (b : BayId) : Prop where
  lib : m.lib
  claim : m.claim b
  work : m.RunWork b
  heat : m.heat b
  recompute : m.Recompute

protected theorem Touches.startRun (h : Touches m s t) {b : BayId} (hb : m.StartRun b) (e : Entry) : Touches m s (startRun b e t) := by
  have hrec : ∀ (r : Run) (n : Nat) (u : State), Touches m s u →
      Touches m s { u with runs := { u.runs with runs := upd u.runs.runs b (fun _ => some r), nextId := n } } := fun r n u hu =>
    hu.trans { Touches.refl u with
      table := fun k => k.congr rfl rfl rfl
      runSite := rfl
      run := fun d hd => upd_get_of_ne hb.work.run hd
      runEnd := fun d hd => congrArg (Option.map Run.job) (upd_get_of_ne hb.work.runEnd hd) }
  have hnew := hrec (Run.create (takeRunId t) e.number e.cur t.sec) (nextOrderId (takeRunId t)) _
    ((h.pin hb.lib e.number).setClaim (b := b) (f := fun x => { x with activity := .cook }) hb.claim)
  unfold Machine.startRun
  dsimp only
  split
  · exact ((hnew.setRun hb.work.run (.inl hb.work.runEnd)).wakeCause hb.heat (hb.recompute.line b)).recompute hb.recompute
  · exact hnew.orderStep hb.work hb.recompute

protected theorem Touches.runPowerOn (h : Touches m s t) {b : BayId} (hr : m.RunWork b) (hm : m.Recompute) : Touches m s (runPowerOn b t) := by
  unfold Machine.runPowerOn
  split
  · exact h
  · dsimp only
    split
    · exact (h.setRun hr.run (.inl hr.runEnd)).orderStep hr hm
    · exact h.setRun hr.run (.inl hr.runEnd)

protected theorem Touches.acceptStep (h : Touches m s t) {b : BayId} (hr : m.RunWork b) (hm : m.Recompute) (id : Nat) : Touches m s (acceptStep b id t) := by
  unfold Machine.acceptStep
  split
  · exact h
  · split
    · split
      · exact h.setRun hr.run (.inl hr.runEnd)
      · have hbegun := ((h.setRun (b := b) (f := fun x => x.begin t.now) hr.run (.inl hr.runEnd)).runStep (b := b) hr "BEGIN").setRun (b := b)
          (f := fun x => (x.startIfFirst t.sec).toRunning) hr.run (.inl hr.runEnd)
        dsimp only
        split
        · exact hbegun.recompute hm
        · exact hbegun
    · exact h

protected theorem Touches.sendSetpoint (h : Touches m s t) {b : BayId} (hr : m.RunWork b) (hl : m.line b) (sp : Int) : Touches m s (sendSetpoint b sp t) := by
  unfold Machine.sendSetpoint
  split
  · split
    · exact (h.setRun hr.run (.inl hr.runEnd)).placePlain hl _
    · exact h
  · exact h

protected theorem Touches.reportEstimate (h : Touches m s t) {b : BayId} (hr : m.RunWork b) : Touches m s (reportEstimate b t) := by
  unfold Machine.reportEstimate
  split
  · split
    · exact h.runStep hr _
    · exact h
  · exact h

protected theorem Touches.probeCall (h : Touches m s t) {b : BayId} (hr : m.RunWork b) (hl : m.line b) (ha : m.Alarm b) (st : Step) (points : List Int) :
    Touches m s (probeCall b st points t) := by
  unfold Machine.probeCall
  split
  · refine Touches.reportEstimate ?_ hr
    refine Touches.setRun ?_ hr.run (.inl hr.runEnd)
    split
    · exact (h.setRun hr.run (.inl hr.runEnd)).sendSetpoint hr hl _
    · exact h.setRun hr.run (.inl hr.runEnd)
  · refine Touches.reportEstimate ?_ hr
    split
    · exact ((h.setRun hr.run (.inl hr.runEnd)).setRun hr.run (.inl hr.runEnd)).report ha _
    · exact h.setRun hr.run (.inl hr.runEnd)

/-! ## The Cleaning Sequencer -/

protected theorem Touches.reportHygiene (h : Touches m s t) {b : BayId} (ha : m.Alarm b) (hc : m.cond b) : Touches m s (reportHygiene b t) :=
  ((h.setCondition ha hc _ _).setCondition ha hc _ _).setCondition ha hc _ _

/-- What a change of a bay's hygiene record may change. -/
structure Parts.Soiling (m : Parts) (b : BayId) : Prop where
  hygiene : m.hygiene b
  store : m.store
  alarm : m.Alarm b
  cond : m.cond b

protected theorem Touches.setHygiene (h : Touches m s t) {b : BayId} (hb : m.Soiling b) (f : Hygiene → Hygiene) : Touches m s (setHygiene b f t) :=
  ((h.putHygiene hb.hygiene).storePut hb.store _).reportHygiene hb.alarm hb.cond

protected theorem Touches.withdrawPhase (h : Touches m s t) {b : BayId} (hb : m.Orders b) (hd : m.drops b .cleanPhase) : Touches m s (withdrawPhase b t) := by
  unfold Machine.withdrawPhase
  dsimp only
  split
  · exact h.withdraw hb fun k hk => List.mem_singleton.1 hk ▸ hd
  · exact h

/-- What the orders of a bay may change, and nothing else. -/
def Parts.orders (b : BayId) : Parts :=
  { line := (· = b), drops := fun d k => d = b ∧ k = .cleanPhase, grace := (· = b), run := (· = b), cleaning := (· = b), flow := fun _ => True }

theorem Parts.orders_orders (b : BayId) : (Parts.orders b).Orders b := ⟨rfl, rfl, rfl, rfl, fun _ => trivial⟩

theorem withdrawPhase_orders (b : BayId) (s : State) : Touches (.orders b) s (withdrawPhase b s) :=
  (Touches.refl s).withdrawPhase (Parts.orders_orders b) ⟨rfl, rfl⟩

theorem liveClean_eq_some {s : State} {b : BayId} {c : CleanRec} (h : liveClean s b = some c) :
    s.clean[b].record = some c ∧ c.state.final = false := by
  simpa [liveClean, Option.filter_eq_some_iff] using h

theorem liveRun_eq_some {s : State} {b : BayId} {r : Run} (h : liveRun s b = some r) : s.runs.runs[b] = some r ∧ r.state.final = false := by
  simpa [liveRun, Option.filter_eq_some_iff] using h

/-- What the Cleaning Sequencer's work on a bay's cleaning may change, with the orders of its phases. -/
structure Parts.CleanWork (m : Parts) (b : BayId) : Prop where
  orders : m.Orders b
  drops : m.drops b .cleanPhase
  cleanEnd : m.cleanEnd b

protected theorem Touches.enterPhase (h : Touches m s t) {b : BayId} (hb : m.CleanWork b) (st : CleanState) : Touches m s (enterPhase b st t) := by
  unfold Machine.enterPhase
  split
  · exact h
  · exact ((h.withdrawPhase hb.orders hb.drops).setCleanRec hb.orders.cleaning (.inl hb.cleanEnd)).placePhase hb.orders.line hb.orders.cleaning _

protected theorem Touches.enterCooling (h : Touches m s t) {b : BayId} (hb : m.CleanWork b) : Touches m s (enterCooling b t) :=
  (h.setCleanRec hb.orders.cleaning (.inl hb.cleanEnd)).placePhase hb.orders.line hb.orders.cleaning _

protected theorem Touches.enterFirst (h : Touches m s t) {b : BayId} (hb : m.CleanWork b) (hm : m.Recompute) (c : CleanRec) :
    Touches m s (enterFirst b c t) := by
  unfold Machine.enterFirst
  dsimp only
  split
  · exact (h.enterPhase hb _).recompute hm
  · exact h.enterPhase hb _

protected theorem Touches.leaveRequested (h : Touches m s t) {b : BayId} (hb : m.CleanWork b) : Touches m s (leaveRequested b t) := by
  unfold Machine.leaveRequested
  split
  · exact h
  · split
    · exact h.enterCooling hb
    · exact h.enterPhase hb _

/-- What the start of a cleaning of a bay may change. -/
structure Parts.StartClean (m : Parts) (b : BayId) : Prop where
  claim : m.claim b
  work : m.CleanWork b
  heat : m.heat b
  recompute : m.Recompute

protected theorem Touches.startCleaning (h : Touches m s t) {b : BayId} (hb : m.StartClean b) (p : Program) (o : Origin) :
    Touches m s (startCleaning b p o t) := by
  have hnew := (h.setClaim (b := b) (f := fun r => { r with activity := .clean }) hb.claim).setCleaning (b := b)
    (f := fun c => { c with record := some (.create p o t.sec) }) hb.work.orders.cleaning (fun _ => ⟨rfl, rfl⟩) (.inl hb.work.cleanEnd)
  refine Touches.recompute ?_ hb.recompute
  split
  · exact (hnew.setCleanRec hb.work.orders.cleaning (.inl hb.work.cleanEnd)).wakeCause hb.heat hb.work.orders.line
  · exact hnew.leaveRequested hb.work

protected theorem Touches.acceptPhase (h : Touches m s t) {b : BayId} (hb : m.CleanWork b) (id : Nat) : Touches m s (acceptPhase b id t) := by
  unfold Machine.acceptPhase
  split
  · exact h
  · split
    · exact h.setCleanRec hb.orders.cleaning (.inl hb.cleanEnd)
    · exact h

protected theorem Touches.forceRinse (h : Touches m s t) {b : BayId} (hb : m.CleanWork b) (hm : m.Recompute) (o : CleanOutcome) (r : CleanReason) :
    Touches m s (forceRinse b o r t) :=
  ((h.setCleanRec hb.orders.cleaning (.inl hb.cleanEnd)).enterPhase hb .rinsing).recompute hm

protected theorem Touches.rinseCompletion (h : Touches m s t) {b : BayId} (hb : m.Soiling b) (c : CleanRec) : Touches m s (rinseCompletion b c t) :=
  h.setHygiene hb _

protected theorem Touches.takeDoses (h : Touches m s t) {b : BayId} (hb : m.Soiling b) (hcl : m.clean b) (hw : m.CleanWork b) (counter : Nat)
    (hs : m.sensed b := by trivial) : Touches m s (takeDoses b counter t) := by
  have hbase := h.setClean (b := b) (f := fun c => { c with baseline := some counter }) hcl (hsen := .inl hs)
  unfold Machine.takeDoses
  dsimp only
  split
  · exact hbase
  · split
    · exact hbase
    · refine Touches.setHygiene ?_ hb _
      split
      · exact hbase.setCleanRec hw.orders.cleaning (.inl hw.cleanEnd)
      · exact hbase

protected theorem Touches.windowClean (h : Touches m s t) {b : BayId} (hb : m.StartClean b) (hcl : m.clean b) (ha : m.Alarm b) (e : Fin 24) (p : Program)
    (threshold : Nat) : Touches m s (windowClean e p threshold b t) := by
  unfold Machine.windowClean
  split
  · exact h
  · split
    · exact h.startCleaning hb _ _
    · exact h.setClean hcl
    · exact h.report ha _
    · exact h.report ha _
    · exact h

protected theorem Touches.retryPending (h : Touches m s t) {b : BayId} (hb : m.StartClean b) (hcl : m.clean b) : Touches m s (retryPending b t) := by
  unfold Machine.retryPending
  split
  · exact h
  · dsimp only
    split
    · exact h.setClean hcl
    · split
      · exact (h.setClean hcl).startCleaning hb _ _
      · exact h

protected theorem Touches.cleanWindowLeft (h : Touches m s t) {b : BayId} (hcl : m.clean b) (ha : m.Alarm b) : Touches m s (cleanWindowLeft b t) := by
  unfold Machine.cleanWindowLeft
  split
  · exact h
  · exact (h.setClean hcl).report ha _

/-! ## The Update Distributor -/

theorem Progress.settled_of_waiting {p : Progress} (h : p.waiting = true) : p.settled = false := by
  cases p <;> trivial

/-- The progress of an entry that is not final changes. -/
protected theorem Touches.setProgress (h : Touches m s t) {c : Fin 4} (hf : m.flow c) (hc : m.chan c) {b : BayId}
    (hp : m.opens c ∨ (t.dist.channels[c].progress[b]).settled = false) (p : Progress) : Touches m s (setProgress c b p t) :=
  h.setChannel hf (.inl hc) (hp.imp id fun hn d hd => ⟨upd_other _ _ _ _ fun e => Bool.false_ne_true (hn.symm.trans (e ▸ hd.1)), hd.2⟩)

protected theorem Touches.transferNotice (h : Touches m s t) (c : Fin 4) (b : BayId) (p : Progress) : Touches m s (transferNotice c b p t) := h.queueNotice _ _

protected theorem Touches.settleProgress (h : Touches m s t) {c : Fin 4} (hf : m.flow c) (hc : m.chan c) {b : BayId}
    (hp : m.opens c ∨ (t.dist.channels[c].progress[b]).settled = false) (p : Progress) : Touches m s (settleProgress c b p t) :=
  (h.setProgress hf hc hp p).transferNotice c b p

protected theorem Touches.dropUser (h : Touches m s t) (hm : m.slots) (k : Fin 4) : Touches m s (dropUser k t) := h.setSlot hm

protected theorem Touches.judgeDone (h : Touches m s t) {c : Fin 4} (hf : m.flow c) (hc : m.chan c) (hm : m.slots) : Touches m s (judgeDone c t) := by
  unfold Machine.judgeDone
  dsimp only
  split
  · exact ((h.setChannel hf (.inl hc)).dropUser hm _).queueNotice _ _
  · exact h

protected theorem Touches.placeBlock (h : Touches m s t) {c : Fin 4} (hf : m.flow c) {b : BayId} (hl : m.line b) : Touches m s (placeBlock c b t) :=
  (h.setChannel hf).placePlain hl _

protected theorem Touches.placeBlocksUpTo (h : Touches m s t) {c : Fin 4} (hf : m.flow c) {b : BayId} (hl : m.line b) (fuel : Nat) :
    Touches m s (placeBlocksUpTo c b fuel t) := by
  induction fuel generalizing t with
  | zero => exact h
  | succ fuel ih =>
    unfold Machine.placeBlocksUpTo
    split
    · exact ih (h.placeBlock hf hl)
    · exact h

protected theorem Touches.placeBlocks (h : Touches m s t) {c : Fin 4} (hf : m.flow c) {b : BayId} (hl : m.line b) : Touches m s (placeBlocks c b t) :=
  h.placeBlocksUpTo hf hl _

protected theorem Touches.flowBlocks (h : Touches m s t) (hf : ∀ c, m.flow c) {b : BayId} (hl : m.line b) : Touches m s (flowBlocks b t) := by
  unfold Machine.flowBlocks
  split
  · exact h.placeBlocks (hf _) hl
  · exact h

protected theorem Touches.reportSpace (h : Touches m s t) {b : BayId} (hb : m.Orders b) : Touches m s (reportSpace b t) :=
  (h.offerHeld hb).flowBlocks hb.flow hb.line

protected theorem Touches.deliverBlock (h : Touches m s t) (hf : ∀ c, m.flow c) (b : BayId) (offset n : Nat) : Touches m s (deliverBlock b offset n t) := by
  unfold Machine.deliverBlock
  split
  · exact h
  · exact h.setChannel (hf _)

protected theorem Touches.discardBlock (h : Touches m s t) (hf : ∀ c, m.flow c) (b : BayId) (offset : Nat) : Touches m s (discardBlock b offset t) := by
  unfold Machine.discardBlock
  split
  · exact h
  · split
    · exact h.setChannel (hf _)
    · exact h

protected theorem Touches.offerIfComplete (h : Touches m s t) {b : BayId} (hb : m.Orders b) (hd : ∀ k, m.drops b k) {c : Fin 4} (hc : m.chan c) :
    Touches m s (offerIfComplete c b t) := by
  unfold Machine.offerIfComplete
  dsimp only
  split
  · next hx =>
    have hput := h.setProgress (hb.flow c) hc (b := b) (.inr (by rw [hx.1]; rfl)) .applying
    exact ((hput.setChannel (hb.flow c)).withdraw hb fun k _ => hd k).placePlain hb.line _
  · exact h

protected theorem Touches.acceptOffer (h : Touches m s t) (hf : ∀ c, m.flow c) (b : BayId) : Touches m s (acceptOffer b t) := by
  unfold Machine.acceptOffer
  split
  · split
    · exact h.setChannel (hf _)
    · exact h
  · exact h

protected theorem Touches.acceptDiscard (h : Touches m s t) (hf : ∀ c, m.flow c) {b : BayId} (hl : m.line b) (id : Nat) : Touches m s (acceptDiscard b id t) := by
  unfold Machine.acceptDiscard
  split
  · split
    · exact (h.setChannel (hf _)).placeBlocks (hf _) hl
    · exact h
  · exact h

protected theorem Touches.beginTransfer (h : Touches m s t) {c : Fin 4} (hf : m.flow c) (hc : m.chan c) {b : BayId} (hb : m.claim b) (hm : m.Recompute)
    (hp : m.opens c ∨ (t.dist.channels[c].progress[b]).settled = false) : Touches m s (beginTransfer c b t) := by
  have hcurrent := (h.setProgress hf hc hp .transferring).setChannel (c := c) (f := fun x =>
    { x with current := some b, offset := 0, acked := 0, misses := 0, discardId := none, discardTaken := false, window := 1, delivered := [],
             lastEnd := 0, missSince := false, ackDue := none, offerDue := none }) hf (.inl hc) (.inr fun d hd => ⟨rfl, fun e => by
      obtain rfl := Option.some_inj.1 e
      have hentry : ((setProgress c b .transferring t).dist.channels[c]).progress[b] = .transferring := by
        rw [setProgress, State.setChannel_dist, upd_same]
        exact upd_same _ _ _
      have hset := hd.1
      rw [hentry] at hset
      cases hset⟩)
  exact (((hcurrent.setClaim hb).transferNotice c b _).placeDiscard (hm.line b) hf _).recompute hm

protected theorem Touches.endWaiting (h : Touches m s t) {c : Fin 4} (hf : m.flow c) (hc : m.chan c) {b : BayId} (hh : m.heat b) (hl : m.line b)
    (hp : m.opens c ∨ (t.dist.channels[c].progress[b]).settled = false) (p : Progress) : Touches m s (endWaiting c b p t) :=
  (h.settleProgress hf hc hp p).examineStandby hh hl

/-- What a pass may change, but for the claims it makes. -/
structure Parts.Visit (m : Parts) : Prop where
  flow : ∀ c, m.flow c
  chan : ∀ c, m.chan c
  slots : m.slots
  heat : ∀ b, m.heat b
  recompute : m.Recompute

/-- What a pass may change. -/
structure Parts.Pass (m : Parts) : Prop extends Parts.Visit m where
  claim : ∀ b, m.claim b

/-- A bay that is not READY, or is held, is claimed for no job. -/
def Barred (s : State) (b : BayId) : Prop := s.reg[b].state ≠ .ready ∨ s.mon.bays[b].hold ≠ .nothing

theorem Touches.held {b : BayId} (h : Touches m s t) (hb : ¬ m.hold b) : t.mon.bays[b].hold = s.mon.bays[b].hold :=
  congrArg (fun z : Option Bool × Bool × HoldKind × Bool × List Nat => z.2.2.1) (h.hold b hb)

theorem Barred.touched {b : BayId} (hb : Barred s b) (h : Touches m s t) (hr : ¬ m.reg b) (hh : ¬ m.hold b) : Barred t b :=
  hb.imp (fun hcold => by rw [h.reg b hr]; exact hcold)
    fun hheld => by rw [h.held hh]; exact hheld

/-- A bay that a pass may claim, or one that is barred and stays so. -/
def Parts.MayClaim (m : Parts) (s : State) (b : BayId) : Prop := m.claim b ∨ ¬ m.reg b ∧ ¬ m.hold b ∧ Barred s b

theorem Parts.MayClaim.touched {b : BayId} (hb : m.MayClaim s b) (h : Touches m s t) : m.MayClaim t b :=
  hb.imp id fun ⟨hr, hh, hbar⟩ => ⟨hr, hh, hbar.touched h hr hh⟩

protected theorem Touches.passVisit (h : Touches m s t) (hm : m.Visit) (released : Option BayId) (c : Fin 4) {b : BayId} (hb : m.MayClaim t b) :
    Touches m s (passVisit released c b t) := by
  unfold Machine.passVisit
  dsimp only
  split
  · next hx =>
    obtain ⟨-, -, -, hwaiting⟩ := hx
    have hopen : m.opens c ∨ (t.dist.channels[c].progress[b]).settled = false := .inr (Progress.settled_of_waiting hwaiting)
    have hend := fun p => h.endWaiting (hm.flow c) (hm.chan c) (hm.heat b) (hm.recompute.line b) hopen p
    have hput := h.setProgress (hm.flow c) (hm.chan c) hopen .deferred
    split
    · exact h
    · split
      · exact hend _
      · next hready =>
        split
        · exact hend _
        · split
          · exact hend _
          · next hfree =>
            split
            · exact hput
            · split
              · split
                · exact h
                · exact hput
              · split
                · exact hput.wakeCause (hm.heat b) (hm.recompute.line b)
                · exact h.beginTransfer (hm.flow c) (hm.chan c) (hb.resolve_right fun ⟨_, _, hbar⟩ => hbar.elim hready hfree) hm.recompute hopen
  · exact h

theorem Touches.each_while {α : Type} (l : List α) (f : α → State → State) (hf : ∀ a ∈ l, ∀ u, Touches m s u → Touches m u (f a u)) (h : Touches m s t) :
    Touches m s (t.each l f) := by
  induction l generalizing t with
  | nil => exact h
  | cons a l ih => exact ih (fun x hx => hf x (List.mem_cons_of_mem a hx)) (h.trans (hf a List.mem_cons_self t h))

/-- A pass claims READY bays alone. -/
theorem Touches.pass_claiming (h : Touches m s t) (hm : m.Visit) (hb : ∀ b, m.MayClaim t b) (released : Option BayId) (c : Fin 4) :
    Touches m s (Machine.pass released c t) :=
  h.trans (Touches.judgeDone (Touches.each_while _ _ (fun b _ u hu => (Touches.refl u).passVisit hm released c ((hb b).touched hu)) (Touches.refl t))
    (hm.flow c) (hm.chan c) hm.slots)

theorem Touches.retryPasses_claiming (h : Touches m s t) (hm : m.Visit) (hb : ∀ b, m.MayClaim t b) (released : Option BayId) :
    Touches m s (Machine.retryPasses released t) :=
  h.trans (Touches.each_while _ _ (fun c _ u hu => (Touches.refl u).pass_claiming hm (fun b => (hb b).touched hu) released c) (Touches.refl t))

protected theorem Touches.pass (h : Touches m s t) (hm : m.Pass) (released : Option BayId) (c : Fin 4) : Touches m s (pass released c t) :=
  h.pass_claiming hm.toVisit (fun b => .inl (hm.claim b)) released c

protected theorem Touches.retryPasses (h : Touches m s t) (hm : m.Pass) (released : Option BayId) : Touches m s (retryPasses released t) :=
  h.retryPasses_claiming hm.toVisit (fun b => .inl (hm.claim b)) released

protected theorem Touches.resend (h : Touches m s t) {b : BayId} (hb : m.Orders b) (hd : ∀ k, m.drops b k) (c : Fin 4) (offset : Nat) : Touches m s (resend c b offset t) :=
  ((h.setChannel (hb.flow c)).withdraw hb fun k _ => hd k).placeBlocks (hb.flow c) hb.line

protected theorem Touches.windowMissed (h : Touches m s t) (hf : ∀ c, m.flow c) (hc : ∀ c, m.chan c) (hm : m.slots) {b : BayId} (hh : m.heat b) (hl : m.line b) :
    Touches m s (windowMissed b t) := by
  refine h.each _ _ fun c _ u => ?_
  dsimp only
  split
  · next hx =>
    obtain ⟨-, -, hwaiting⟩ := hx
    exact ((Touches.refl u).endWaiting (hf c) (hc c) hh hl (.inr (Progress.settled_of_waiting hwaiting)) _).judgeDone (hf c) (hc c) hm
  · exact Touches.refl u

end

end Sys2Proof.Machine


/-! SUPPORT. `Touches` for the endings of jobs, the Bay Registry, the parts of a status record, and the windows. -/

namespace Sys2Proof.Machine

set_option Elab.async false

open Sys2Proof

section
variable {m : Parts} {s t : State}

/-! ## SAFE -/

protected theorem Touches.discardReport (h : Touches m s t) {b : BayId} (hb : m.Orders b) (hgo : m.go b) (o : Order) : Touches m s (discardReport b o t) := by
  have hput := fun body note => h.placeOrder hb body note (.inl hgo)
  unfold Machine.discardReport
  split
  · split
    · exact hput _ _
    · exact h
  · exact h
  · split
    · exact hput _ _
    · exact h
  · split
    · split
      · exact hput _ _
      · exact h
    · exact h
  · exact hput _ _
  · split
    · exact hput _ _
    · exact h
  · split
    · exact hput _ _
    · exact h
  · exact h.discardBlock hb.flow b _
  · split
    · exact hput _ _
    · exact h
  · split
    · exact hput _ _
    · exact h
  · split
    · split
      · exact hput _ _
      · exact h
    · exact h
  · exact h

protected theorem Touches.placeSafe (h : Touches m s t) {b : BayId} (hb : m.Orders b) (hgo : m.go b) (hd : ∀ k, m.drops b k) :
    Touches m s (placeSafe b t) := by
  unfold Machine.placeSafe
  split
  · have hsafe := h.setOrders (b := b)
      (f := fun x => { x with queue := [{ id := t.line.bays[b].nextId, body := .safe, delivered := false }], nextId := nextOrderId x.nextId })
      hb.line (fun _ _ => .inl (hd _)) (hfirst := .inr fun _ => rfl)
    exact (hsafe.each _ _ fun o _ u => (Touches.refl u).discardReport hb hgo o).reportSpace hb
  · exact h

/-! ## Releases -/

/-- What the handing on of a bay's release may change. -/
structure Parts.Release (m : Parts) (b : BayId) : Prop where
  pass : m.Pass
  start : m.StartClean b
  clean : m.clean b

protected theorem Touches.handOn (h : Touches m s t) {b : BayId} {o : HandOn} (ho : o = .later ∨ m.Release b) : Touches m s (handOn o b t) := by
  cases o with
  | later => exact h
  | now =>
    obtain ho | ho := ho
    · cases ho
    · have hall := ((h.heatRelease ho.start.heat ho.start.recompute).retryPasses ho.pass (some b)).retryPending ho.start ho.clean
      simpa only [Machine.handOn] using hall
  | noPass =>
    obtain ho | ho := ho
    · cases ho
    · have hall := (h.heatRelease ho.start.heat ho.start.recompute).retryPending ho.start ho.clean
      simpa only [Machine.handOn] using hall

protected theorem Touches.release (h : Touches m s t) {b : BayId} (hb : m.claim b) : Touches m s (release b t) := h.setClaim hb

protected theorem Touches.handOnIfEnded (h : Touches m s t) {b : BayId} (hb : m.Release b) (a : Activity) : Touches m s (handOnIfEnded a b t) := by
  unfold Machine.handOnIfEnded
  split
  · exact h.handOn (.inr hb)
  · exact h

/-! ## The end of a job -/

/-- What the end of a bay's run may change. -/
structure Parts.EndRun (m : Parts) (b : BayId) : Prop where
  orders : m.Orders b
  drops : ∀ k, m.drops b k
  go : m.go b
  runEnd : m.runEnd b
  lib : m.lib
  soiling : m.Soiling b
  claim : m.claim b

theorem Parts.EndRun.work {b : BayId} (h : m.EndRun b) : m.RunWork b := ⟨h.orders.run, h.runEnd⟩

protected theorem Touches.dropHeldRun (h : Touches m s t) {b : BayId} (hl : m.line b) : Touches m s (dropHeldRun b t) :=
  h.setOrders hl (fun _ ho => .inr fun _ => ho) (hgo := .inr fun hn x hx => hn x (List.mem_filter.1 hx).1)

protected theorem Touches.endOrder (h : Touches m s t) {b : BayId} (hb : m.Orders b) (hgo : m.go b) (hd : ∀ k, m.drops b k) (e : EndOrder) (id : Nat) :
    Touches m s (endOrder e b id t) := by
  cases e with
  | idleStep => exact h.placePlain hb.line _
  | safe => exact (h.dropHeldRun hb.line).placeSafe hb hgo hd
  | nothing => exact h.dropHeldRun hb.line

protected theorem Touches.endRun (h : Touches m s t) {b : BayId} (hb : m.EndRun b) {o : HandOn} (ho : o = .later ∨ m.Release b) (st : RunState)
    (reason : RunReason) (e : EndOrder) : Touches m s (endRun b st reason e o t) := by
  unfold Machine.endRun
  split
  · exact h
  · next r _ =>
    have hfinal := (h.setRun (b := b) (f := fun _ => r.close st reason t.now) hb.orders.run (.inl hb.runEnd)).endOrder hb.orders hb.go hb.drops e r.id
    exact (((((hfinal.releasePin hb.lib _ _).setHygiene hb.soiling _).setRun hb.orders.run (.inl hb.runEnd)).release hb.claim).handOn ho).queueNotice _ _

protected theorem Touches.abortRun (h : Touches m s t) {b : BayId} (hb : m.EndRun b) (hr : m.Release b) (reason : RunReason) :
    Touches m s (abortRun b reason t) := h.endRun hb (.inr hr) _ _ _

/-- What the end of a bay's cleaning may change. -/
structure Parts.EndClean (m : Parts) (b : BayId) : Prop where
  orders : m.Orders b
  drops : ∀ k, m.drops b k
  go : m.go b
  cleanEnd : m.cleanEnd b
  claim : m.claim b

theorem Parts.EndClean.work {b : BayId} (h : m.EndClean b) : m.CleanWork b := ⟨h.orders, h.drops _, h.cleanEnd⟩

protected theorem Touches.dropHeldPhase (h : Touches m s t) {b : BayId} (hl : m.line b) : Touches m s (dropHeldPhase b t) :=
  h.setOrders hl (fun _ ho => .inr fun _ => ho) (hgo := .inr fun hn x hx => hn x (List.mem_filter.1 hx).1)

protected theorem Touches.endClean (h : Touches m s t) {b : BayId} (hb : m.EndClean b) {o : HandOn} (ho : o = .later ∨ m.Release b) (st : CleanState)
    (oc : CleanOutcome) (r : CleanReason) (safe : Bool) : Touches m s (endClean b st oc r safe o t) := by
  unfold Machine.endClean
  split
  · exact h
  · refine Touches.queueNotice (Touches.handOn (Touches.release ?_ hb.claim) ho) _ _
    have hclosed := (h.setCleanRec (b := b) (f := fun x => x.close st oc r t.now) hb.orders.cleaning (.inl hb.cleanEnd)).dropHeldPhase (b := b)
      hb.orders.line
    split
    · exact hclosed.placeSafe hb.orders hb.go hb.drops
    · exact hclosed

protected theorem Touches.endDrying (h : Touches m s t) {b : BayId} (hb : m.EndClean b) (hr : m.Release b) (c : CleanRec) :
    Touches m s (endDrying b c t) := by
  unfold Machine.endDrying
  split <;> exact h.endClean hb (.inr hr) _ _ _ _

protected theorem Touches.endPhase (h : Touches m s t) {b : BayId} (hb : m.EndClean b) (hs : m.Soiling b) (hr : m.Release b) :
    Touches m s (endPhase b t) := by
  unfold Machine.endPhase
  split
  · exact h
  · next c hc =>
    split
    · exact (h.enterPhase hb.work _).recompute hr.start.recompute
    · exact ((h.rinseCompletion hs c).enterPhase hb.work _).recompute hr.start.recompute
    · exact h.endDrying hb hr c
    · exact h

/-- What the end of a bay's transfer may change. -/
structure Parts.EndTransfer (m : Parts) (b : BayId) (c : Fin 4) : Prop where
  orders : m.Orders b
  drops : ∀ k, m.drops b k
  go : m.go b
  opens : m.opens c
  chan : m.chan c
  slots : m.slots
  alarm : m.Alarm b
  claim : m.claim b
  hold : m.hold b
  store : m.store

protected theorem Touches.endTransfer (h : Touches m s t) {b : BayId} {c : Fin 4} (hb : m.EndTransfer b c) {o : HandOn} (ho : o = .later ∨ m.Release b)
    (p : Progress) (judge : Bool) : Touches m s (endTransfer c b p judge o t) := by
  obtain ⟨horders, hdrops, hgo, hopens, hchan, hslots, halarm, hclaim, hhold, hstore⟩ := hb
  have hflow := horders.flow c
  have hput := (h.setProgress (b := b) hflow hchan (.inl hopens) p).setChannel (c := c) (f := fun x => { x with ackDue := none, offerDue := none, delivered := [] }) hflow
  have hquiet : Touches m s (((setProgress c b p t).setChannel c fun x => { x with ackDue := none, offerDue := none, delivered := [] }).setLine b
      fun l => { l with grace := none, held := l.held.map HeldOrder.disown }) :=
    (hput.setTimers (b := b) (f := fun l => { l with grace := none }) horders.grace hgo).setOrders (b := b)
      (f := fun l => { l with held := l.held.map HeldOrder.disown }) horders.line (fun _ ho => .inr fun _ => ho) (hgo := .inl hgo) |>.trans
      { Touches.refl _ with
        table := fun k => k.congr rfl rfl rfl
        cycle := rfl
        line := fun d _ => by simp only [State.setLine_line, upd_get]; split <;> rfl
        stays := fun d q hq _ _ => by
          simp only [State.setLine_line, upd_get] at hq ⊢
          split <;> simp_all
        grace := fun d _ => by simp only [State.setLine_line, upd_get]; split <;> rfl
        go := fun d hd hn => by
          have hne : d ≠ b := fun e => hd (e ▸ hgo)
          simp only [State.setLine_line, upd_get, if_neg hne] at hn ⊢
          exact ⟨trivial, hn⟩
        misses := fun d _ => by simp only [State.setLine_line, upd_get]; split <;> rfl
        first := fun d _ hs => by
          simp only [State.setLine_line, upd_get] at hs ⊢
          split <;> simp_all }
  have hwithdrawn := hquiet.withdraw horders (kinds := [.block, .applyOffer, .applyGo]) fun k _ => hdrops k
  unfold Machine.endTransfer
  dsimp only
  refine Touches.handOn ?_ ho
  have hreleased : ∀ u, Touches m s u → Touches m s (release b
      (if judge = true then judgeDone c (transferNotice c b p (u.setChannel c fun x => { x with current := none }))
        else transferNotice c b p (u.setChannel c fun x => { x with current := none }))) := by
    intro u hu
    have hgone := (hu.setChannel (f := fun x => { x with current := none }) hflow (.inl hchan) (.inl hopens)).transferNotice c b p
    refine Touches.release ?_ hclaim
    split
    · exact hgone.judgeDone hflow hchan hslots
    · exact hgone
  have hall : ∀ u, Touches m s u → Touches m s (if decide (t.dist.channels[c].progress[b] = .applying) = true then actDeferred b u else u) := by
    intro u hu
    split
    · exact hu.actDeferred hhold hstore
    · exact hu
  refine hall _ (hreleased _ ?_)
  split
  · refine Touches.report ?_ halarm _
    split
    · exact hwithdrawn.placePlain horders.line _
    · exact hwithdrawn
  · split
    · exact hwithdrawn.placePlain horders.line _
    · exact hwithdrawn

protected theorem Touches.blockMiss (h : Touches m s t) {b : BayId} {c : Fin 4} (hb : m.EndTransfer b c) (hr : m.Release b) (offset : Nat) :
    Touches m s (blockMiss c b offset t) := by
  have hmiss := h.setChannel (c := c) (f := fun x => { x with misses := x.misses + 1, missSince := true }) (hb.orders.flow c)
  unfold Machine.blockMiss
  dsimp only
  split
  · exact hmiss.resend hb.orders hb.drops c _
  · exact hmiss.endTransfer hb (.inr hr) _ _

/-- What the end of a bay's job, whichever it is, may change. -/
structure Parts.EndJob (m : Parts) (b : BayId) : Prop where
  run : m.EndRun b
  clean : m.EndClean b
  transfer : ∀ c, m.EndTransfer b c

protected theorem Touches.endJobHeld (h : Touches m s t) {b : BayId} (hb : m.EndJob b) : Touches m s (endJobHeld b t) := by
  unfold Machine.endJobHeld
  split
  · exact h
  · exact h.endRun hb.run (.inl rfl) _ _ _
  · exact h.endClean hb.clean (.inl rfl) _ _ _ _
  · split
    · split
      · exact h.endTransfer (hb.transfer _) (.inl rfl) _ _
      · exact h
    · exact h

/-! ## The Bay Registry -/

/-- What a change of a bay's state may bring with it, but for the Registry's record. -/
structure Parts.Quiet (m : Parts) (b : BayId) : Prop where
  alarm : m.Alarm b
  cond : m.cond b
  hold : m.hold b
  clean : m.clean b
  drops : ∀ k, m.drops b k
  grace : m.grace b
  go : m.go b
  heat : m.heat b
  recompute : m.Recompute
  sensed : m.sensed b
  first : m.first b

/-- What a change of a bay's state may change. -/
structure Parts.Enter (m : Parts) (b : BayId) : Prop extends Parts.Quiet m b where
  reg : m.reg b

protected theorem Touches.ovenSilent (h : Touches m s t) {b : BayId} (hb : m.Quiet b) : Touches m s (ovenSilent b t) :=
  ((h.setCondition hb.alarm hb.cond _ _).setMode hb.hold).setClean hb.clean (hsen := .inl hb.sensed)

protected theorem Touches.enterInterrogating (h : Touches m s t) {b : BayId} (hb : m.Enter b) : Touches m s (enterInterrogating b t) := by
  have hu := ((h.setReg (b := b) (f := fun r => { r with pollCount := 0, stepCheck := true, power := .off }) hb.reg).placePlain
    (hb.recompute.line b) .identify).setShare (b := b) (f := fun x => { x with sent := none }) hb.recompute.shares
  refine Touches.sendAllowance ?_ hb.recompute b
  split
  · exact hu
  · exact hu.heatPower hb.heat hb.recompute

/-- R2: entry to a bay state but INTERROGATING leaves the Registry's record as it was. -/
protected theorem Touches.enterQuiet (h : Touches m s t) {b : BayId} (hb : m.Quiet b) {st : BayState} (hst : st ≠ .interrogating) (old : BayState) :
    Touches m s (enterState b st old t) := by
  cases st with
  | empty | settling => exact ((h.ovenSilent hb).emptyQueue (hb.recompute.line b) hb.drops hb.first).heatGone hb.heat hb.recompute.shares
  | lost => exact ((h.ovenSilent hb).setCondition hb.alarm hb.cond _ _).setTimers hb.grace hb.go
  | interrogating => exact absurd rfl hst
  | ready => exact h.heatReady hb.heat hb.recompute
  | refused => exact h.setCondition hb.alarm hb.cond _ _
  | commissioning =>
    unfold Machine.enterState
    dsimp only
    split
    · exact (h.clearStarvation hb.heat hb.recompute.shares).recompute hb.recompute
    · exact h
  | uncommissioned => exact h

protected theorem Touches.enterState (h : Touches m s t) {b : BayId} (hb : m.Enter b) (st old : BayState) : Touches m s (enterState b st old t) := by
  by_cases hst : st = .interrogating
  · subst hst
    exact h.enterInterrogating hb
  · exact h.enterQuiet hb.toQuiet hst old

protected theorem Touches.leaveState (h : Touches m s t) {b : BayId} (hb : m.Quiet b) (old : BayState) : Touches m s (leaveState b old t) := by
  unfold Machine.leaveState
  split
  · exact h.setCondition hb.alarm hb.cond _ _
  · exact h.setCondition hb.alarm hb.cond _ _
  · exact h

protected theorem Touches.setBayState (h : Touches m s t) {b : BayId} (hb : m.Enter b) (st : BayState) (cause : BayCause) :
    Touches m s (setBayState b st cause t) := by
  unfold Machine.setBayState
  dsimp only
  split
  · exact h
  · exact (((h.setReg hb.reg).queueNotice _ _).leaveState hb.toQuiet _).enterState hb _ _

protected theorem Touches.abandonContext (h : Touches m s t) {b : BayId} (hb : m.Enter b) : Touches m s (abandonContext b t) := by
  unfold Machine.abandonContext
  split
  · exact (h.setReg hb.reg).report hb.alarm _
  · exact h

protected theorem Touches.endJobTorn (h : Touches m s t) {b : BayId} (hb : m.EndJob b) (lost : Bool) : Touches m s (endJobTorn b lost t) := by
  unfold Machine.endJobTorn
  split
  · exact h
  · exact h.endRun hb.run (.inl rfl) _ _ _
  · exact h.endClean hb.clean (.inl rfl) _ _ _ _
  · split
    · exact h.endTransfer (hb.transfer _) (.inl rfl) _ _
    · exact h

protected theorem Touches.teardown (h : Touches m s t) {b : BayId} (he : m.Enter b) (hj : m.EndJob b) (hm : m.misses b) (lost : Bool) :
    Touches m s (teardown b lost t) :=
  ((((((h.abandonContext he).endJobTorn hj lost).emptyQueue (he.recompute.line b) he.drops he.first).setTimers he.grace he.go (hm := .inl hm)).setReg he.reg).clearStarvation he.heat
    he.recompute.shares).recomputeBut he.recompute _

/-- What a bay may change that loses its oven: its state, its job, and its release. -/
structure Parts.Oven (m : Parts) (b : BayId) : Prop where
  enter : m.Enter b
  job : m.EndJob b
  release : m.Release b
  misses : m.misses b

protected theorem Touches.tearDownTo (h : Touches m s t) {b : BayId} (hb : m.Oven b) (lost owed : Bool) (st : BayState) (cause : BayCause) :
    Touches m s (tearDownTo b lost owed st cause t) := by
  have ht := (h.teardown hb.enter hb.job hb.misses lost).setBayState hb.enter st cause
  unfold Machine.tearDownTo
  dsimp only
  split
  · exact ht.handOn (.inr hb.release)
  · exact ht

protected theorem Touches.goLost (h : Touches m s t) {b : BayId} (hb : m.Oven b) (owed : Bool) : Touches m s (goLost b owed t) := h.tearDownTo hb _ _ _ _

protected theorem Touches.becomePresent (h : Touches m s t) {b : BayId} (hb : m.Enter b) : Touches m s (becomePresent b t) :=
  ((h.setReg hb.reg).setBayState hb _ _).setCondition hb.alarm hb.cond _ _

protected theorem Touches.becomePartial (h : Touches m s t) {b : BayId} (hb : m.Oven b) : Touches m s (becomePartial b t) := by
  have hp := h.setReg (b := b) (f := fun x => { x with presence := .partly }) hb.enter.reg
  unfold Machine.becomePartial
  dsimp only
  refine Touches.setReg ?_ hb.enter.reg
  split
  · exact hp.tearDownTo hb _ _ _ _
  · exact hp.setBayState hb.enter _ _

protected theorem Touches.becomeAbsent (h : Touches m s t) {b : BayId} (hb : m.Oven b) : Touches m s (becomeAbsent b t) := by
  have hp := h.setReg (b := b) (f := fun x => { x with presence := .absent }) hb.enter.reg
  have hgone : Touches m s (if t.reg[b].state ≠ .empty ∧ t.reg[b].state ≠ .settling then
      tearDownTo b false false .empty .absent (t.setReg b fun x => { x with presence := .absent })
      else setBayState b .empty .absent (t.setReg b fun x => { x with presence := .absent })) := by
    split
    · exact hp.tearDownTo hb _ _ _ _
    · exact hp.setBayState hb.enter _ _
  unfold Machine.becomeAbsent
  dsimp only
  refine Touches.setCondition ?_ hb.enter.alarm hb.enter.cond _ _
  split
  · exact hgone.setReg hb.enter.reg
  · exact (hgone.setReg hb.enter.reg).heatPower hb.enter.heat hb.enter.recompute

protected theorem Touches.readContacts (h : Touches m s t) {b : BayId} (hb : m.Oven b) : Touches m s (readContacts b t) := by
  unfold Machine.readContacts
  dsimp only
  split
  · exact h
  · split
    · exact h.becomePresent hb.enter
    · exact h.becomePartial hb
    · exact h.becomeAbsent hb

protected theorem Touches.countPoll (h : Touches m s t) {b : BayId} (hb : m.Oven b) : Touches m s (countPoll b t) := by
  unfold Machine.countPoll
  split
  · dsimp only
    split
    · exact (h.setReg hb.enter.reg).goLost hb _
    · exact h.setReg hb.enter.reg
  · exact h

protected theorem Touches.supplyOutcome (h : Touches m s t) {b : BayId} (hb : m.Enter b) (i : Identity) (supply circuitMax : Nat) (pass : BayCause) :
    Touches m s (supplyOutcome b i supply circuitMax pass t) := by
  unfold Machine.supplyOutcome
  split <;> exact h.setBayState hb _ _

protected theorem Touches.dropCommission (h : Touches m s t) {b : BayId} (hb : m.reg b) (hs : m.store) : Touches m s (dropCommission b t) :=
  (h.setReg hb).storeRecord hs _ _ _

protected theorem Touches.takeIdentity (h : Touches m s t) {b : BayId} (hb : m.Enter b) (hs : m.store) (i : Identity) :
    Touches m s (takeIdentity b i t) := by
  have hi := h.setReg (b := b) (f := fun r => { r with identity := some i }) hb.reg
  unfold Machine.takeIdentity
  dsimp only
  split
  · exact hi.setBayState hb _ _
  · split
    · exact hi.supplyOutcome hb _ _ _ _
    · exact (hi.dropCommission hb.reg hs).setBayState hb _ _

protected theorem Touches.cleanPowerOn (h : Touches m s t) {b : BayId} (hb : m.Release b) : Touches m s (cleanPowerOn b t) := by
  unfold Machine.cleanPowerOn
  dsimp only
  refine Touches.retryPending ?_ hb.start hb.clean
  split
  · split
    · have hu := (h.setCleanRec (b := b) (f := fun x => { x with wakeDue := none }) hb.start.work.orders.cleaning
        (.inl hb.start.work.cleanEnd)).leaveRequested hb.start.work
      split
      · exact hu.recompute hb.start.recompute
      · exact hu
    · exact h
  · exact h

protected theorem Touches.takePower (h : Touches m s t) {b : BayId} (hreg : m.reg b) (hw : m.RunWork b) (hb : m.Release b) (p : Power) :
    Touches m s (takePower b p t) := by
  unfold Machine.takePower
  dsimp only
  split
  · exact h
  · have hp := (h.setReg (b := b) (f := fun r => { r with power := p }) hreg).heatPower hb.start.heat hb.start.recompute
    split
    · exact ((hp.runPowerOn hw hb.start.recompute).retryPasses hb.pass _).cleanPowerOn hb
    · exact hp

protected theorem Touches.completeContext (h : Touches m s t) {b : BayId} (hb : m.Enter b) (hs : m.store) (c : CommContext) :
    Touches m s (completeContext b c t) := by
  have hgone := h.setReg (b := b) (f := fun r => { r with context := none }) hb.reg
  unfold Machine.completeContext
  dsimp only
  split
  · split
    · exact ((hgone.setReg hb.reg).storePut hs _).setBayState hb _ _
    · exact hgone.setBayState hb _ _
  · exact hgone.setBayState hb _ _

protected theorem Touches.abandonTo (h : Touches m s t) {b : BayId} (hb : m.Enter b) : Touches m s (abandonTo b t) := by
  unfold Machine.abandonTo
  split
  · exact (h.abandonContext hb).setBayState hb _ _
  · exact h

/-! ## The parts of a status record -/

protected theorem Touches.serviceTake (h : Touches m s t) {b : BayId} (hh : m.hold b) (hj : m.EndJob b) (hr : m.Release b) :
    Touches m s (serviceTake b t) := by
  unfold Machine.serviceTake
  split
  · exact h
  · split
    · exact h.setMode hh
    · exact ((h.endJobHeld hj).takeHold hh hj.run.soiling.store).handOnIfEnded hr _

protected theorem Touches.serviceLeave (h : Touches m s t) {b : BayId} (hb : m.hold b) (hs : m.store) : Touches m s (serviceLeave b t) := by
  unfold Machine.serviceLeave
  dsimp only
  split
  · exact (h.setMode hb).setHold hb hs _ _
  · exact h.setMode hb

protected theorem Touches.takeMode (h : Touches m s t) {b : BayId} (hh : m.hold b) (hj : m.EndJob b) (hr : m.Release b) (service : Bool) :
    Touches m s (takeMode b service t) := by
  unfold Machine.takeMode
  dsimp only
  refine Touches.setMode ?_ hh
  split
  · split
    · exact h
    · exact h.serviceTake hh hj hr
  · split
    · exact h.serviceLeave hh hj.run.soiling.store
    · exact h

protected theorem Touches.advanceRun (h : Touches m s t) {b : BayId} (hb : m.EndRun b) (hr : m.Release b) : Touches m s (advanceRun b t) := by
  unfold Machine.advanceRun
  split
  · exact h
  · split
    · exact (h.setRun hb.orders.run (.inl hb.runEnd)).orderStep hb.work hr.start.recompute
    · exact (h.setRun hb.orders.run (.inl hb.runEnd)).endRun hb (.inr hr) _ _ _

/-- A run that goes to a state that is not final stays the same job, where it was not final. -/
theorem Run.job_of_live {s : State} {b : BayId} {r : Run} (h : liveRun s b = some r) {x : Run} (hx : s.runs.runs[b] = some x) : x = r := by
  rw [(liveRun_eq_some h).1] at hx
  exact (Option.some.inj hx).symm

protected theorem Touches.endStep (h : Touches m s t) {b : BayId} (hb : m.EndRun b) (hr : m.Release b) (st : Step) : Touches m s (endStep b st t) := by
  have hend := (h.setRun (b := b) (f := fun x => { x with maxDue := none }) hb.orders.run (.inl hb.runEnd)).runStep (b := b) hb.work "END"
  unfold Machine.endStep
  dsimp only
  split
  · exact ((hend.setRun hb.orders.run (.inl hb.runEnd)).runStep hb.work _).recompute hr.start.recompute
  · exact hend.advanceRun hb hr

/-- What a status record may make of a bay's run. -/
structure Parts.Cook (m : Parts) (b : BayId) : Prop where
  ending : m.EndRun b
  release : m.Release b

protected theorem Touches.useRecord (h : Touches m s t) {b : BayId} (hb : m.Cook b) (st : Step) (r : Report) : Touches m s (useRecord b st r t) := by
  have hp : Touches m s (if st.probeCall = true then probeCall b st r.cores t else t) := by
    split
    · exact h.probeCall hb.ending.work hb.ending.orders.line hb.ending.soiling.alarm _ _
    · exact h
  unfold Machine.useRecord
  dsimp only
  split
  · split
    · exact hp.endStep hb.ending hb.release st
    · exact hp
  · exact hp

protected theorem Touches.runningRecord (h : Touches m s t) {b : BayId} (hb : m.Cook b) (r : Report) : Touches m s (runningRecord b r t) := by
  unfold Machine.runningRecord
  split
  · exact h
  · split
    · exact h
    · split
      · exact h.reorderStep hb.ending.work hb.ending.orders.line _
      · split
        · exact h.useRecord hb _ _
        · exact h

protected theorem Touches.pauseRun (h : Touches m s t) {b : BayId} (hb : m.Cook b) : Touches m s (pauseRun b t) :=
  ((h.setRun hb.ending.orders.run (.inl hb.ending.runEnd)).runStep hb.ending.work _).recompute hb.release.start.recompute

protected theorem Touches.resumeRun (h : Touches m s t) {b : BayId} (hb : m.Cook b) : Touches m s (resumeRun b t) :=
  ((h.setRun hb.ending.orders.run (.inl hb.ending.runEnd)).runStep hb.ending.work _).recompute hb.release.start.recompute

protected theorem Touches.promptingRecord (h : Touches m s t) {b : BayId} (hb : m.Cook b) (r : Run) (rep : Report) :
    Touches m s (promptingRecord b r rep t) := by
  have hre : Touches m s (if (r.accepted && rep.stepId != r.id) = true then reorderStep b r t else t) := by
    split
    · exact h.reorderStep hb.ending.work hb.ending.orders.line _
    · exact h
  unfold Machine.promptingRecord
  dsimp only
  split
  · exact h.setRun hb.ending.orders.run (.inl hb.ending.runEnd)
  · split
    · exact hre.advanceRun hb.ending hb.release
    · exact hre

protected theorem Touches.runStandby (h : Touches m s t) {b : BayId} (hb : m.Cook b) (r : Run) : Touches m s (runStandby b r t) := by
  unfold Machine.runStandby
  split
  · exact (h.setRun hb.ending.orders.run (.inl hb.ending.runEnd)).wakeCause hb.release.start.heat hb.ending.orders.line
  · exact h

protected theorem Touches.runDoor (h : Touches m s t) {b : BayId} (hb : m.Cook b) (r : Run) (rep : Report) : Touches m s (runDoor b r rep t) := by
  unfold Machine.runDoor
  split
  · split
    · exact h.pauseRun hb
    · exact h
  · split
    · exact h.pauseRun hb
    · exact h.runningRecord hb rep
  · exact h.promptingRecord hb r rep
  · split
    · exact h
    · dsimp only
      split
      · exact (h.resumeRun hb).runningRecord hb rep
      · exact h.resumeRun hb
  · exact h
  · exact h

protected theorem Touches.runRecord (h : Touches m s t) {b : BayId} (hb : m.Cook b) (rep : Report) : Touches m s (runRecord b rep t) := by
  unfold Machine.runRecord
  split
  · exact h
  · split
    · exact h.abortRun hb.ending hb.release _
    · dsimp only
      refine Touches.runDoor (Touches.setRun ?_ hb.ending.orders.run (.inl hb.ending.runEnd)) hb _ _
      split
      · exact h.runStandby hb _
      · exact h

/-- What a status record may make of a bay's cleaning. -/
structure Parts.Wash (m : Parts) (b : BayId) : Prop where
  ending : m.EndClean b
  soiling : m.Soiling b
  release : m.Release b

protected theorem Touches.cleanProgress (h : Touches m s t) {b : BayId} (hb : m.Wash b) (cabinet : Int) : Touches m s (cleanProgress b cabinet t) := by
  unfold Machine.cleanProgress
  split
  · exact h
  · split
    · split
      · exact h.enterFirst hb.ending.work hb.release.start.recompute _
      · exact h
    · split
      · exact h.endPhase hb.ending hb.soiling hb.release
      · exact h

protected theorem Touches.cleanOff (h : Touches m s t) {b : BayId} (hb : m.Wash b) (c : CleanRec) : Touches m s (cleanOff b c t) := by
  unfold Machine.cleanOff
  split
  · split
    · exact (h.endClean hb.ending (.inr hb.release) _ _ _ _).report hb.soiling.alarm _
    · exact h
  · exact h.endClean hb.ending (.inr hb.release) _ _ _ _

protected theorem Touches.cleanFault (h : Touches m s t) {b : BayId} (hb : m.Wash b) (fault : Nat) (c : CleanRec) : Touches m s (cleanFault b fault c t) := by
  unfold Machine.cleanFault
  split
  · exact (h.report hb.soiling.alarm _).forceRinse hb.ending.work hb.release.start.recompute _ _
  · exact h

/-- A status record is used for a bay's cleaning once its doses are counted. -/
theorem Touches.cleanRecord_of_doses {rep : Report} {b : BayId} (hd : Touches m s (takeDoses b rep.dose t)) (hb : m.Wash b) :
    Touches m s (cleanRecord b rep t) := by
  unfold Machine.cleanRecord
  dsimp only
  split
  · exact hd
  · split
    · exact hd.cleanOff hb _
    · split
      · exact hd
      · refine Touches.cleanProgress (Touches.setCleanRec (Touches.cleanFault ?_ hb _ _) hb.ending.orders.cleaning (.inl hb.ending.cleanEnd)) hb _
        split
        · exact hd.wakeCause hb.release.start.heat hb.ending.orders.line
        · exact hd

protected theorem Touches.cleanRecord (h : Touches m s t) {b : BayId} (hb : m.Wash b) (rep : Report)
    (hs : m.sensed b := by trivial) : Touches m s (cleanRecord b rep t) :=
  (h.takeDoses hb.soiling hb.release.clean hb.ending.work rep.dose hs).cleanRecord_of_doses hb

/-- What a status record may make of a bay's transfer. -/
structure Parts.Transfer (m : Parts) (b : BayId) : Prop where
  ending : ∀ c, m.EndTransfer b c
  release : m.Release b

theorem Channel.advance_job (x : Channel) (ack : Nat) : (x.advance ack).job = x.job := rfl

protected theorem Touches.takeAck (h : Touches m s t) {b : BayId} (hb : m.Transfer b) (c : Fin 4) (ack : Nat) : Touches m s (takeAck c b ack t) := by
  unfold Machine.takeAck
  dsimp only
  split
  · split
    · exact h.setChannel ((hb.ending c).orders.flow c)
    · exact h
  · split
    · exact h.blockMiss (hb.ending c) hb.release _
    · exact h

protected theorem Touches.takeRejected (h : Touches m s t) {b : BayId} (hb : m.Transfer b) (c : Fin 4) (image : Nat) :
    Touches m s (takeRejected c b image t) := by
  unfold Machine.takeRejected
  dsimp only
  split
  · exact h.blockMiss (hb.ending c) hb.release _
  · exact h

protected theorem Touches.useBlocks (h : Touches m s t) {b : BayId} (hb : m.Transfer b) (c : Fin 4) (rep : Report) : Touches m s (useBlocks c b rep t) := by
  have he := hb.ending c
  have hu := ((h.setChannel (f := fun x => { x with window := rep.freeBlocks }) (he.orders.flow c)).takeAck hb c rep.acknowledged).takeRejected hb c
    rep.image
  unfold Machine.useBlocks
  dsimp only
  split
  · exact (hu.offerIfComplete he.orders he.drops he.chan).placeBlocks (he.orders.flow c) he.orders.line
  · exact hu

protected theorem Touches.useImage (h : Touches m s t) {b : BayId} (hb : m.Transfer b) (c : Fin 4) (image : Nat) : Touches m s (useImage c b image t) := by
  have he := hb.ending c
  unfold Machine.useImage
  split
  · split
    · exact (h.setChannel (he.orders.flow c)).placeGo he.orders.line he.orders.grace he.go
    · split
      · exact h.endTransfer he (.inr hb.release) _ _
      · exact h
  · exact h

protected theorem Touches.transferRecord (h : Touches m s t) {b : BayId} (hb : m.Transfer b) (rep : Report) : Touches m s (transferRecord b rep t) := by
  unfold Machine.transferRecord
  split
  · exact h
  · next c _ =>
    have hw : Touches m s (if rep.power = .standby ∧ t.line.bays[b].grace = none then wakeCause b t else t) := by
      split
      · exact h.wakeCause hb.release.start.heat (hb.ending c).orders.line
      · exact h
    dsimp only
    split
    · split
      · exact hw.useBlocks hb c rep
      · exact hw
    · exact hw.useImage hb c _
    · exact hw

/-- What a panel request of a bay may change. -/
structure Parts.Panel (m : Parts) (b : BayId) : Prop where
  run : m.StartRun b
  clean : m.StartClean b

protected theorem Touches.denyRun (h : Touches m s t) {b : BayId} (hl : m.line b) (index : Nat) (r : Reason) : Touches m s (denyRun b index r t) :=
  (h.placePlain hl _).queueNotice _ _

protected theorem Touches.denyRinse (h : Touches m s t) {b : BayId} (hl : m.line b) (r : Reason) : Touches m s (denyRinse b r t) :=
  (h.placePlain hl _).queueNotice _ _

protected theorem Touches.servePanel (h : Touches m s t) {b : BayId} (hb : m.Panel b) (index : Nat) : Touches m s (servePanel b index t) := by
  have hl := hb.clean.work.orders.line
  have hw := h.wakeCause hb.clean.heat hl
  unfold Machine.servePanel
  dsimp only
  split
  · split
    · exact hw.startCleaning hb.clean _ _
    · exact hw.denyRinse hl _
  · split
    · exact hw.startRun hb.run _
    · exact hw.denyRun hl _ _

/-! ## Taking a record -/

protected theorem Touches.deliveryReport (h : Touches m s t) (hf : ∀ c, m.flow c) (b : BayId) (o : Order) : Touches m s (deliveryReport b o t) := by
  unfold Machine.deliveryReport
  split
  · split
    · exact h
    · exact h.deliverBlock hf b _ _
  · exact h

protected theorem Touches.removeOrder (h : Touches m s t) {b : BayId} (hb : m.Orders b) (hd : ∀ k, m.drops b k) (id : Nat)
    (hs : m.first b := by trivial) : Touches m s (removeOrder b id t) := by
  unfold Machine.removeOrder
  split
  · exact (h.setOrders hb.line (fun _ _ => .inl (hd _)) (hfirst := .inl hs)).reportSpace hb
  · exact h

protected theorem Touches.acceptReport (h : Touches m s t) {b : BayId} (hb : m.CleanWork b) (hr : m.runEnd b) (hm : m.Recompute) (o : Order) :
    Touches m s (acceptReport b o t) := by
  unfold Machine.acceptReport
  split
  · exact h.acceptStep ⟨hb.orders.run, hr⟩ hm _
  · exact h.acceptPhase hb _
  · exact h.acceptDiscard hb.orders.flow hb.orders.line _
  · exact h.flowBlocks hb.orders.flow hb.orders.line
  · exact h.acceptOffer hb.orders.flow b
  · exact h

protected theorem Touches.acceptOrders (h : Touches m s t) {b : BayId} (hb : m.CleanWork b) (hd : ∀ k, m.drops b k) (hr : m.runEnd b) (hm : m.Recompute)
    (l : List Order) (hs : m.first b := by trivial) : Touches m s (acceptOrders b l t) :=
  (h.each _ _ fun o _ u => (Touches.refl u).removeOrder hb.orders hd o.id hs).each _ _ fun o _ u => (Touches.refl u).acceptReport hb hr hm o

protected theorem Touches.stepCheck (h : Touches m s t) {b : BayId} (hr : m.reg b) (hb : m.Orders b) (hgo : m.go b) (hd : ∀ k, m.drops b k)
    (stepId : Nat) : Touches m s (stepCheck b stepId t) := by
  unfold Machine.stepCheck
  split
  · dsimp only
    split
    · exact h.setReg hr
    · exact (h.setReg hr).placeSafe hb hgo hd
  · exact h

protected theorem Touches.keepLatest (h : Touches m s t) {b : BayId} (hc : m.clean b) (hr : m.RunWork b) (rep : Report)
    (hs : m.sensed b := by trivial) : Touches m s (keepLatest b rep t) :=
  (h.setClean hc (hsen := .inl hs)).setRun hr.run (.inl hr.runEnd)

protected theorem Touches.registryRecord (h : Touches m s t) {b : BayId} (hb : m.Oven b) (rep : Report) : Touches m s (registryRecord b rep t) := by
  unfold Machine.registryRecord
  dsimp only
  refine Touches.takePower (Touches.stepCheck ?_ hb.enter.reg hb.job.run.orders hb.enter.go hb.enter.drops _) hb.enter.reg hb.job.run.work hb.release _
  split
  · exact h.setBayState hb.enter _ _
  · exact h

/-- What a status record may change. -/
structure Parts.Record (m : Parts) (b : BayId) : Prop where
  oven : m.Oven b
  panel : m.Panel b
  demand : m.demand b

protected theorem Touches.handParts (h : Touches m s t) {b : BayId} (hb : m.Record b) (rep : Report) : Touches m s (handParts b rep t) := by
  have hrel := hb.oven.release
  have hjob := hb.oven.job
  have hmon := (((h.keepLatest hrel.clean hjob.run.work rep hb.oven.enter.sensed).registryRecord hb.oven rep).takeMode hb.oven.enter.hold hjob hrel rep.service).takeFault
    hb.oven.enter.alarm hb.oven.enter.cond rep.fault
  have hheat := ((hmon.runRecord ⟨hjob.run, hrel⟩ rep).takeDemand hrel.start.heat hrel.start.recompute rep.demand hb.demand).takeDoor hrel.start.heat
    hjob.run.orders.line rep.doorOpen
  have hall := (hheat.cleanRecord ⟨hjob.clean, hjob.run.soiling, hrel⟩ rep hb.oven.enter.sensed).transferRecord ⟨hjob.transfer, hrel⟩ rep
  unfold Machine.handParts
  dsimp only
  split
  · exact hall.servePanel hb.panel _
  · exact hall

protected theorem Touches.takeReturn (h : Touches m s t) {b : BayId} (hr : m.reg b) (hb : m.Transfer b) (i : Identity) : Touches m s (takeReturn b i t) := by
  unfold Machine.takeReturn
  split
  · next c _ =>
    split
    · exact ((h.setTimers (hb.ending c).orders.grace (hb.ending c).go).setReg hr).endTransfer (hb.ending c) (.inr hb.release) _ _
    · exact h
  · exact h

protected theorem Touches.handIdentity (h : Touches m s t) {b : BayId} (hb : m.Oven b) (body : IdentityBody) : Touches m s (handIdentity b body t) := by
  unfold Machine.handIdentity
  split
  · split
    · exact h.takeIdentity hb.enter hb.job.run.soiling.store _
    · exact h.countPoll hb
  · exact h.setBayState hb.enter _ _
  · exact h
  · exact h
  · split
    · exact h.takeReturn hb.enter.reg ⟨hb.job.transfer, hb.release⟩ _
    · exact h

protected theorem Touches.graceExpires (h : Touches m s t) {b : BayId} (hb : m.Oven b) : Touches m s (graceExpires b t) := by
  have hg := h.setTimers (b := b) (f := fun l => { l with grace := none }) hb.enter.grace hb.enter.go
  unfold Machine.graceExpires
  dsimp only
  split
  · split
    · exact (hg.endTransfer (hb.job.transfer _) (.inl rfl) _ _).goLost hb _
    · exact hg
  · exact hg

protected theorem Touches.missPoll (h : Touches m s t) {b : BayId} (hb : m.Oven b) (wasLost : Bool) : Touches m s (missPoll b wasLost t) := by
  unfold Machine.missPoll
  split
  · exact h
  · dsimp only
    refine Touches.countPoll ?_ hb
    split
    · exact (h.setTimers hb.enter.grace hb.enter.go (hm := .inl hb.misses)).goLost hb _
    · exact h.setTimers hb.enter.grace hb.enter.go (hm := .inl hb.misses)

/-! ## Windows -/

/-- What the opening and the closing of windows may change. -/
structure Parts.Windows (m : Parts) : Prop where
  sched : m.sched
  release : ∀ b, m.Release b
  alarm : ∀ b, m.Alarm b

protected theorem Touches.openEffects (h : Touches m s t) (hm : m.Windows) (n : Fin 24) (e : SchedEntry) : Touches m s (openEffects n e t) := by
  have hwake : ∀ u, Touches m s u → Touches m s (u.each e.mask wakeCause) := fun u hu => hu.each _ _ fun b _ w =>
    (Touches.refl w).wakeCause (hm.release b).start.heat (hm.release b).start.work.orders.line
  unfold Machine.openEffects
  split
  · dsimp only
    split
    · exact (hwake _ h).each _ _ fun b _ w => (Touches.refl w).windowClean (hm.release b).start (hm.release b).clean (hm.alarm b) _ _ _
    · exact hwake _ h
  · exact h.retryPasses (hm.release 0).pass _
  · exact hwake _ h

protected theorem Touches.openWindow (h : Touches m s t) (hm : m.Windows) (n : Fin 24) (e : SchedEntry) : Touches m s (openWindow n e t) :=
  ((h.withSched hm.sched _).queueNotice _ _).openEffects hm n e

protected theorem Touches.closeEffect (h : Touches m s t) (hm : m.Windows) (k : WindowKind) (b : BayId) : Touches m s (closeEffect k b t) := by
  have hr := hm.release b
  unfold Machine.closeEffect
  split
  · exact (h.cleanWindowLeft hr.clean (hm.alarm b)).examineStandby hr.start.heat hr.start.work.orders.line
  · exact h.windowMissed hr.pass.flow hr.pass.chan hr.pass.slots hr.start.heat hr.start.work.orders.line
  · exact h.examineStandby hr.start.heat hr.start.work.orders.line

protected theorem Touches.closeEntryWindow (h : Touches m s t) (hm : m.Windows) (n : Fin 24) (cause : String) : Touches m s (closeEntryWindow n cause t) := by
  unfold Machine.closeEntryWindow
  split
  · exact h
  · exact ((h.withSched hm.sched _).queueNotice _ _).each _ _ fun b _ u => (Touches.refl u).closeEffect hm _ b

protected theorem Touches.matchEntry (h : Touches m s t) (hm : m.Windows) (c : Calendar) (n : Fin 24) : Touches m s (matchEntry c n t) := by
  unfold Machine.matchEntry
  split
  · split
    · exact h.openWindow hm _ _
    · exact h
  · exact h

protected theorem Touches.matchBoundary (h : Touches m s t) (hm : m.Windows) : Touches m s (matchBoundary t) := by
  unfold Machine.matchBoundary
  split
  · exact h.each _ _ fun n _ u => (Touches.refl u).matchEntry hm _ n
  · exact h

protected theorem Touches.minuteBoundary (h : Touches m s t) (hm : m.Windows) : Touches m s (minuteBoundary t) :=
  (h.matchBoundary hm).lookAheadAll (fun b => (hm.release b).start.heat) fun b => (hm.release b).start.work.orders.line

/-! ## The deadlines of a bay's job, and holds -/

protected theorem Touches.forcedTake (h : Touches m s t) {b : BayId} (hb : m.Oven b) : Touches m s (forcedTake b t) :=
  ((h.endJobHeld hb.job).takeHold hb.enter.hold hb.job.run.soiling.store).handOnIfEnded hb.release _

protected theorem Touches.automationHold (h : Touches m s t) {b : BayId} (hb : m.Oven b) (id : Nat) : Touches m s (automationHold b id t) := by
  unfold Machine.automationHold
  split
  · exact h.setMode hb.enter.hold
  · dsimp only
    refine Touches.handOnIfEnded (Touches.setHold (Touches.setMode ?_ hb.enter.hold) hb.enter.hold hb.job.run.soiling.store _ _) hb.release _
    split
    · exact h.placeSafe hb.job.run.orders hb.enter.go hb.enter.drops
    · exact h.endJobHeld hb.job

protected theorem Touches.clearHold (h : Touches m s t) {b : BayId} (hh : m.hold b) (hs : m.store) (hheat : m.heat b) (hl : m.line b) :
    Touches m s (clearHold b t) := ((h.setMode hh).setHold hh hs _ _).examineStandby hheat hl

protected theorem Touches.abortClean (h : Touches m s t) {b : BayId} (hb : m.Wash b) (st : CleanState) : Touches m s (abortClean b st t).1 := by
  unfold Machine.abortClean
  split <;> dsimp only
  · exact h.endClean hb.ending (.inr hb.release) _ _ _ _
  · exact h.endClean hb.ending (.inr hb.release) _ _ _ _
  · exact h.forceRinse hb.ending.work hb.release.start.recompute _ _
  · exact h.endClean hb.ending (.inr hb.release) _ _ _ _

end

end Sys2Proof.Machine


/-! The two job invariants do not hold of every state that satisfies them: they leave the state that a PAUSED run resumes in open, and a run whose
`resume` is a final state ends at the door's closing without the release of its bay (O5) and of its pin (O7). -/

namespace Sys2Proof.Machine

set_option Elab.async false

open Sys2Proof

/-! ## A PAUSED run that resumes in a final state -/

/-- A revision of recipe 7 with no steps, which takes no slot of the pool. -/
def emptyRevision : Revision := { revision := 4, name := "Cake".toList, soilClass := 0, minFirmware := 0, probe := false, steps := [] }

/-- A PAUSED run of that revision that would resume DONE. -/
def stuckRun : Run := { Run.create 1 7 emptyRevision 0 with state := .paused, resume := .done }

/-- A status record of a bay that is ON, its door CLOSED. -/
def closedDoor : StatusBody :=
  { doorOpen := false, service := false, demand := false, complete := false, power := 1, cabinet := 600, humidity := 20, coreCount := 0, cores := [],
    fault := 0, dose := 0, echo := 0, stepId := 0, freeBlocks := 0, acknowledged := 0, image := 0, panel := 255 }

/-- Bay 1 with that run, polled, and the answer arriving. -/
def stuck : State :=
  { State.reset with
    pending := [.statusRecord closedDoor]
    phase := .running
    reg := upd State.reset.reg 0 fun r => { r with presence := .present, state := .ready, power := .on, activity := .cook }
    line := { LineCtl.initial with exchange := some { bay := 0, carried := [], wasLost := false, limit := 0, answer := .awaited } }
    lib := { Library.initial with index := [{ number := 7, cur := emptyRevision, pins := 1, retired := none, withdrawn := false }] }
    runs := { RunEngine.initial with runs := upd RunEngine.initial.runs 0 fun _ => some stuckRun } }

/-- The state after the record: the run is DONE, and the bay still COOKs. -/
def resumed : State := pump (takeStatus closedDoor { stuck with pending := [] })

theorem step_stuck : step stuck = .next resumed := by
  have hpending : stuck.pending = [.statusRecord closedDoor] := rfl
  have hon : ({ stuck with pending := [] } : State).phase ≠ .off := by decide
  have hexec : exec (.statusRecord closedDoor) { stuck with pending := [] } = .next (whileOn (takeStatus closedDoor) { stuck with pending := [] }) := rfl
  rw [step, hpending]
  exact hexec.trans (congrArg _ (whileOn_of_supplied _ hon))

set_option maxRecDepth 20000 in
theorem resumed_run : resumed.reg[(0 : BayId)].activity = .cook ∧ liveRun resumed 0 = none := by decide

set_option maxRecDepth 20000 in
theorem resumed_index : ({ number := 7, cur := emptyRevision, pins := 1, retired := none, withdrawn := false } : Entry) ∈ resumed.lib.index ∧
    cooking resumed 7 4 = 0 := by decide

theorem stuck_activity : ∀ b : BayId, (stuck.reg[b].activity = .cook ↔ (liveRun stuck b).isSome = true) ∧ stuck.reg[b].activity ≠ .clean ∧
    liveClean stuck b = none ∧ stuck.reg[b].activity ≠ .update := by decide

theorem stuck_channels : ∀ c : Fin 4, stuck.dist.channels[c] = .initial := by decide

theorem stuck_jobs : Jobs stuck := by
  intro b
  obtain ⟨hcook, hclean, hnone, hupdate⟩ := stuck_activity b
  have hcur : ∀ c : Fin 4, stuck.dist.channels[c].current = none := fun c => by rw [stuck_channels]; rfl
  have hprog : ∀ c : Fin 4, stuck.dist.channels[c].progress[b] = .notTarget := fun c => by rw [stuck_channels]; exact table_get 12 _ b.val b.isLt
  refine ⟨hcook, iff_of_false hclean (by rw [hnone]; exact Bool.false_ne_true), iff_of_false hupdate fun ⟨c, h⟩ => ?_,
    fun c => iff_of_false (fun h => ?_) (by rw [hprog]; rintro (h | h) <;> cases h), fun c h => ?_, fun c d h => ?_⟩
  all_goals rw [hcur] at h; cases h

theorem stuck_pool : Pool stuck where
  slots := by decide
  order := by decide
  pins e he := by
    obtain rfl := List.mem_singleton.1 he
    exact ⟨by decide, fun x hx => by simp at hx, fun h => by simp at h⟩
  runs b r hr := by
    have hall : ∀ b : BayId, ∀ r ∈ liveRun stuck b, r = stuckRun := by decide
    obtain rfl := hall b r hr
    exact ⟨_, List.mem_singleton.2 rfl, rfl, .inl rfl⟩
  load l hl := by cases hl
  job j hj := by cases hj
  idle _ _ := rfl
  users k := by revert k; decide
  start c hc := by cases hc

/-- Refutes O5: the record ends the run, and the bay's activity stays COOK. -/
theorem not_everyStepKeepsEachBayToItsJob : ¬ Obligations.EveryStepKeepsEachBayToItsJob := by
  intro h
  obtain ⟨hcook, hnone⟩ := resumed_run
  have := (h stuck resumed stuck_jobs step_stuck 0).cook.1 hcook
  rw [hnone] at this
  cases this

/-- Refutes O7: the record ends the run, and the pin of its revision stays. -/
theorem not_everyStepKeepsTheStepPool : ¬ Obligations.EveryStepKeepsTheStepPool := by
  intro h
  obtain ⟨hmem, hnone⟩ := resumed_index
  have hpins : 1 = cooking resumed 7 4 := ((h stuck resumed stuck_jobs stuck_pool step_stuck).pins _ hmem).cur
  rw [hnone] at hpins
  cases hpins

end Sys2Proof.Machine


/-! Every command keeps the call table (O6). -/

namespace Sys2Proof.Machine

set_option Elab.async false

open Sys2Proof

/-! ## Every part -/

/-- Every part may change. -/
def Parts.all : Parts where
  reg _ := True
  claim _ := True
  line _ := True
  drops _ _ := True
  grace _ := True
  go _ := True
  misses _ := True
  opens _ := True
  store := True
  lib := True
  sched := True
  run _ := True
  runEnd _ := True
  heat _ := True
  shares := True
  cleaning _ := True
  cleanEnd _ := True
  hygiene _ := True
  clean _ := True
  latch _ := True
  clears _ := True
  cond _ := True
  hold _ := True
  calls := True
  flow _ := True
  chan _ := True
  slots := True

theorem Parts.all_recompute : Parts.all.Recompute := ⟨trivial, fun _ => trivial⟩

theorem Parts.all_orders (b : BayId) : Parts.all.Orders b := ⟨trivial, trivial, trivial, trivial, fun _ => trivial⟩

theorem Parts.all_alarm (b : BayId) : Parts.all.Alarm b := ⟨trivial, trivial⟩

theorem Parts.all_soiling (b : BayId) : Parts.all.Soiling b := ⟨trivial, trivial, all_alarm b, trivial⟩

theorem Parts.all_clearing (b : BayId) : Parts.all.Clearing b := ⟨trivial, trivial, trivial, trivial⟩

theorem Parts.all_startRun (b : BayId) : Parts.all.StartRun b := ⟨trivial, trivial, ⟨trivial, trivial⟩, trivial, all_recompute⟩

theorem Parts.all_cleanWork (b : BayId) : Parts.all.CleanWork b := ⟨all_orders b, trivial, trivial⟩

theorem Parts.all_startClean (b : BayId) : Parts.all.StartClean b := ⟨trivial, all_cleanWork b, trivial, all_recompute⟩

theorem Parts.all_pass : Parts.all.Pass := ⟨⟨fun _ => trivial, fun _ => trivial, trivial, fun _ => trivial, all_recompute⟩, fun _ => trivial⟩

theorem Parts.all_release (b : BayId) : Parts.all.Release b := ⟨all_pass, all_startClean b, trivial⟩

theorem Parts.all_endRun (b : BayId) : Parts.all.EndRun b := ⟨all_orders b, fun _ => trivial, trivial, trivial, trivial, all_soiling b, trivial⟩

theorem Parts.all_endClean (b : BayId) : Parts.all.EndClean b := ⟨all_orders b, fun _ => trivial, trivial, trivial, trivial⟩

theorem Parts.all_endTransfer (b : BayId) (c : Fin 4) : Parts.all.EndTransfer b c :=
  ⟨all_orders b, fun _ => trivial, trivial, trivial, trivial, trivial, all_alarm b, trivial, trivial, trivial⟩

theorem Parts.all_enter (b : BayId) : Parts.all.Enter b :=
  ⟨⟨all_alarm b, trivial, trivial, trivial, fun _ => trivial, trivial, trivial, trivial, all_recompute, trivial, trivial⟩, trivial⟩

theorem Parts.all_oven (b : BayId) : Parts.all.Oven b := ⟨all_enter b, ⟨all_endRun b, all_endClean b, all_endTransfer b⟩, all_release b, trivial⟩

theorem Parts.all_wash (b : BayId) : Parts.all.Wash b := ⟨all_endClean b, all_soiling b, all_release b⟩

theorem Parts.all_record (b : BayId) : Parts.all.Record b := ⟨all_oven b, ⟨all_startRun b, all_startClean b⟩, trivial⟩

theorem Parts.all_windows : Parts.all.Windows := ⟨trivial, all_release, all_alarm⟩

/-- Any operation that `Touches` describes. -/
abbrev Changes (s t : State) : Prop := Touches .all s t

/-! ## The calls' own operations -/

theorem acceptCall_callTable {s : State} (h : CallTable s) (c : Call) : CallTable (acceptCall c s) :=
  arbiter_callTable (h.undispatched c.id (fun _ => ⟨rfl, rfl, rfl⟩) fun _ _ _ => ⟨by simp, rfl, fun _ => rfl⟩)

/-- A call that a lane holds has no escalation deadline. -/
theorem CallTable.no_deadline {s : State} (h : CallTable s) {c : Call} (hc : c ∈ s.mon.calls) (hst : c.state = .dispatched) : c.deadline.isSome ≠ true := by
  intro hd
  have := h.deadline c hc hd
  rw [hst] at this
  cases this

theorem refuseCall_callTable {s : State} (h : CallTable s) {c : Call} (hc : c ∈ s.mon.calls) (hst : c.state = .dispatched) :
    CallTable (refuseCall c s) := by
  have hnone : ∀ d ∈ s.mon.calls, d.id = c.id → d.deadline.isSome ≠ true := fun d hd e =>
    List.inj_on_of_nodup_map h.ids hd hc e ▸ h.no_deadline hc hst
  exact arbiter_callTable (h.undispatched c.id (fun _ => ⟨rfl, rfl, rfl⟩) fun d hd e => ⟨by simp, rfl, fun hdl => absurd hdl (hnone d hd e)⟩)

theorem Call.timeOut_job (c : Call) : c.timeOut.id = c.id ∧ c.timeOut.bay = c.bay ∧ c.timeOut.kind = c.kind := by
  unfold Call.timeOut
  split <;> exact ⟨rfl, rfl, rfl⟩

theorem Call.timeOut_waits (c : Call) : c.timeOut.state = .waiting ∧ c.timeOut.lane = none ∧ c.timeOut.deadline = c.deadline := by
  unfold Call.timeOut
  split <;> exact ⟨rfl, rfl, rfl⟩

theorem laneExpires_callTable {s : State} (h : CallTable s) (l : Fin 2) : CallTable (laneExpires l s) := by
  unfold laneExpires
  split
  · next x hx =>
    split
    · refine arbiter_callTable (h.undispatched x.call Call.timeOut_job fun c hc e => ?_)
      obtain ⟨hst, hl, hd⟩ := c.timeOut_waits
      refine ⟨by rw [hst]; simp, hl, fun hdl => ?_⟩
      rw [hd] at hdl
      exact absurd hdl (h.no_deadline hc ((h.lane c hc l).2 ⟨x, hx, e.symm⟩).1)
    · exact h
  · exact h

theorem callProgress_callTable {s : State} (h : CallTable s) {i : Nat} {c : Call} (hc : callOf s i = some c) (hst : c.state = .acknowledged) {f : Call → Call}
    (hf : ∀ c, (f c).id = c.id ∧ (f c).bay = c.bay ∧ (f c).kind = c.kind ∧ (f c).lane = c.lane)
    (hnew : (f c).state ≠ .dispatched ∧ ((f c).deadline.isSome = true → (f c).state = .acknowledged)) : CallTable (s.setCall i f) := by
  obtain ⟨hmem, rfl⟩ := callOf_eq_some hc
  exact h.restated hmem (by rw [hst]; simp) hf hnew

theorem automationHold_callTable {s : State} (h : CallTable s) (b : BayId) (i : Nat) : CallTable (automationHold b i s) :=
  ((Touches.refl (m := .all) s).automationHold (Parts.all_oven b) i).table h

/-- Two changes of one call are one change. -/
theorem setCall_setCall (s : State) (i : Nat) {f g : Call → Call} (hf : ∀ c, (f c).id = c.id) :
    (s.setCall i f).setCall i g = s.setCall i (g ∘ f) := by
  simp only [State.setCall, List.map_map]
  congr 2
  refine List.map_congr_left fun c _ => ?_
  by_cases e : c.id = i
  · simp [e, hf]
  · simp [e]

theorem escalate_callTable {s : State} (h : CallTable s) {c : Call} (hc : c ∈ s.mon.calls) (hd : c.deadline.isSome = true) : CallTable (escalate c s) := by
  have hst : c.state ≠ .dispatched := by rw [h.deadline c hc hd]; simp
  have hraised : CallTable (s.setCall c.id fun x => { x with level := x.level + 1, deadline := none }) :=
    h.restated hc hst (fun _ => ⟨rfl, rfl, rfl, rfl⟩) ⟨hst, fun k => by cases k⟩
  have notice : ∀ {u : State} (w : String), CallTable u → CallTable (escalatedNotice c w u) := fun {u} w hu =>
    ((Touches.refl (m := .all) u).queueNotice _ _).table hu
  unfold escalate
  dsimp only
  split
  · rw [setCall_setCall s c.id (f := fun x => { x with level := x.level + 1, deadline := none }) fun _ => rfl]
    exact arbiter_callTable (notice _ (h.restated hc hst (fun _ => ⟨rfl, rfl, rfl, rfl⟩) ⟨by simp, fun k => by cases k⟩))
  · split
    · exact notice _ (automationHold_callTable hraised c.bay c.id)
    · exact notice _ hraised

theorem escalationExpires_callTable {s : State} (h : CallTable s) (i : Nat) : CallTable (escalationExpires i s) := by
  unfold escalationExpires
  split
  · next c hc =>
    split
    · next hr =>
      refine escalate_callTable h (callOf_eq_some hc).1 ?_
      cases hd : c.deadline
      · simp [hd, reached] at hr
      · rfl
    · exact h
  · exact h

theorem closeCall_callTable {s : State} (h : CallTable s) {c : Call} (hc : c ∈ s.mon.calls) : CallTable (closeCall c s) := by
  have hframe : ∀ u : State, (if latchPersists u c.bay c.kind = true then u else clearLatch c.bay c.kind u).mon.calls = u.mon.calls ∧
      (if latchPersists u c.bay c.kind = true then u else clearLatch c.bay c.kind u).mon.lanes = u.mon.lanes ∧
      (if latchPersists u c.bay c.kind = true then u else clearLatch c.bay c.kind u).mon.nextCall = u.mon.nextCall := by
    intro u
    have : Touches { latch := fun _ => True, clears := fun _ => True, heat := fun _ => True, line := fun _ => True } u
        (if latchPersists u c.bay c.kind = true then u else clearLatch c.bay c.kind u) := by
      split
      · exact .refl u
      · exact (Touches.refl u).clearLatch ⟨trivial, trivial, trivial, trivial⟩ _
    obtain ⟨h1, h2, h3, -⟩ := this.calls id
    exact ⟨h1, h2, h3⟩
  obtain ⟨hcalls, hlanes, hnext⟩ := hframe (freeCallLane c.id s)
  unfold closeCall
  dsimp only
  refine arbiter_callTable (((Touches.refl (m := .all) _).rescan Parts.all_alarm).table (((Touches.refl (m := .all) _).queueNotice _ _).table ?_))
  refine h.removed c.id ?_ ?_ fun l x => ?_
  · simp only [State.setMon_mon, hcalls]; rfl
  · simp only [State.setMon_mon, hnext]; rfl
  · simp only [State.setMon_mon, hlanes]
    exact freeCallLane_lanes _ _ _ _


/-! ## The owners of the verbs -/

/-- A state that differs from one with a call table in other blocks alone. -/
theorem CallTable.elsewhere {s t : State} (h : CallTable s) (hm : t.mon = s.mon := by rfl) : CallTable t := h.congr (by rw [hm]) (by rw [hm]) (by rw [hm])

/-- R13, R55: the refusals whose rules state an effect. -/
def RefusalActs (v : Verb) (r : Reason) : Prop :=
  (v = .commissionLimits ∨ v = .commissionOptions) ∧ r = .sequence ∨ v = .recipeStep ∧ (r = .sequence ∨ r = .stale ∨ r = .busy)

/-- What an owner makes of a request: it is refused and changes nothing, or it is taken, or it is refused with the effect that its rule states; in all
cases the call table is kept. -/
inductive Judged (v : Verb) (s : State) : Served → Prop
  | refused (r : Reason) (l : List Tok) : Judged v s (s, .no (.verb v) r l)
  | taken (u : State) (l : List Tok) (h : CallTable s → CallTable u) : Judged v s (u, .ok v l)
  | acts (u : State) (r : Reason) (l : List Tok) (hr : RefusalActs v r) (h : CallTable s → CallTable u) : Judged v s (u, .no (.verb v) r l)

theorem Judged.callTable {v : Verb} {s : State} {x : Served} (h : Judged v s x) (hs : CallTable s) : CallTable x.1 := by
  cases h with
  | refused r l => exact hs
  | taken u l h => exact h hs
  | acts u r l _ h => exact h hs

theorem Judged.unchanged {v : Verb} {s : State} {x : Served} (h : Judged v s x) {k : Head} {r : Reason} {l : List Tok} (hx : x.2 = .no k r l)
    (hr : ¬ RefusalActs v r) : x.1 = s := by
  cases h with
  | refused r l => rfl
  | taken u l h => cases hx
  | acts u q l hq h =>
    cases hx
    exact absurd hq hr

theorem Judged.changes {v : Verb} {s u : State} (h : Changes s u) (l : List Tok) : Judged v s (okay v l u) := .taken u l h.table

theorem Judged.withFields {α : Type} {v : Verb} {parse : List Txt → Option α} {owner : α → State → Served} {f : List Txt} {s : State}
    (ho : ∀ a, Judged v s (owner a s)) : Judged v s (withFields v parse owner f s) := by
  unfold Machine.withFields
  split
  · exact ho _
  · exact .refused _ _

theorem Judged.onBay {v : Verb} {n : Nat} {k : BayId → State → Served} {s : State} (hk : ∀ b, Judged v s (k b s)) : Judged v s (onBay v n k s) := by
  unfold Machine.onBay
  split
  · exact hk _
  · exact .refused _ _

theorem Judged.onFour {v : Verb} {n : Nat} {k : Fin 4 → State → Served} {s : State} (hk : ∀ c, Judged v s (k c s)) : Judged v s (onFour v n k s) := by
  unfold Machine.onFour
  split
  · exact hk _
  · exact .refused _ _

end Sys2Proof.Machine


/-! What the owner of each verb makes of a request (`Judged`), so that a refusal changes nothing (O9), and every command keeps the call table (O6). -/

namespace Sys2Proof.Machine

set_option Elab.async false

open Sys2Proof

section
variable (f : List Txt) (s : State)

theorem Judged.refusal {v : Verb} {r : Reason} {s : State} : Judged v s (refuse v r s) := .refused r []

/-! ## Reading -/

theorem judged_showBay : Judged .showBay s (serveShowBay f s) := .withFields fun _ => .onBay fun _ => .changes (.refl s) _

theorem judged_showRecipe : Judged .showRecipe s (serveShowRecipe f s) := by
  refine .withFields fun p => ?_
  split
  · exact .refusal
  · split
    · exact .refusal
    · split
      · exact .changes (.refl s) _
      · split
        · exact .changes (.refl s) _
        · exact .refusal

theorem judged_showLibrary : Judged .showLibrary s (serveShowLibrary f s) := .withFields fun _ => .changes (.refl s) _

theorem judged_showQuick : Judged .showQuick s (serveShowQuick f s) := .withFields fun _ => .changes (.refl s) _

theorem judged_showRun : Judged .showRun s (serveShowRun f s) := by
  refine .withFields fun n => .onBay fun b => ?_
  split
  · exact .refusal
  · exact .changes (.refl s) _

theorem judged_showHeat : Judged .showHeat s (serveShowHeat f s) := by
  refine .withFields fun o => ?_
  split
  · exact .changes (.refl s) _
  · exact .onBay fun _ => .changes (.refl s) _

theorem judged_showCleaning : Judged .showCleaning s (serveShowCleaning f s) := by
  refine .withFields fun n => .onBay fun b => ?_
  dsimp only
  split
  · split
    · exact .refusal
    · exact .changes (.refl s) _
  · exact .changes (.refl s) _

theorem judged_showHygiene : Judged .showHygiene s (serveShowHygiene f s) := .withFields fun _ => .onBay fun _ => .changes (.refl s) _

theorem judged_showClock : Judged .showClock s (serveShowClock f s) := .withFields fun _ => .changes (.refl s) _

theorem judged_showSchedule : Judged .showSchedule s (serveShowSchedule f s) := by
  refine .withFields fun o => ?_
  split
  · exact .changes (.refl s) _
  · split
    · exact .changes (.refl s) _
    · exact .refusal

theorem judged_showWindows : Judged .showWindows s (serveShowWindows f s) := .withFields fun _ => .changes (.refl s) _

theorem judged_showEvents : Judged .showEvents s (serveShowEvents f s) := by
  refine .withFields fun o => ?_
  dsimp only
  split
  · exact .changes (.refl s) _
  · exact .onBay fun _ => .changes (.refl s) _

theorem judged_showCalls : Judged .showCalls s (serveShowCalls f s) := .withFields fun _ => .changes (.refl s) _

theorem judged_showSlot : Judged .showSlot s (serveShowSlot f s) := .withFields fun _ => .onFour fun _ => .changes (.refl s) _

theorem judged_showChannel : Judged .showChannel s (serveShowChannel f s) := .withFields fun _ => .onFour fun _ => .changes (.refl s) _

/-! ## The Bay Registry -/

theorem completeContext_changes (b : BayId) (c : CommContext) (s : State) : Changes s (completeContext b c s) :=
  (Touches.refl s).completeContext (Parts.all_enter b) trivial c

theorem judged_begin (p : BeginFields) (before : BayState) : Judged .commissionBegin s (beginSequence p before s) := by
  have hopen : Changes s (setBayState p.bay .commissioning .begin (s.setReg p.bay fun r => { r with context := some (openContext s p before) })) :=
    ((Touches.refl s).setReg trivial).setBayState (Parts.all_enter _) _ _
  unfold beginSequence
  dsimp only
  split
  · exact .changes (hopen.trans (completeContext_changes _ _ _)) _
  · exact .changes hopen _

theorem judged_commissionBegin : Judged .commissionBegin s (serveCommissionBegin f s) := by
  refine .withFields fun o => ?_
  dsimp only
  split
  · exact .refusal
  · split
    · exact judged_begin s _ _
    · exact judged_begin s _ _
    · split
      · exact judged_begin s _ _
      · exact .refusal
    · exact judged_begin s _ _
    · exact .refusal

theorem abandonTo_changes (b : BayId) (s : State) : Changes s (abandonTo b s) := (Touches.refl s).abandonTo (Parts.all_enter b)

theorem judged_commissionLimits : Judged .commissionLimits s (serveCommissionLimits f s) := by
  refine .withFields fun p => .onBay fun b => ?_
  dsimp only
  split
  · exact .refusal
  · split
    · exact .acts _ _ _ (.inl ⟨.inl rfl, rfl⟩) (abandonTo_changes b s).table
    · split
      · split
        · split
          · exact .changes ((Touches.refl s).setReg trivial) _
          · exact .changes (completeContext_changes _ _ s) _
        · exact .refusal
      · exact .refusal

theorem judged_commissionOptions : Judged .commissionOptions s (serveCommissionOptions f s) := by
  refine .withFields fun p => .onBay fun b => ?_
  dsimp only
  split
  · exact .refusal
  · split
    · exact .acts _ _ _ (.inl ⟨.inr rfl, rfl⟩) (abandonTo_changes b s).table
    · split
      · split
        · exact .changes (completeContext_changes _ _ s) _
        · exact .refusal
      · exact .refusal

theorem judged_decommission : Judged .decommission s (serveDecommission f s) := by
  refine .withFields fun n => .onBay fun b => ?_
  dsimp only
  split
  · exact .changes ((((Touches.refl s).teardown (Parts.all_enter b) (Parts.all_oven b).job trivial false).dropCommission trivial trivial).setBayState
      (Parts.all_enter b) _ _) _
  · exact .refusal

theorem judged_setMenu : Judged .setMenu s (serveSetMenu f s) := by
  refine .withFields fun p => .onBay fun b => ?_
  dsimp only
  split
  · split
    · split
      · exact .changes (((Touches.refl s).setReg trivial).storePut trivial _) _
      · exact .changes (.refl s) _
    · exact .refusal
  · exact .refusal

/-! ## The Recipe Library -/

theorem judged_recipeBegin : Judged .recipeBegin s (serveRecipeBegin f s) := by
  refine .withFields fun p => ?_
  split
  · exact .refusal
  · split
    · split
      · exact .refusal
      · exact .changes ((Touches.refl s).withLib trivial _) _
    · exact .refusal

theorem judged_takeStep (l : Load) (st : Step) : Judged .recipeStep s (takeStep l st s) := by
  unfold takeStep
  dsimp only
  split
  · exact .changes ((Touches.refl s).withLib trivial _) _
  · have hinst : ∀ r, Changes s (install l.number r { s with lib := { s.lib with load := none } }) := fun r =>
      ((Touches.refl s).withLib trivial _).install trivial trivial _ _
    unfold installReply
    split
    · exact .changes (hinst _) _
    · exact .changes (hinst _) _
    · exact .changes (hinst _) _
    · exact .acts _ _ _ (.inr ⟨rfl, .inr (.inr rfl)⟩) (hinst _).table
    · exact .acts _ _ _ (.inr ⟨rfl, .inr (.inl rfl)⟩) (hinst _).table

theorem judged_recipeStep : Judged .recipeStep s (serveRecipeStep f s) := by
  refine .withFields fun p => ?_
  split
  · exact .refusal
  · split
    · exact .acts _ _ _ (.inr ⟨rfl, .inl rfl⟩) ((Touches.refl (m := .all) s).abandonLoad trivial).table
    · split
      · split
        · exact judged_takeStep s _ _
        · exact .refusal
      · exact .refusal

theorem judged_recipeCancel : Judged .recipeCancel s (serveRecipeCancel f s) := by
  refine .withFields fun _ => ?_
  split
  · exact .changes ((Touches.refl s).abandonLoad trivial) _
  · exact .refusal

theorem judged_recipeWithdraw : Judged .recipeWithdraw s (serveRecipeWithdraw f s) := by
  refine .withFields fun n => ?_
  split
  · split
    · exact .refusal
    · exact .changes (((Touches.refl s).settleEntry trivial _).storeRecord trivial _ _ _) _
  · exact .refusal

theorem judged_setQuick : Judged .setQuick s (serveSetQuick f s) := by
  refine .withFields fun p => ?_
  dsimp only
  split
  · exact .changes (((Touches.refl s).withLib trivial _).storePut trivial _) _
  · exact .refusal

theorem judged_libraryImport : Judged .libraryImport s (serveLibraryImport f s) := by
  refine .withFields fun n => ?_
  dsimp only
  split
  · exact .refusal
  · split
    · exact .refusal
    · split
      · exact .refusal
      · split
        · exact .refusal
        · exact .changes (((Touches.refl s).withLib trivial _).setSlot trivial) _

/-! ## The Run Engine -/

theorem judged_runStart : Judged .runStart s (serveRunStart f s) := by
  refine .withFields fun p => .onBay fun b => ?_
  split
  · split
    · exact .refusal
    · exact .changes ((Touches.refl s).startRun (Parts.all_startRun b) _) _
  · exact .refusal

theorem judged_promptDone : Judged .promptDone s (servePromptDone f s) := by
  refine .withFields fun n => .onBay fun b => ?_
  split
  · split
    · exact .changes ((Touches.refl s).advanceRun (Parts.all_endRun b) (Parts.all_release b)) _
    · exact .refusal
  · exact .refusal

theorem judged_runAbort : Judged .runAbort s (serveRunAbort f s) := by
  refine .withFields fun n => .onBay fun b => ?_
  split
  · exact .changes ((Touches.refl s).abortRun (Parts.all_endRun b) (Parts.all_release b) _) _
  · exact .refusal

theorem judged_runClear : Judged .runClear s (serveRunClear f s) := by
  refine .withFields fun n => .onBay fun b => ?_
  dsimp only
  split
  · exact .refusal
  · split
    · exact .taken _ _ fun h => h.elsewhere
    · exact .refusal

theorem storeSite_callTable {s : State} (h : CallTable s) : CallTable (storeSite s) :=
  ((Touches.refl (m := .all) s).storePut trivial _).table h

theorem judged_setDoorGrace : Judged .setDoorGrace s (serveSetDoorGrace f s) :=
  .withFields fun _ => .taken _ _ fun h => storeSite_callTable h.elsewhere

/-! ## The Heat Share Allocator -/

theorem judged_setLimit : Judged .setLimit s (serveSetLimit f s) :=
  .withFields fun _ => .taken _ _ fun h => ((Touches.refl (m := .all) _).recompute Parts.all_recompute).table (storeSite_callTable h.elsewhere)

theorem examineStandby_changes (b : BayId) (s : State) : Changes s (examineStandby b s) := (Touches.refl s).examineStandby trivial trivial

theorem judged_setStandbyIdle : Judged .setStandbyIdle s (serveSetStandbyIdle f s) :=
  .withFields fun _ => .taken _ _ fun h =>
    ((Touches.refl (m := .all) _).each _ _ fun b _ u => examineStandby_changes b u).table (storeSite_callTable h.elsewhere)

theorem judged_wake : Judged .wake s (serveWake f s) := by
  refine .withFields fun n => .onBay fun b => ?_
  split
  · exact .changes ((Touches.refl s).wakeCause trivial trivial) _
  · exact .refusal

/-! ## The Cleaning Sequencer -/

theorem judged_cleanStart : Judged .cleanStart s (serveCleanStart f s) := by
  refine .withFields fun q => .onBay fun b => ?_
  split
  · exact .refusal
  · split
    · exact .refused _ _
    · exact .changes ((Touches.refl s).startCleaning (Parts.all_startClean b) _ _) _

theorem judged_cleanAbort : Judged .cleanAbort s (serveCleanAbort f s) := by
  refine .withFields fun n => .onBay fun b => ?_
  split
  · exact .changes ((Touches.refl s).abortClean (Parts.all_wash b) _) _
  · exact .refusal

theorem judged_setDetergent : Judged .setDetergent s (serveSetDetergent f s) := by
  refine .withFields fun p => .onBay fun b => ?_
  split
  · exact .changes ((Touches.refl s).setHygiene (Parts.all_soiling b) _) _
  · exact .refusal

/-! ## The Site Clock and the Schedule Table -/

theorem lookAheadAll_changes (s : State) : Changes s (lookAheadAll s) := (Touches.refl s).lookAheadAll (fun _ => trivial) fun _ => trivial

theorem judged_setClock : Judged .setClock s (serveSetClock f s) := by
  refine .withFields fun p => ?_
  split
  · split
    · exact .taken _ _ fun h => (lookAheadAll_changes _).table h.elsewhere
    · exact .refusal
  · exact .refusal

theorem judged_setDst : Judged .setDst s (serveSetDst f s) := by
  refine .withFields fun o => ?_
  split
  · split
    · exact .taken _ _ fun h => (((Touches.refl (m := .all) _).storePut trivial _).trans (lookAheadAll_changes _)).table h.elsewhere
    · exact .refusal
  · exact .refusal

theorem entryChanged_changes (n : Fin 24) (s : State) : Changes s (entryChanged n s) :=
  ((Touches.refl s).dropDue (fun _ => trivial) n).trans (lookAheadAll_changes _)

theorem closed_changes (n : Fin 24) (cause : String) (e : Option SchedEntry) (s : State) : Changes s (setEntry n e (closeEntryWindow n cause s)) :=
  ((Touches.refl s).closeEntryWindow Parts.all_windows n cause).withSched trivial _

theorem judged_scheduleSet : Judged .scheduleSet s (serveScheduleSet f s) := by
  refine .withFields fun p => ?_
  split
  · split
    · exact .changes (((closed_changes _ _ _ s).storePut trivial _).trans (entryChanged_changes _ _)) _
    · exact .refusal
  · exact .refusal

theorem judged_scheduleClear : Judged .scheduleClear s (serveScheduleClear f s) := by
  refine .withFields fun n => ?_
  split
  · exact .changes (((closed_changes _ _ _ s).storeRecord trivial _ _ _).trans (entryChanged_changes _ _)) _
  · exact .refusal

/-! ## The Service Monitor -/

theorem setEvent_callTable {s : State} (h : CallTable s) (k : EventKind) (e : EventSetting) : CallTable (setEvent k e s) := by
  have henabled : ∀ u : State, Changes u (enabledNow k u) := fun u => (Touches.refl u).each _ _ fun b _ w => by
    split
    · exact (Touches.refl w).announce (Parts.all_alarm b) k
    · exact .refl w
  have hseverity : ∀ u : State, Changes u (severityChanged k u) := fun u => (Touches.refl u).each _ _ fun b _ w => by
    split
    · exact examineStandby_changes b w
    · exact .refl w
  have hstored : CallTable (storePut (.event k.slot e) { s with mon := { s.mon with settings := upd s.mon.settings k.slot (fun _ => e) } }) :=
    ((Touches.refl (m := .all) _).storePut trivial _).table (h.congr rfl rfl rfl)
  have hu : ∀ c : Prop, ∀ _ : Decidable c, ∀ u, CallTable u → CallTable (if c then enabledNow k u else u) := fun c _ u hu => by
    split
    · exact (henabled u).table hu
    · exact hu
  unfold setEvent
  dsimp only
  split
  · exact (hseverity _).table (hu _ _ _ hstored)
  · exact hu _ _ _ hstored

theorem judged_setEvent : Judged .setEvent s (serveSetEvent f s) := by
  refine .withFields fun p => ?_
  split
  · split
    · exact .taken _ _ fun h => setEvent_callTable h _ _
    · exact .refusal
  · exact .refusal

theorem judged_ackEvent : Judged .ackEvent s (serveAckEvent f s) := by
  refine .withFields fun p => .onBay fun b => ?_
  dsimp only
  split
  · exact .refusal
  · exact .changes ((Touches.refl s).acknowledge (Parts.all_clearing b) _) _
  · exact .changes ((Touches.refl s).each _ _ fun k _ u => (Touches.refl u).acknowledge (Parts.all_clearing b) k) _

theorem judged_forceEvent : Judged .forceEvent s (serveForceEvent f s) := by
  refine .withFields fun p => .onBay fun b => ?_
  split
  · exact .refusal
  · exact .changes ((Touches.refl s).raise (Parts.all_alarm b) _ _) _

theorem dispatched_eq_some {s : State} {id n : Nat} {c : Call} (h : dispatched s id n = some c) :
    callOf s id = some c ∧ c.state = .dispatched ∧ c.number = n := by
  simp only [dispatched, Option.filter_eq_some_iff, Bool.and_eq_true, decide_eq_true_eq, beq_iff_eq] at h
  exact ⟨h.1, h.2.1, h.2.2⟩

theorem judged_withDispatch {v : Verb} {act : Call → State → State} (f : List Txt) (s : State)
    (h : ∀ c ∈ s.mon.calls, c.state = .dispatched → CallTable s → CallTable (act c s)) : Judged v s (withDispatch v act f s) := by
  refine .withFields fun p => ?_
  split
  · split
    · next c hc =>
      obtain ⟨hof, hst, -⟩ := dispatched_eq_some hc
      exact .taken _ _ (h c (callOf_eq_some hof).1 hst)
    · exact .refusal
  · exact .refusal

theorem judged_callAccepted : Judged .callAccepted s (serveCallAccepted f s) :=
  judged_withDispatch f s fun c _ _ h => acceptCall_callTable h c

theorem judged_callRefused : Judged .callRefused s (serveCallRefused f s) :=
  judged_withDispatch f s fun _ hc hst h => refuseCall_callTable h hc hst

theorem judged_callProgress : Judged .callProgress s (serveCallProgress f s) := by
  refine .withFields fun p => ?_
  split
  · exact .refusal
  · split
    · split
      · exact .refusal
      · next c hc =>
        simp only [Option.filter_eq_some_iff, decide_eq_true_eq] at hc
        obtain ⟨hof, hst⟩ := hc
        split
        · exact .taken _ _ fun h => callProgress_callTable h hof hst (fun _ => ⟨rfl, rfl, rfl, rfl⟩) ⟨by simp, fun k => by cases k⟩
        · refine .taken _ _ fun h => callProgress_callTable h hof hst (fun c => ?_) ?_
          · split <;> exact ⟨rfl, rfl, rfl, rfl⟩
          · split <;> exact ⟨by simp [hst], fun _ => hst⟩
    · exact .refusal

theorem judged_callClose : Judged .callClose s (serveCallClose f s) := by
  refine .withFields fun id => ?_
  split
  · split
    · next c hc => exact .taken _ _ fun h => closeCall_callTable h (callOf_eq_some hc).1
    · exact .refusal
  · exact .refusal

theorem judged_techTake : Judged .techTake s (serveTechTake f s) := by
  refine .withFields fun p => .onBay fun b => ?_
  dsimp only
  split
  · exact .refusal
  · split
    · exact .refusal
    · split
      · exact .refusal
      · exact .changes ((Touches.refl s).forcedTake (Parts.all_oven b)) _

theorem judged_techRelease : Judged .techRelease s (serveTechRelease f s) := by
  refine .withFields fun n => .onBay fun b => ?_
  split
  · exact .changes ((Touches.refl s).setHold trivial trivial _ _) _
  · exact .refusal

theorem judged_holdClear : Judged .holdClear s (serveHoldClear f s) := by
  refine .withFields fun n => .onBay fun b => ?_
  split
  · exact .changes ((Touches.refl s).clearHold trivial trivial trivial trivial) _
  · exact .refusal

/-! ## The Update Distributor -/

theorem judged_bundleOpen : Judged .bundleOpen s (serveBundleOpen f s) := by
  refine .withFields fun p => .onFour fun k => ?_
  split
  · exact .refusal
  · split
    · split
      · exact .refusal
      · exact .refusal
      · exact .refusal
      · split
        · exact .refusal
        · exact .changes ((((Touches.refl s).setSlot trivial).storeStaging trivial _).storePut trivial _) _
    · exact .refusal

theorem judged_bundleChunk : Judged .bundleChunk s (serveBundleChunk f s) := by
  refine .withFields fun p => .onFour fun k => ?_
  dsimp only
  split
  · split
    · exact .refused _ _
    · exact .changes (((Touches.refl s).setSlot trivial).storeStaging trivial _) _
  · exact .refusal

theorem judged_bundleSeal : Judged .bundleSeal s (serveBundleSeal f s) := by
  refine .withFields fun n => .onFour fun k => ?_
  dsimp only
  split
  · exact .refusal
  · split
    · exact .changes ((Touches.refl s).setSlot trivial) _
    · exact .refusal

theorem judged_bundleDiscard : Judged .bundleDiscard s (serveBundleDiscard f s) := by
  refine .withFields fun n => .onFour fun k => ?_
  dsimp only
  split
  · exact .refusal
  · split
    · exact .refusal
    · exact .changes (((Touches.refl s).setSlot trivial).storeRecord trivial _ _ _) _

theorem judged_channelSet : Judged .channelSet s (serveChannelSet f s) := by
  refine .withFields fun p => ?_
  dsimp only
  split
  · split
    · exact .refusal
    · split
      · exact .refusal
      · split
        · exact .refusal
        · exact .refusal
        · exact .changes (((Touches.refl s).setChannel trivial (.inl trivial) (.inl trivial)).setSlot trivial) _
  · exact .refusal

theorem startBay_changes (c : Fin 4) (b : BayId) (s : State) : Changes s (startBay c b s) := by
  unfold startBay
  split
  · exact (Touches.refl s).setProgress trivial trivial (.inl trivial) _
  · exact (Touches.refl s).settleProgress trivial trivial (.inl trivial) _

theorem startChannel_changes (c : Fin 4) (s : State) : Changes s (startChannel c s) :=
  (((Touches.refl s).setChannel trivial (.inl trivial) (.inl trivial)).each _ _ fun b _ u => startBay_changes c b u).pass Parts.all_pass none c

theorem judged_channelStart : Judged .channelStart s (serveChannelStart f s) := by
  refine .withFields fun n => .onFour fun c => ?_
  split
  · exact .changes (startChannel_changes c s) _
  · exact .refusal

theorem judged_channelMask : Judged .channelMask s (serveChannelMask f s) := by
  refine .withFields fun n => .onFour fun c => ?_
  split
  · exact .changes ((Touches.refl s).setChannel trivial (.inl trivial) (.inl trivial)) _
  · exact .refusal

theorem unmaskChannel_changes (c : Fin 4) (s : State) : Changes s (unmaskChannel c s) := by
  have hu : Changes s (s.setChannel c fun x => { x with masked := false }) := (Touches.refl s).setChannel trivial (.inl trivial) (.inl trivial)
  unfold unmaskChannel
  dsimp only
  split
  · exact (hu.offerIfComplete (Parts.all_orders _) (fun _ => trivial) trivial).placeBlocks trivial trivial
  · exact hu.pass Parts.all_pass none c

theorem judged_channelUnmask : Judged .channelUnmask s (serveChannelUnmask f s) := by
  refine .withFields fun n => .onFour fun c => ?_
  split
  · exact .changes (unmaskChannel_changes c s) _
  · exact .refusal

theorem clearChannels_changes (s : State) : Changes s (clearChannels s) := by
  refine (((Touches.refl s).each _ _ fun c _ u => ?_).each _ _ fun c _ u => ?_).each _ _ fun b _ u => examineStandby_changes b u
  · unfold clearTransfer
    split
    · exact (Touches.refl u).endTransfer (Parts.all_endTransfer _ c) (.inr (Parts.all_release _)) _ _
    · exact .refl u
  · refine Touches.setChannel ?_ trivial (.inl trivial) (.inl trivial)
    split
    · exact (Touches.refl u).dropUser trivial _
    · exact .refl u

theorem judged_channelsClear : Judged .channelsClear s (serveChannelsClear f s) := by
  refine .withFields fun _ => ?_
  split
  · exact .refusal
  · exact .changes (clearChannels_changes s) _

/-! ## Every verb -/

theorem judged_restart : Judged .restart s (serveRestart f s) := .withFields fun _ => .taken _ _ fun h => h.elsewhere

theorem serveVerb_judged (v : Verb) : Judged v s (serveVerb v f s) := by
  cases v with
  | commissionBegin => exact judged_commissionBegin f s
  | commissionLimits => exact judged_commissionLimits f s
  | commissionOptions => exact judged_commissionOptions f s
  | decommission => exact judged_decommission f s
  | setMenu => exact judged_setMenu f s
  | showBay => exact judged_showBay f s
  | recipeBegin => exact judged_recipeBegin f s
  | recipeStep => exact judged_recipeStep f s
  | recipeCancel => exact judged_recipeCancel f s
  | recipeWithdraw => exact judged_recipeWithdraw f s
  | setQuick => exact judged_setQuick f s
  | libraryImport => exact judged_libraryImport f s
  | showRecipe => exact judged_showRecipe f s
  | showLibrary => exact judged_showLibrary f s
  | showQuick => exact judged_showQuick f s
  | runStart => exact judged_runStart f s
  | promptDone => exact judged_promptDone f s
  | runAbort => exact judged_runAbort f s
  | runClear => exact judged_runClear f s
  | showRun => exact judged_showRun f s
  | setDoorGrace => exact judged_setDoorGrace f s
  | setLimit => exact judged_setLimit f s
  | setStandbyIdle => exact judged_setStandbyIdle f s
  | wake => exact judged_wake f s
  | showHeat => exact judged_showHeat f s
  | cleanStart => exact judged_cleanStart f s
  | cleanAbort => exact judged_cleanAbort f s
  | setDetergent => exact judged_setDetergent f s
  | showCleaning => exact judged_showCleaning f s
  | showHygiene => exact judged_showHygiene f s
  | setClock => exact judged_setClock f s
  | setDst => exact judged_setDst f s
  | showClock => exact judged_showClock f s
  | scheduleSet => exact judged_scheduleSet f s
  | scheduleClear => exact judged_scheduleClear f s
  | showSchedule => exact judged_showSchedule f s
  | showWindows => exact judged_showWindows f s
  | setEvent => exact judged_setEvent f s
  | ackEvent => exact judged_ackEvent f s
  | forceEvent => exact judged_forceEvent f s
  | callAccepted => exact judged_callAccepted f s
  | callRefused => exact judged_callRefused f s
  | callProgress => exact judged_callProgress f s
  | callClose => exact judged_callClose f s
  | techTake => exact judged_techTake f s
  | techRelease => exact judged_techRelease f s
  | holdClear => exact judged_holdClear f s
  | showEvents => exact judged_showEvents f s
  | showCalls => exact judged_showCalls f s
  | bundleOpen => exact judged_bundleOpen f s
  | bundleChunk => exact judged_bundleChunk f s
  | bundleSeal => exact judged_bundleSeal f s
  | bundleDiscard => exact judged_bundleDiscard f s
  | showSlot => exact judged_showSlot f s
  | channelSet => exact judged_channelSet f s
  | channelStart => exact judged_channelStart f s
  | channelMask => exact judged_channelMask f s
  | channelUnmask => exact judged_channelUnmask f s
  | channelsClear => exact judged_channelsClear f s
  | showChannel => exact judged_showChannel f s
  | restart => exact judged_restart f s

end

/-- Settles O9: the owner of each verb refuses with the state as it was, but where `RefusalActs`. -/
theorem refusedRequestsChangeNothing : Obligations.RefusedRequestsChangeNothing := by
  intro v f s t h r fields hs ht hin hseq hstep
  have hanswered : Answered v f s (serveVerb v f s).2 (serveVerb v f s).1 := answered_of_served hs rfl
  obtain rfl : replying (serveVerb v f s).2 (serveVerb v f s).1 = t := by
    rw [show exec (v.command f) s = _ from hanswered] at ht
    cases ht
    rfl
  have hreply : (serveVerb v f s).2 = .no h r fields := Option.some.inj hin
  have hacts : ¬ RefusalActs v r := by
    rintro (⟨hv, hr⟩ | ⟨hv, hr⟩)
    · obtain ⟨h1, h2⟩ := hseq hr
      exact hv.elim h1 h2
    · obtain ⟨h1, h2, h3⟩ := hstep hv
      exact hr.elim h1 fun k => k.elim h2 h3
  rw [(serveVerb_judged f s v).unchanged hreply hacts, hreply]

end Sys2Proof.Machine


/-! Every command keeps the call table (O6): the events of the blocks, start-ups, and the load. -/

namespace Sys2Proof.Machine

set_option Elab.async false

open Sys2Proof

section
variable {s : State}

/-! ## The Host Link -/

theorem pump_callTable (h : CallTable s) : CallTable (pump s) := by
  have hp := pump_sameButSending s
  rw [hp]
  exact h.elsewhere

theorem takeLine_callTable (h : CallTable s) (early : Bool) (l : InLine) : CallTable (takeLine serveVerb early l s) := by
  have hserved : CallTable (serveLine serveVerb early l s).1 := by
    unfold serveLine
    split
    · exact h
    · split <;> exact h
    · split
      · exact h
      · exact (serveVerb_judged _ s _).callTable h
  exact hserved.elsewhere

theorem receive_callTable (h : CallTable s) (l : InLine) : CallTable (receive serveVerb l s) := by
  unfold receive
  split
  · exact h
  · split
    · exact h.elsewhere
    · split
      · exact h.elsewhere
      · exact takeLine_callTable h _ l

theorem takeNext_callTable (h : CallTable s) : CallTable (takeNext serveVerb s) := by
  unfold takeNext
  split
  · split
    · exact takeLine_callTable h.elsewhere _ _
    · exact h.elsewhere
  · split
    · exact h
    · exact h.elsewhere

theorem replyGone_callTable (h : CallTable s) : CallTable (replyGone serveVerb s) := by
  unfold replyGone
  split
  · dsimp only
    split
    · exact h.elsewhere
    · exact takeNext_callTable h.elsewhere
  · exact h

theorem noticeGone_callTable (h : CallTable s) : CallTable (noticeGone s) := by
  unfold noticeGone
  split
  · dsimp only
    split
    · exact ((Touches.refl (m := .all) _).queueNotice _ _).table h.elsewhere
    · exact h.elsewhere
  · exact h

theorem loseLine_or_callTable (h : CallTable s) (c : Prop) [Decidable c] : CallTable (if c then s else loseLine s) := by
  split
  · exact h
  · exact h.elsewhere

/-! ## The oven line -/

theorem skipBays_callTable (h : CallTable s) : CallTable (skipBays s) := h.elsewhere

theorem startCycle_callTable (h : CallTable s) : CallTable (startCycle s) := by
  unfold startCycle
  split
  · exact h.elsewhere
  · exact h

theorem sendPoll_callTable (h : CallTable s) (b : BayId) : CallTable (sendPoll b s) :=
  ((Touches.refl (m := .all) _).each _ _ fun o _ u => (Touches.refl u).deliveryReport (fun _ => trivial) b o).table h.elsewhere

theorem sendExtra_callTable (h : CallTable s) : CallTable (sendExtra s) := by
  unfold sendExtra
  split
  · exact h
  · split
    · exact h
    · split
      · exact sendPoll_callTable h.elsewhere _
      · exact h.elsewhere

theorem sendNext_callTable (h : CallTable s) : CallTable (sendNext s) := by
  unfold sendNext
  split
  · exact h
  · split
    · exact sendPoll_callTable h.elsewhere _
    · exact sendExtra_callTable h.elsewhere

theorem closeWindow_callTable (h : CallTable s) : CallTable (closeWindow s) := by
  unfold closeWindow
  split
  · exact h
  · split
    · refine skipBays_callTable ?_
      dsimp only
      split
      · exact h.elsewhere
      · exact ((Touches.refl (m := .all) _).missPoll (Parts.all_oven _) _).table h.elsewhere
    · exact h

theorem takeStatus_callTable (h : CallTable s) (body : StatusBody) : CallTable (takeStatus body s) := by
  unfold takeStatus
  split
  · next x _ =>
    split
    · exact h
    · split
      · exact h.elsewhere
      · have hparts : ∀ u, CallTable u → CallTable (handParts x.bay (correct body) (acceptOrders x.bay (acceptedBy x.carried body.echo) u)) := fun u hu =>
          (((Touches.refl (m := .all) u).acceptOrders (Parts.all_cleanWork _) (fun _ => trivial) trivial Parts.all_recompute _).handParts (Parts.all_record _) _).table hu
        dsimp only
        split
        · exact hparts _ h.elsewhere
        · exact ((Touches.refl (m := .all) _).countPoll (Parts.all_oven _)).table (hparts _ h.elsewhere)
  · exact h

theorem takeIdentityRecord_callTable (h : CallTable s) (body : IdentityBody) : CallTable (takeIdentityRecord body s) := by
  unfold takeIdentityRecord
  split
  · split
    · exact h
    · split
      · exact h.elsewhere
      · refine ((Touches.refl (m := .all) _).handIdentity (Parts.all_oven _) _).table ?_
        split
        · exact ((Touches.refl (m := .all) _).acceptOrders (Parts.all_cleanWork _) (fun _ => trivial) trivial Parts.all_recompute _).table h.elsewhere
        · exact h.elsewhere
  · exact h

/-! ## The other events of the blocks -/

theorem settleExpires_changes (b : BayId) (s : State) : Changes s (settleExpires b s) := by
  unfold settleExpires
  split
  · dsimp only
    split
    · exact ((Touches.refl s).setReg trivial).setReg trivial
    · exact ((Touches.refl s).setReg trivial).setBayState (Parts.all_enter b) _ _
  · exact .refl s

theorem partialExpires_changes (b : BayId) (s : State) : Changes s (partialExpires b s) := by
  unfold partialExpires
  split
  · exact ((Touches.refl s).setReg trivial).setCondition (Parts.all_alarm b) trivial _ _
  · exact .refl s

theorem commissionExpires_changes (b : BayId) (s : State) : Changes s (commissionExpires b s) := by
  unfold commissionExpires
  split
  · exact abandonTo_changes b s
  · exact .refl s

theorem lostPoll_changes (b : BayId) (s : State) : Changes s (lostPoll b s) := by
  unfold lostPoll
  split
  · exact (Touches.refl s).setTimers trivial trivial
  · exact .refl s

theorem applyGrace_changes (b : BayId) (s : State) : Changes s (applyGrace b s) := by
  unfold applyGrace
  split
  · exact (Touches.refl s).graceExpires (Parts.all_oven b)
  · exact .refl s

theorem loadExpires_changes (s : State) : Changes s (loadExpires s) := by
  unfold loadExpires
  split
  · exact (Touches.refl s).abandonLoad trivial
  · exact .refl s

theorem endImport_changes (k : Fin 4) (l : List Tok) (s : State) : Changes s (endImport k l s) :=
  (((Touches.refl s).withLib trivial _).dropUser trivial k).queueNotice _ _

theorem validateImport_changes (s : State) : Changes s (validateImport s) := by
  unfold validateImport
  split
  · split
    · exact endImport_changes _ _ s
    · split
      · exact endImport_changes _ _ s
      · exact (Touches.refl s).withLib trivial _
  · exact .refl s

theorem installRecord_changes (j : Import) (r : BundleRecord) (s : State) : Changes s (installRecord j r s).1 := by
  unfold installRecord
  split
  · exact .refl s
  · exact .refl s
  · exact (Touches.refl s).install trivial trivial _ _

theorem importNext_changes (s : State) : Changes s (importNext s) := by
  unfold importNext
  split
  · dsimp only
    split
    · exact ((installRecord_changes _ _ s).withLib trivial _).trans (endImport_changes _ _ _)
    · exact (installRecord_changes _ _ s).withLib trivial _
  · exact .refl s

theorem abortRun_changes (b : BayId) (r : RunReason) (s : State) : Changes s (abortRun b r s) :=
  (Touches.refl s).abortRun (Parts.all_endRun b) (Parts.all_release b) r

theorem report_changes (b : BayId) (k : EventKind) (s : State) : Changes s (report b k s) := (Touches.refl s).report (Parts.all_alarm b) k

theorem runWakeExpires_changes (b : BayId) (s : State) : Changes s (runWakeExpires b s) := by
  unfold runWakeExpires
  split
  · split
    · exact abortRun_changes b _ s
    · exact .refl s
  · exact .refl s

theorem maximumTimeExpires_changes (b : BayId) (s : State) : Changes s (maximumTimeExpires b s) := by
  unfold maximumTimeExpires
  split
  · split
    · exact (report_changes b _ s).trans (abortRun_changes b _ _)
    · exact .refl s
  · exact .refl s

theorem promptExpires_changes (b : BayId) (s : State) : Changes s (promptExpires b s) := by
  unfold promptExpires
  split
  · split
    · exact abortRun_changes b _ s
    · exact .refl s
  · exact .refl s

theorem runDoorExpires_changes (b : BayId) (s : State) : Changes s (runDoorExpires b s) := by
  unfold runDoorExpires
  split
  · split
    · exact (report_changes b _ s).trans (abortRun_changes b _ _)
    · exact .refl s
  · exact .refl s

theorem runawayExpires_changes (b : BayId) (s : State) : Changes s (runawayExpires b s) := by
  unfold runawayExpires
  split
  · split
    · exact (report_changes b _ s).trans (abortRun_changes b _ _)
    · exact .refl s
  · exact .refl s

theorem starvationExpires_changes (b : BayId) (s : State) : Changes s (starvationExpires b s) := by
  unfold starvationExpires
  split
  · exact (report_changes b _ s).setShare trivial
  · exact .refl s

theorem idleExpires_changes (b : BayId) (s : State) : Changes s (idleExpires b s) := by
  unfold idleExpires
  split
  · exact examineStandby_changes b s
  · exact .refl s

theorem endClean_changes (b : BayId) (st : CleanState) (o : CleanOutcome) (r : CleanReason) (safe : Bool) (s : State) :
    Changes s (endClean b st o r safe .now s) := (Touches.refl s).endClean (Parts.all_endClean b) (.inr (Parts.all_release b)) _ _ _ _

theorem phaseDurationEnds_changes (b : BayId) (s : State) : Changes s (phaseDurationEnds b s) := by
  unfold phaseDurationEnds
  split
  · split
    · split
      · exact (Touches.refl s).endPhase (Parts.all_endClean b) (Parts.all_soiling b) (Parts.all_release b)
      · exact (Touches.refl s).setCleanRec trivial (.inl trivial)
    · exact .refl s
  · exact .refl s

theorem overrunExpires_changes (b : BayId) (s : State) : Changes s (overrunExpires b s) := by
  unfold overrunExpires
  split
  · split
    · dsimp only
      split
      · exact (report_changes b _ s).forceRinse (Parts.all_cleanWork b) Parts.all_recompute _ _
      · exact (report_changes b _ s).trans (endClean_changes b _ _ _ _ _)
      · exact (report_changes b _ s).trans (endClean_changes b _ _ _ _ _)
      · exact .refl s
    · exact .refl s
  · exact .refl s

theorem cleanWakeExpires_changes (b : BayId) (s : State) : Changes s (cleanWakeExpires b s) := by
  unfold cleanWakeExpires
  split
  · split
    · exact (endClean_changes b _ _ _ _ s).trans (report_changes b _ _)
    · exact .refl s
  · exact .refl s

theorem coolingExpires_changes (b : BayId) (s : State) : Changes s (coolingExpires b s) := by
  unfold coolingExpires
  split
  · split
    · exact (endClean_changes b _ _ _ _ s).trans (report_changes b _ _)
    · exact .refl s
  · exact .refl s

theorem cleanDoorExpires_changes (b : BayId) (s : State) : Changes s (cleanDoorExpires b s) := by
  unfold cleanDoorExpires
  split
  · split
    · exact (report_changes b _ s).trans (endClean_changes b _ _ _ _ _)
    · exact .refl s
  · exact .refl s

theorem windowExpires_changes (n : Fin 24) (s : State) : Changes s (windowExpires n s) := by
  unfold windowExpires
  split
  · exact (Touches.refl s).closeEntryWindow Parts.all_windows n _
  · exact .refl s

theorem sealDone_changes (k : Fin 4) (s : State) : Changes s (sealDone k s) := by
  unfold sealDone
  dsimp only
  split
  · exact ((((Touches.refl s).setSlot trivial).setSlot trivial).storeSealHeader trivial _ _).queueNotice _ _
  · exact .refl s

theorem ackExpires_changes (c : Fin 4) (s : State) : Changes s (ackExpires c s) := by
  unfold ackExpires
  dsimp only
  split
  · split
    · exact (Touches.refl s).blockMiss (Parts.all_endTransfer _ c) (Parts.all_release _) _
    · exact .refl s
  · exact .refl s

theorem offerExpires_changes (c : Fin 4) (s : State) : Changes s (offerExpires c s) := by
  unfold offerExpires
  dsimp only
  split
  · split
    · exact (Touches.refl s).endTransfer (Parts.all_endTransfer _ c) (.inr (Parts.all_release _)) _ _
    · exact .refl s
  · exact .refl s

theorem writeDone_changes (s : State) : Changes s (writeDone s) := by
  unfold writeDone
  split
  · exact ((Touches.refl s).withStore trivial _).beginWrite trivial
  · exact .refl s

theorem updateClock_callTable (h : CallTable s) : CallTable (updateClock s) := by
  unfold updateClock
  dsimp only
  split
  · exact ((Touches.refl (m := .all) _).minuteBoundary Parts.all_windows).table h.elsewhere
  · exact h.elsewhere

/-! ## Start-ups and the load -/

/-- A state with no calls and free lanes. -/
theorem CallTable.empty (hm : s.mon = .initial) : CallTable s := by
  have hlanes : ∀ l : Fin 2, s.mon.lanes[l] = none := fun l => by rw [hm]; exact table_get 2 none l.val l.isLt
  have hcalls : s.mon.calls = [] := by rw [hm]; rfl
  have hnext : s.mon.nextCall = 1 := by rw [hm]; rfl
  exact
    { room := by rw [hcalls]; exact Nat.zero_le _
      next := by rw [hnext]; decide
      range := by rw [hcalls]; exact fun _ hc => nomatch hc
      ids := by rw [hcalls]; exact .nil
      kinds := by rw [hcalls]; exact .nil
      lane := by rw [hcalls]; exact fun _ hc => nomatch hc
      free := by rw [hcalls]; exact fun _ hc => nomatch hc
      held := fun l x hx => by rw [hlanes] at hx; cases hx
      deadline := by rw [hcalls]; exact fun _ hc => nomatch hc }

theorem startUp_callTable (c : Cause) (s : State) : CallTable (startUp c s) :=
  ((Touches.refl (m := .all) (beginLoad c s)).each _ _ fun b _ u => (Touches.refl u).readContacts (Parts.all_oven b)).table (.empty rfl)

theorem takeRecord_callTable (r : StoreRec) (h : CallTable s) : CallTable (takeRecord r s) := by
  cases r with
  | site | quick | dst | sched | commission | hygiene | recipe => exact h.elsewhere
  | event k e => exact h.congr rfl rfl rfl
  | hold b k rp => exact h.congr rfl rfl rfl
  | header k x =>
    unfold takeRecord
    dsimp only
    split
    · exact (((Touches.refl (m := .all) s).setSlot trivial).storeRecord trivial _ _ _).table h
    · exact h.elsewhere

theorem takeRecords_callTable (l : List StoreRec) (h : CallTable s) : CallTable (s.each l takeRecord) :=
  State.each_keeps CallTable l takeRecord (fun r _ hu => takeRecord_callTable r hu) s h

theorem loadProfile_callTable (h : CallTable s) : CallTable (loadProfile s) := by
  unfold loadProfile
  generalize hcleared : ({ s with clock := { s.clock with rule := .initial } } : State) = u
  have hu : CallTable u := by rw [← hcleared]; exact h.elsewhere
  have hread := takeRecords_callTable (readPartition .profile s.store.profile) hu
  generalize u.each (readPartition .profile s.store.profile) takeRecord = t at hread
  exact hread.elsewhere

theorem loadStore_callTable (h : CallTable s) : CallTable (loadStore s) :=
  takeRecords_callTable _ (takeRecords_callTable _ (takeRecords_callTable _ (loadProfile_callTable h)))

theorem releaseSettled_changes (b : BayId) (s : State) : Changes s (releaseSettled b s) := by
  unfold releaseSettled
  split
  · exact ((Touches.refl s).setReg trivial).setBayState (Parts.all_enter b) _ _
  · exact .refl s

theorem endLoad_callTable (h : CallTable s) : CallTable (endLoad s) := by
  have hloaded : CallTable (loaded s) :=
    (((Touches.refl (m := .all) _).each _ _ fun b _ u => releaseSettled_changes b u).each _ _ fun b _ u =>
      (Touches.refl u).reportHygiene (Parts.all_alarm b) trivial).table (loadStore_callTable h)
  by_cases hc : ∃ c, s.phase = .loading c
  · obtain ⟨c, hc⟩ := hc
    rw [endLoad_of_loading hc]
    generalize loaded s = u at hloaded ⊢
    have hplaced : CallTable { u with phase := .running, host := { u.host with notices := startupNotice c u :: u.host.notices } } :=
      hloaded.elsewhere
    exact ((Touches.refl (m := .all) _).beginWrite trivial).table hplaced
  · rw [endLoad_of_not_loading fun c hp => hc ⟨c, hp⟩]
    exact h

theorem restartDrained_callTable (h : CallTable s) : CallTable (restartDrained s) := by
  unfold restartDrained
  split
  · split
    · exact startUp_callTable _ s
    · exact h
  · exact h

theorem restartExpires_callTable (cut : Cut) (h : CallTable s) : CallTable (restartExpires cut s) := by
  unfold restartExpires
  split
  · split
    · exact startUp_callTable _ _
    · exact h
  · exact h

theorem readContacts_callTable (b : BayId) (h : CallTable s) : CallTable (readContacts b s) :=
  ((Touches.refl (m := .all) s).readContacts (Parts.all_oven b)).table h

/-! ## Every command -/

theorem whileOn_callTable {g : State → State} (h : CallTable s) (hg : CallTable (g s)) : CallTable (whileOn g s) := by
  unfold whileOn
  split
  · exact h
  · exact pump_callTable hg

theorem contactsRead_callTable (b : BayId) (p : Contacts) (h : CallTable s) : CallTable (contactsRead b p s) :=
  whileOn_callTable h.elsewhere (readContacts_callTable b h.elsewhere)

theorem exec_callTable (c : Instr) {s : State} (h : CallTable s) : ∃ t, exec c s = .next t ∧ CallTable t := by
  have event : ∀ {g : State → State}, CallTable (g s) → CallTable (whileOn g s) := whileOn_callTable h
  cases c with
  | powerOn => exact ⟨_, rfl, pump_callTable (startUp_callTable _ _)⟩
  | resetPin => exact ⟨_, rfl, event (startUp_callTable _ _)⟩
  | restartWritesDrained => exact ⟨_, rfl, event (restartDrained_callTable h)⟩
  | restartTimeout cut => exact ⟨_, rfl, event (restartExpires_callTable cut h)⟩
  | powerFailure => exact ⟨_, rfl, .empty rfl⟩
  | presencePresent b => exact ⟨_, rfl, contactsRead_callTable b _ h⟩
  | presencePartial b => exact ⟨_, rfl, contactsRead_callTable b _ h⟩
  | presenceAbsent b => exact ⟨_, rfl, contactsRead_callTable b _ h⟩
  | startUpLoadEnd => exact ⟨_, rfl, event (endLoad_callTable h)⟩
  | settleTimerExpiry b => exact ⟨_, rfl, event ((settleExpires_changes b s).table h)⟩
  | partialTimerExpiry b => exact ⟨_, rfl, event ((partialExpires_changes b s).table h)⟩
  | commissionDeadlineExpiry b => exact ⟨_, rfl, event ((commissionExpires_changes b s).table h)⟩
  | pollCycleStart => exact ⟨_, rfl, event (startCycle_callTable h)⟩
  | pollSend => exact ⟨_, rfl, event (sendNext_callTable h)⟩
  | lostPollDue b => exact ⟨_, rfl, event ((lostPoll_changes b s).table h)⟩
  | answerWindowClose => exact ⟨_, rfl, event (closeWindow_callTable h)⟩
  | answerByteGap | answerFrameInvalid => exact ⟨_, rfl, event h.elsewhere⟩
  | statusRecord r => exact ⟨_, rfl, event (takeStatus_callTable h r)⟩
  | identityRecord r => exact ⟨_, rfl, event (takeIdentityRecord_callTable h r)⟩
  | applyGraceExpiry b => exact ⟨_, rfl, event ((applyGrace_changes b s).table h)⟩
  | storeWriteDone => exact ⟨_, rfl, event ((writeDone_changes s).table h)⟩
  | loadDeadlineExpiry => exact ⟨_, rfl, event ((loadExpires_changes s).table h)⟩
  | importValidation => exact ⟨_, rfl, event ((validateImport_changes s).table h)⟩
  | importRecord => exact ⟨_, rfl, event ((importNext_changes s).table h)⟩
  | runWakeDeadlineExpiry b => exact ⟨_, rfl, event ((runWakeExpires_changes b s).table h)⟩
  | maximumTimeDeadlineExpiry b => exact ⟨_, rfl, event ((maximumTimeExpires_changes b s).table h)⟩
  | promptDeadlineExpiry b => exact ⟨_, rfl, event ((promptExpires_changes b s).table h)⟩
  | runDoorGraceExpiry b => exact ⟨_, rfl, event ((runDoorExpires_changes b s).table h)⟩
  | runawayDeadlineExpiry b => exact ⟨_, rfl, event ((runawayExpires_changes b s).table h)⟩
  | starvationDeadlineExpiry b => exact ⟨_, rfl, event ((starvationExpires_changes b s).table h)⟩
  | idleDeadlineExpiry b => exact ⟨_, rfl, event ((idleExpires_changes b s).table h)⟩
  | phaseDurationEnd b => exact ⟨_, rfl, event ((phaseDurationEnds_changes b s).table h)⟩
  | overrunDeadlineExpiry b => exact ⟨_, rfl, event ((overrunExpires_changes b s).table h)⟩
  | cleanWakeDeadlineExpiry b => exact ⟨_, rfl, event ((cleanWakeExpires_changes b s).table h)⟩
  | coolingDeadlineExpiry b => exact ⟨_, rfl, event ((coolingExpires_changes b s).table h)⟩
  | cleanDoorGraceExpiry b => exact ⟨_, rfl, event ((cleanDoorExpires_changes b s).table h)⟩
  | clockUpdate => exact ⟨_, rfl, pump_callTable (updateClock_callTable h)⟩
  | closeDeadlineExpiry n => exact ⟨_, rfl, event ((windowExpires_changes n s).table h)⟩
  | laneTimerExpiry l => exact ⟨_, rfl, event (laneExpires_callTable h l)⟩
  | escalationDeadlineExpiry id => exact ⟨_, rfl, event (escalationExpires_callTable h id)⟩
  | bundleSealDone k => exact ⟨_, rfl, event ((sealDone_changes k s).table h)⟩
  | acknowledgementDeadlineExpiry c => exact ⟨_, rfl, event ((ackExpires_changes c s).table h)⟩
  | offerDeadlineExpiry c => exact ⟨_, rfl, event ((offerExpires_changes c s).table h)⟩
  | emptyLine => exact ⟨_, rfl, event (loseLine_or_callTable h _)⟩
  | lostLine => exact ⟨_, rfl, event (loseLine_or_callTable h _)⟩
  | replySent => exact ⟨_, rfl, event (replyGone_callTable h)⟩
  | noticeSent => exact ⟨_, rfl, event (noticeGone_callTable h)⟩
  | vbakLoss => exact ⟨_, rfl, h.elsewhere⟩
  | _ => exact ⟨_, rfl, pump_callTable (receive_callTable h _)⟩

end

/-- Settles O6: each command keeps the call table, and a tick moves nothing but the count. -/
theorem everyStepKeepsTheCallTable : Obligations.EveryStepKeepsTheCallTable := by
  intro s t hs hstep
  rcases step_cases hstep with ⟨_, rfl⟩ | ⟨c, rest, _, hc⟩
  · exact hs.elsewhere
  · obtain ⟨u, hu, htable⟩ := exec_callTable c (s := { s with pending := rest }) hs.elsewhere
    obtain rfl : u = t := by rw [hu] at hc; cases hc; rfl
    exact htable

end Sys2Proof.Machine


/-! SUPPORT. Facts that many statements share: notices told on the way, orders placed, latches set, conditions taken, and what an event's or a
request's last step, the transmitter's, leaves alone. -/

namespace Sys2Proof.Machine

set_option Elab.async false

open Sys2Proof

/-! ## Notices on the way -/

/-- Time and the room for notices stand, notices were only added, and an overflow stays. -/
structure Later (s t : State) : Prop where
  phase : t.phase = s.phase
  now : t.now = s.now
  notices : s.host.notices <+: t.host.notices
  overflow : s.host.overflow.isSome = true → t.host.overflow.isSome = true

theorem Later.refl (s : State) : Later s s := ⟨rfl, rfl, List.prefix_rfl, id⟩

theorem Later.trans {s t u : State} (h : Later s t) (k : Later t u) : Later s u :=
  ⟨k.phase.trans h.phase, k.now.trans h.now, h.notices.trans k.notices, k.overflow ∘ h.overflow⟩

theorem Touches.later {m : Parts} {s t : State} (h : Touches m s t) : Later s t := ⟨h.phase, h.now, h.notices, h.overflow⟩

theorem Later.noticeRoom {s t : State} (h : Later s t) : noticeRoom t = noticeRoom s := by rw [Machine.noticeRoom, Machine.noticeRoom, h.phase]

/-- What was told stays told. -/
theorem Tells.mono {s u t : State} {k : NoticeKind} {f : List Tok} (h : Tells s u k f) (hl : Later u t) : Tells s t k f := by
  obtain hmem | ⟨hfull, hover⟩ := h
  · exact .inl ((hl.notices.drop _).subset hmem)
  · exact .inr ⟨hfull.trans hl.notices.length_le, hl.overflow hover⟩

/-- What is told after a later state is told after the earlier one. -/
theorem Tells.since {s u t : State} {k : NoticeKind} {f : List Tok} (h : Tells u t k f) (hl : Later s u) : Tells s t k f := by
  obtain hmem | ⟨hfull, hover⟩ := h
  · rw [hl.now] at hmem
    exact .inl ((List.drop_sublist_drop_left _ hl.notices.length_le).subset hmem)
  · exact .inr ⟨hl.noticeRoom ▸ hfull, hover⟩

theorem tells_queueNotice (k : NoticeKind) (f : List Tok) (s : State) : Tells s (queueNotice k f s) k f := by
  by_cases h : s.host.notices.length < noticeRoom s
  · rw [queueNotice_of_room h]
    left
    simp [State.sec]
  · rw [queueNotice_of_full (not_lt.mp h)]
    right
    refine ⟨not_lt.mp h, ?_⟩
    dsimp only
    split <;> rfl

/-- A notice queued in the course of a change. -/
theorem Tells.between {s u v t : State} {k : NoticeKind} {f : List Tok} (hv : v = queueNotice k f u) (h1 : Later s u) (h2 : Later v t) : Tells s t k f := by
  subst hv
  exact ((tells_queueNotice k f u).mono h2).since h1

theorem later_queueNotice (k : NoticeKind) (f : List Tok) (s : State) : Later s (queueNotice k f s) :=
  ((Touches.refl (m := {}) s).queueNotice k f).later

theorem later_replying (r : Reply) (s : State) : Later s (replying r s) := ⟨rfl, rfl, List.prefix_rfl, id⟩

/-! ## The transmitter's part -/

/-- An event is carried out and the transmitter then set going. -/
theorem completes_event {c : Instr} {g : State → State} {s : State} {P : State → Prop} (hon : s.phase ≠ .off) (hc : exec c s = .next (whileOn g s))
    (hP : ∀ tx sent, P { g s with host := { (g s).host with tx := tx, sent := sent } }) : Completes c s P := by
  refine completes_whileOn hon hc ?_
  have hpump := pump_sameButSending (g s)
  unfold SameButSending at hpump
  rw [hpump]
  exact hP _ _

theorem later_sending (s : State) (tx : Tx) (sent : List OutLine) : Later s { s with host := { s.host with tx := tx, sent := sent } } :=
  ⟨rfl, rfl, List.prefix_rfl, id⟩

/-! ## Orders -/

theorem takesOrders_iff (s : State) (b : BayId) : takesOrders s b = true ↔ s.reg[b].state ≠ .empty ∧ s.reg[b].state ≠ .settling := by
  unfold takesOrders
  split <;> simp_all

/-- A plain order changes the bay's line alone. -/
theorem placeOrder_eq_withLine (b : BayId) (body : OrderBody) (s : State) :
    placeOrder b body .plain s = { s with line := (placeOrder b body .plain s).line } := by
  unfold placeOrder
  dsimp only
  simp only [applyNote_plain]
  split
  · split
    · rfl
    · split <;> rfl
  · rfl

theorem takesOrders_of_ready {s : State} {b : BayId} (h : s.reg[b].state = .ready) : takesOrders s b = true := by
  simp [takesOrders_iff, -Fin.getElem_fin, h]

theorem placeOrder_of_not_taken {s : State} {b : BayId} (h : takesOrders s b = false) (body : OrderBody) (note : Note) : placeOrder b body note s = s := by
  unfold placeOrder
  rw [if_neg (by rw [h]; decide)]

theorem applyNote_queue (b : BayId) (body : OrderBody) (note : Note) (id : Nat) (s : State) (d : BayId) :
    (applyNote b body note id s).line.bays[d].queue = s.line.bays[d].queue := by
  unfold applyNote
  split
  · rfl
  · rfl
  · rfl
  · exact upd_view LineBay.queue s.line.bays b d _ rfl
  · rfl

theorem applyNote_held (b : BayId) (body : OrderBody) (note : Note) (id : Nat) (s : State) (d : BayId) :
    (applyNote b body note id s).line.bays[d].held = s.line.bays[d].held := by
  unfold applyNote
  split
  · rfl
  · rfl
  · rfl
  · exact upd_view LineBay.held s.line.bays b d _ rfl
  · rfl

theorem applyNote_nextId (b : BayId) (body : OrderBody) (note : Note) (id : Nat) (s : State) (d : BayId) :
    (applyNote b body note id s).line.bays[d].nextId = s.line.bays[d].nextId := by
  unfold applyNote
  split
  · rfl
  · rfl
  · rfl
  · exact upd_view LineBay.nextId s.line.bays b d _ rfl
  · rfl

/-- The order that a bay's queue would take next. -/
def nextOrder (s : State) (b : BayId) (body : OrderBody) : Order := { id := s.line.bays[b].nextId, body := body, delivered := false }

/-- R36: an order of a coalescing kind takes the place of the queued one. -/
theorem placeOrder_replaces {s : State} {b : BayId} {body : OrderBody} (ht : takesOrders s b = true)
    (hc : (body.kind.coalesces && s.line.bays[b].queue.any (fun x => x.body.is body.kind)) = true) (note : Note) :
    placeOrder b body note s = applyNote b body note s.line.bays[b].nextId (s.setLine b (fun l =>
      { l with queue := l.queue.map (fun x => if x.body.is body.kind then nextOrder s b body else x), nextId := nextOrderId l.nextId })) := by
  unfold placeOrder
  rw [if_pos ht]
  dsimp only
  rw [if_pos hc]
  rfl

/-- R35: another order joins the tail of a queue with room. -/
theorem placeOrder_joins {s : State} {b : BayId} {body : OrderBody} (ht : takesOrders s b = true)
    (hc : ¬ (body.kind.coalesces && s.line.bays[b].queue.any (fun x => x.body.is body.kind)) = true) (hq : s.line.bays[b].queue.length < 6) (note : Note) :
    placeOrder b body note s = applyNote b body note s.line.bays[b].nextId (s.setLine b (fun l =>
      { l with queue := l.queue ++ [nextOrder s b body], nextId := nextOrderId l.nextId })) := by
  unfold placeOrder
  rw [if_pos ht]
  dsimp only
  rw [if_neg hc, if_pos (show s.line.bays[b].queue.length < queueDepth from hq)]
  rfl

/-- R35: in a full queue the producer holds it. -/
theorem placeOrder_held {s : State} {b : BayId} {body : OrderBody} (ht : takesOrders s b = true)
    (hc : ¬ (body.kind.coalesces && s.line.bays[b].queue.any (fun x => x.body.is body.kind)) = true) (hq : 6 ≤ s.line.bays[b].queue.length) (note : Note) :
    placeOrder b body note s = s.setLine b (fun l => { l with held := holdOrder { body := body, note := note } l.held }) := by
  unfold placeOrder
  rw [if_pos ht]
  dsimp only
  rw [if_neg hc, if_neg (show ¬ s.line.bays[b].queue.length < queueDepth from not_lt.mpr hq)]

theorem placeOrder_joins_queue {s : State} {b : BayId} {body : OrderBody} (ht : takesOrders s b = true)
    (hc : ¬ (body.kind.coalesces && s.line.bays[b].queue.any (fun x => x.body.is body.kind)) = true) (hq : s.line.bays[b].queue.length < 6) (note : Note) :
    (placeOrder b body note s).line.bays[b].queue = s.line.bays[b].queue ++ [nextOrder s b body] := by
  rw [placeOrder_joins ht hc hq, applyNote_queue, State.setLine_line, upd_same]

/-- An order that no queued one can be replaced by joins the tail. -/
theorem placeOrder_queue_of_plain {s : State} {b : BayId} {body : OrderBody} (ht : takesOrders s b = true) (hc : body.kind.coalesces = false)
    (hq : s.line.bays[b].queue.length < 6) (note : Note) :
    (placeOrder b body note s).line.bays[b].queue = s.line.bays[b].queue ++ [nextOrder s b body] :=
  placeOrder_joins_queue ht (by simp [hc]) hq note

/-- R35, R36: a queue with room takes the order, with the bay's next id. -/
theorem mem_placeOrder {s : State} {b : BayId} (ht : takesOrders s b = true) (hq : s.line.bays[b].queue.length < 6) (body : OrderBody) (note : Note) :
    nextOrder s b body ∈ (placeOrder b body note s).line.bays[b].queue := by
  by_cases hc : (body.kind.coalesces && s.line.bays[b].queue.any (fun x => x.body.is body.kind)) = true
  · rw [placeOrder_replaces ht hc, applyNote_queue, State.setLine_line, upd_same]
    obtain ⟨-, hany⟩ := Bool.and_eq_true _ _ ▸ hc
    obtain ⟨o, ho, his⟩ := List.any_eq_true.1 hany
    exact List.mem_map.2 ⟨o, ho, if_pos his⟩
  · rw [placeOrder_joins_queue ht hc hq]
    simp

theorem exists_mem_placeOrder {s : State} {b : BayId} (ht : takesOrders s b = true) (hq : s.line.bays[b].queue.length < 6) (body : OrderBody)
    (note : Note) : ∃ o ∈ (placeOrder b body note s).line.bays[b].queue, o.body = body := ⟨_, mem_placeOrder ht hq body note, rfl⟩

/-! ## Waking -/

theorem touchIdle_idleRef (b : BayId) (s : State) : (touchIdle b s).heat.bays[b].idleRef = some (s.now / 1000) := by
  rw [touchIdle, State.setHeat_heat, upd_same]
  rfl

theorem wakeCause_of_wakes {s : State} {b : BayId} (h : wakes s b = true) : wakeCause b s =
    placeOrder b (.power false) .plain ((touchIdle b s).setHeat b (fun h => { h with standbyRequested := false })) := if_pos h

theorem wakeCause_of_not_wakes {s : State} {b : BayId} (h : ¬ wakes s b = true) : wakeCause b s = touchIdle b s := if_neg h

theorem placeOrder_heat (b : BayId) (body : OrderBody) (note : Note) (s : State) : (placeOrder b body note s).heat = s.heat := by simp

theorem wakeCause_heat (b : BayId) (s : State) : (wakeCause b s).heat.bays[b] =
    { s.heat.bays[b] with idleRef := some (s.now / 1000), standbyRequested := s.heat.bays[b].standbyRequested && !wakes s b } := by
  by_cases h : wakes s b = true
  · rw [wakeCause_of_wakes h, placeOrder_heat, State.setHeat_heat, upd_same, touchIdle, State.setHeat_heat, upd_same, h]
    simp [State.sec]
  · rw [wakeCause_of_not_wakes h, touchIdle, State.setHeat_heat, upd_same, Bool.eq_false_of_not_eq_true h]
    simp [State.sec]

theorem ready_of_wakes {s : State} {b : BayId} (h : wakes s b = true) : s.reg[b].state = .ready := by
  simp only [wakes, Bool.and_eq_true, decide_eq_true_eq] at h
  exact h.1.1

/-- R111: a bay that wakes, and whose queue has room, is ordered to. -/
theorem wakeCause_orders {s : State} {b : BayId} (h : wakes s b = true) (hq : s.line.bays[b].queue.length < 6) :
    ∃ o ∈ (wakeCause b s).line.bays[b].queue, o.body = .power false := by
  have hready := ready_of_wakes h
  rw [wakeCause_of_wakes h]
  refine exists_mem_placeOrder ?_ ?_ _ _
  · exact takesOrders_of_ready hready
  · exact hq

/-- What a wake cause changes: the idle time of the bay, standby requested, and its queue. -/
theorem wakeCause_eq (b : BayId) (s : State) : wakeCause b s = { s with heat := (wakeCause b s).heat, line := (wakeCause b s).line } := by
  by_cases h : wakes s b = true
  · rw [wakeCause_of_wakes h, placeOrder_eq_withLine]
    rfl
  · rw [wakeCause_of_not_wakes h]
    rfl

theorem woken_wakeCause (b : BayId) (s : State) : Woken s (wakeCause b s) b := by
  refine ⟨by rw [wakeCause_heat], fun hready hstandby hq => ?_⟩
  have hwakes : wakes s b = true := by simp [wakes, -Fin.getElem_fin, hready, hstandby]
  exact ⟨by rw [wakeCause_heat, hwakes]; simp, wakeCause_orders hwakes hq⟩

/-! ## Latches and conditions -/

/-- What a report of a bay may change, and nothing else. -/
def Parts.alarm (b : BayId) : Parts := { latch := (· = b), calls := True }

theorem Parts.alarm_alarm (b : BayId) : (Parts.alarm b).Alarm b := ⟨rfl, trivial⟩

theorem latch_sets (b : BayId) (k : EventKind) (forced : Bool) (s : State) : (latch b k forced s).mon.bays[b].latches[k.slot].set = true := by
  unfold latch
  split
  · assumption
  · unfold newlySet
    dsimp only
    have hset : ∀ x : Latch, x.set = true → (s.setLatch b k (fun _ => x)).mon.bays[b].latches[k.slot].set = true := fun x hx => by
      rw [State.setLatch, State.setMon_mon]
      dsimp only
      rw [upd_same, upd_same, hx]
    split
    · exact ((Touches.refl _).announce (Parts.alarm_alarm b) k).clears b id k.slot (hset _ rfl)
    · exact hset _ rfl

theorem report_sets (b : BayId) (k : EventKind) (s : State) : (report b k s).mon.bays[b].latches[k.slot].set = true := latch_sets b k false s

theorem EventKind.all_slot (k : EventKind) : EventKind.all[k.slot.val]? = some k := by cases k <;> rfl

theorem EventKind.slot_injective {k j : EventKind} (h : k.slot = j.slot) : k = j := by
  have hk := k.all_slot
  rw [h, j.all_slot] at hk
  exact (Option.some.inj hk).symm

theorem setConds_condition (s : State) (b : BayId) (k j : EventKind) (v : Bool) :
    condition (s.setMon b (fun m => { m with conds := upd m.conds k.slot (fun _ => v) })) b j = if j = k then v else condition s b j := by
  rw [condition, State.setMon_mon]
  dsimp only
  rw [upd_same]
  dsimp only
  rw [upd_get]
  by_cases h : j = k
  · rw [if_pos h, if_pos (congrArg _ h)]
  · rw [if_neg h, if_neg (fun e => h (EventKind.slot_injective e))]
    rfl

/-- R149: a condition takes its value, and no other condition of the bay changes. -/
theorem condition_setCondition (s : State) (b : BayId) (k j : EventKind) (v : Bool) :
    condition (setCondition b k v s) b j = if j = k then v else condition s b j := by
  unfold setCondition
  split
  · next h =>
    split
    · next e => rw [e, h]
    · rfl
  · dsimp only
    split
    · next hv =>
      rw [← setConds_condition s b k j v, condition, condition]
      exact congrArg (·[j.slot]) (((Touches.refl (m := .alarm b) _).raise (Parts.alarm_alarm b) k false).cond b id)
    · exact setConds_condition s b k j v

theorem setCondition_sets {s : State} {b : BayId} {k : EventKind} (h : condition s b k = false) :
    (setCondition b k true s).mon.bays[b].latches[k.slot].set = true := by
  unfold setCondition
  rw [if_neg (by rw [h]; decide)]
  exact latch_sets b k false _

/-! ## What the Monitor leaves alone -/

/-- Nothing but the Service Monitor's records and the notices differs. -/
def MonitorOnly (s t : State) : Prop := t = { s with mon := t.mon, host := t.host }

theorem MonitorOnly.refl (s : State) : MonitorOnly s s := rfl

theorem MonitorOnly.withMon (s : State) (m : Monitor) : MonitorOnly s { s with mon := m } := rfl

theorem MonitorOnly.trans {s t u : State} (h : MonitorOnly s t) (k : MonitorOnly t u) : MonitorOnly s u := by
  unfold MonitorOnly at *
  rw [k, h]

theorem queueNotice_monitorOnly (k : NoticeKind) (f : List Tok) (s : State) : MonitorOnly s (queueNotice k f s) := by
  unfold MonitorOnly queueNotice
  dsimp only
  split <;> rfl

theorem arbiterOnce_monitorOnly (s : State) : MonitorOnly s (arbiterOnce s) := by
  unfold arbiterOnce
  split
  · exact (MonitorOnly.withMon s _).trans (queueNotice_monitorOnly _ _ _)
  · rfl

theorem announce_monitorOnly (b : BayId) (k : EventKind) (s : State) : MonitorOnly s (announce b k s) := by
  unfold announce
  split
  · exact queueNotice_monitorOnly _ _ _
  · split
    · exact queueNotice_monitorOnly _ _ _
    · split
      · exact ((MonitorOnly.withMon s _).trans (queueNotice_monitorOnly _ _ _)).trans ((arbiterOnce_monitorOnly _).trans (arbiterOnce_monitorOnly _))
      · exact (MonitorOnly.withMon s _).trans (queueNotice_monitorOnly _ _ _)

theorem latch_monitorOnly (b : BayId) (k : EventKind) (forced : Bool) (s : State) : MonitorOnly s (latch b k forced s) := by
  unfold latch
  split
  · rfl
  · unfold newlySet
    dsimp only
    split
    · exact (MonitorOnly.withMon s _).trans (announce_monitorOnly _ _ _)
    · rfl

theorem setCondition_monitorOnly (b : BayId) (k : EventKind) (v : Bool) (s : State) : MonitorOnly s (setCondition b k v s) := by
  unfold setCondition
  split
  · rfl
  · dsimp only
    split
    · exact (MonitorOnly.withMon s _).trans (latch_monitorOnly _ _ _ _)
    · rfl

end Sys2Proof.Machine


/-! PROOF. The settings that a request sets, writes and answers: the detergent level (O45), the door grace (O34), the site limit and the standby idle
time with the Allocator's two deadlines (O38), and WAKE (O39). -/

namespace Sys2Proof.Machine

set_option Elab.async false

open Sys2Proof

/-! ## Requests of one and of two fields -/

theorem withFields_pair {α β : Type} {v : Verb} {p : Txt → Option α} {q : Txt → Option β} {owner : α × β → State → Served} {w1 w2 : Txt} {a : α} {b : β}
    (h1 : p w1 = some a) (h2 : q w2 = some b) (s : State) :
    withFields v (fld p fun x => fld q fun y => fin (x, y)) owner [w1, w2] s = owner (a, b) s :=
  withFields_of_parse (by simp [fld, fin, h1, h2]) s

/-- A request that names a bay is taken by that bay's part of the owner. -/
theorem onBay_of_names {v : Verb} {n : Nat} {b : BayId} (h : n = bayNo b) (k : BayId → State → Served) (s : State) : onBay v n k s = k b s := by
  subst h
  exact onBay_bayNo v b k s

/-! ## The store -/

/-- A write of a record goes by the phase and the store alone. -/
theorem storeRecord_store_congr {s t : State} (hp : t.phase = s.phase) (hs : t.store = s.store) (p : Partition) (n : Nat) (x : Option StoreRec) :
    (storeRecord p n x t).store = (storeRecord p n x s).store := by
  unfold storeRecord beginWrite
  dsimp only
  rw [hp, hs]
  split <;> rfl

theorem storePut_store_congr {s t : State} (hp : t.phase = s.phase) (hs : t.store = s.store) (r : StoreRec) :
    (storePut r t).store = (storePut r s).store := storeRecord_store_congr hp hs _ _ _

theorem storePut_eq_withStore (r : StoreRec) (s : State) : storePut r s = { s with store := (storePut r s).store } := storeRecord_eq_withStore _ _ _ s

/-! ## The hygiene record -/

theorem reportHygiene_monitorOnly (b : BayId) (s : State) : MonitorOnly s (reportHygiene b s) :=
  ((setCondition_monitorOnly _ _ _ _).trans (setCondition_monitorOnly _ _ _ _)).trans (setCondition_monitorOnly _ _ _ _)

/-- R131: the three conditions follow the hygiene record. -/
theorem reportHygiene_conditions (b : BayId) (s : State) :
    condition (reportHygiene b s) b .detergentLow = detergentLow s.clean[b].hygiene ∧
    condition (reportHygiene b s) b .rinseOwed = s.clean[b].hygiene.rinseOwed ∧
    condition (reportHygiene b s) b .cleanDue = cleanDue s.clean[b].hygiene := by
  simp [reportHygiene, -Fin.getElem_fin, condition_setCondition]

/-- R130: what a change of the hygiene record makes of the state. -/
theorem setHygiene_eq (b : BayId) (f : Hygiene → Hygiene) (s : State) : setHygiene b f s =
    { s with clean := upd s.clean b (fun c => { c with hygiene := f s.clean[b].hygiene }), mon := (setHygiene b f s).mon,
             store := (storePut (.hygiene b (f s.clean[b].hygiene)) s).store, host := (setHygiene b f s).host } := by
  have hreport : setHygiene b f s = { storePut (.hygiene b (f s.clean[b].hygiene))
      (s.setClean b (fun c => { c with hygiene := f s.clean[b].hygiene })) with mon := (setHygiene b f s).mon, host := (setHygiene b f s).host } :=
    reportHygiene_monitorOnly b _
  have hstore : (storePut (.hygiene b (f s.clean[b].hygiene)) (s.setClean b (fun c => { c with hygiene := f s.clean[b].hygiene }))).store =
      (storePut (.hygiene b (f s.clean[b].hygiene)) s).store :=
    storePut_store_congr (s := s) (t := s.setClean b _) rfl rfl _
  rw [storePut_eq_withStore, hstore] at hreport
  exact hreport

theorem setHygiene_clean_same (b : BayId) (f : Hygiene → Hygiene) (s : State) :
    (setHygiene b f s).clean[b] = { s.clean[b] with hygiene := f s.clean[b].hygiene } := by
  rw [setHygiene_eq]
  exact upd_same _ _ _

theorem setHygiene_clean_other (b d : BayId) (f : Hygiene → Hygiene) (s : State) (h : d ≠ b) : (setHygiene b f s).clean[d] = s.clean[d] := by
  rw [setHygiene_eq]
  exact upd_other _ _ _ _ h

theorem setHygiene_handedOver (b : BayId) (f : Hygiene → Hygiene) (s : State) : HandedOver s (setHygiene b f s) (.hygiene b (f s.clean[b].hygiene)) := by
  unfold HandedOver
  rw [setHygiene_eq]

theorem setHygiene_conditions (b : BayId) (f : Hygiene → Hygiene) (s : State) :
    let h := f s.clean[b].hygiene
    condition (setHygiene b f s) b .detergentLow = detergentLow h ∧ condition (setHygiene b f s) b .rinseOwed = h.rinseOwed ∧
    condition (setHygiene b f s) b .cleanDue = cleanDue h := by
  have h := reportHygiene_conditions b (storePut (.hygiene b (f s.clean[b].hygiene)) (s.setClean b (fun c => { c with hygiene := f s.clean[b].hygiene })))
  have hc : (storePut (.hygiene b (f s.clean[b].hygiene)) (s.setClean b (fun c => { c with hygiene := f s.clean[b].hygiene }))).clean[b].hygiene =
      f s.clean[b].hygiene := by
    rw [storePut_eq_withStore]
    exact congrArg CleanBay.hygiene (upd_same s.clean b _)
  rw [hc] at h
  exact h

/-- Settles O45. -/
theorem setDetergentSetsTheLevel : Obligations.SetDetergentSetsTheLevel := by
  intro s w1 w2 b n hs hb hn
  have hserved : serveVerb .setDetergent [w1, w2] s =
      if n ≤ 250 then okay .setDetergent [bayTok b, .num n] (setHygiene b (fun h => { h with detergent := n }) s) else refuse .setDetergent .range s :=
    (withFields_pair hb hn s).trans (onBay_of_names rfl _ s)
  refine ⟨fun h => ?_, fun h => ?_⟩
  · rw [if_pos h] at hserved
    refine completes_of_answered (answered_of_served hs hserved) ?_
    obtain ⟨hlow, howed, hdue⟩ := setHygiene_conditions b (fun h => { h with detergent := n }) s
    have hsame := setHygiene_clean_same b (fun h => { h with detergent := n }) s
    have hother := fun d hd => setHygiene_clean_other b d (fun h => { h with detergent := n }) s hd
    have hwritten := setHygiene_handedOver b (fun h => { h with detergent := n }) s
    have heq := setHygiene_eq b (fun h => { h with detergent := n }) s
    generalize setHygiene b (fun h => { h with detergent := n }) s = t at *
    exact ⟨hsame, hwritten, hlow, howed, hdue, hother, by rw [heq]; rfl, rfl⟩
  · rw [if_neg (not_le.mpr h)] at hserved
    exact answered_of_served hs hserved

/-! ## Clamped settings -/

theorem clampTo_eq {lo hi : Nat} (h : lo ≤ hi) (n : Nat) : clampTo lo n hi = if n < lo then lo else if hi < n then hi else n := by
  unfold clampTo
  split
  · omega
  · split <;> omega

/-! ## What a recompute leaves alone -/

/-- What a recompute may change, and nothing else. -/
def Parts.shared : Parts := { shares := True, line := fun _ => True }

theorem recompute_shared (s : State) : Touches .shared s (recompute s) := (Touches.refl s).recompute ⟨trivial, fun _ => trivial⟩

theorem recompute_run (s : State) (b : BayId) : (recompute s).runs.runs[b] = s.runs.runs[b] := (recompute_shared s).run b id

theorem recompute_record (s : State) (b : BayId) : (recompute s).clean[b].record = s.clean[b].record := (recompute_shared s).cleaning b id

/-! ## Runs -/

theorem liveRun_of_live {s : State} {b : BayId} {r : Run} (h : s.runs.runs[b] = some r) (hf : r.state.final = false) : liveRun s b = some r := by
  rw [liveRun, h]
  simp [hf]

theorem setRun_run (s : State) (b : BayId) (f : Run → Run) : (s.setRun b f).runs.runs[b] = (s.runs.runs[b]).map f := by
  rw [State.setRun_runs]
  exact upd_same _ _ _

/-- R85: a RUN-STEP notice makes its estimate the reported one. -/
theorem runStep_run (b : BayId) (e : String) (s : State) :
    (runStep b e s).runs.runs[b] = (s.runs.runs[b]).map (fun r => { r with reported := r.estimate }) := by
  unfold runStep
  split
  · next h => rw [h]; rfl
  · rw [((Touches.refl (m := {}) _).queueNotice _ _).run b id, setRun_run]

theorem tells_runStep {b : BayId} {s : State} {r : Run} (h : s.runs.runs[b] = some r) (e : String) :
    Tells s (runStep b e s) .runStep [bayTok b, .num r.id, .num r.stepIndex, wd e, optNum r.estimate] := by
  unfold runStep
  rw [h]
  exact (tells_queueNotice _ _ (s.setRun b _)).since ⟨rfl, rfl, List.prefix_rfl, id⟩

theorem runawayWatch_keeps (cabinet : Int) (sec : Nat) (r : Run) :
    runawayWatch cabinet sec r = { r with runawaySince := (runawayWatch cabinet sec r).runawaySince, runawayDue := (runawayWatch cabinet sec r).runawayDue } := by
  unfold runawayWatch
  split
  · split
    · split <;> rfl
    · rfl
  · rfl

/-- R76: what the door makes of a run. -/
theorem pauseRun_run (b : BayId) (s : State) : (pauseRun b s).runs.runs[b] = (s.runs.runs[b]).map (fun x =>
    { x with state := .paused, resume := x.state, graceDue := some (s.sec + s.runs.doorGrace), pausedAt := s.sec, elapsed := x.elapsed.stop s.now,
             reported := x.estimate }) := by
  rw [pauseRun, recompute_run, runStep_run, setRun_run, Option.map_map]
  rfl

theorem runRecord_of_on {s : State} {b : BayId} {r : Run} (h : s.runs.runs[b] = some r) (hf : r.state.final = false) {rep : Report} (hp : rep.power = .on) :
    runRecord b rep s = runDoor b r rep (s.setRun b (runawayWatch rep.cabinet s.sec)) := by
  simp [runRecord, liveRun_of_live h hf, hp]

/-! ## Cleanings -/

theorem liveClean_of_live {s : State} {b : BayId} {c : CleanRec} (h : s.clean[b].record = some c) (hf : c.state.final = false) : liveClean s b = some c := by
  rw [liveClean, h]
  simp [hf]

theorem setCleanRec_record (s : State) (b : BayId) (f : CleanRec → CleanRec) : (s.setCleanRec b f).clean[b].record = (s.clean[b].record).map f := by
  rw [State.setCleanRec, State.setClean_clean, upd_same]

/-- Where a change keeps what orders do not record, the cleaning is as before but for the id of its order. -/
theorem record_of_job {s t : State} {b : BayId} {c : CleanRec} (h : s.clean[b].record = some c)
    (hj : (t.clean[b].record).map CleanRec.job = (s.clean[b].record).map CleanRec.job) : ∃ id, t.clean[b].record = some { c with orderedId := id } := by
  rw [h, Option.map_some, Option.map_eq_some_iff] at hj
  obtain ⟨x, hx, hj⟩ := hj
  refine ⟨x.orderedId, hx.trans (congrArg some ?_)⟩
  cases x
  cases c
  simp only [CleanRec.job, CleanRec.mk.injEq] at hj ⊢
  simp [hj]

/-- R121: what the entry to a phase makes of the cleaning. -/
theorem enterPhase_record {s : State} {b : BayId} {c : CleanRec} (h : liveClean s b = some c) (st : CleanState) : ∃ id,
    (enterPhase b st s).clean[b].record =
      some { c with state := st, orderedId := id, accepted := false, complete := false, phaseTime := .zero, overrunAt := none } := by
  obtain ⟨i, hi⟩ := record_of_job (liveClean_eq_some h).1 ((withdrawPhase_orders b s).cleanEnd b id)
  obtain ⟨j, hj⟩ := record_of_job (t := enterPhase b st s) (c := { c with state := st, orderedId := none, accepted := false, complete := false, phaseTime := .zero, overrunAt := none })
    (s := (withdrawPhase b s).setCleanRec b (fun x =>
      { x with state := st, orderedId := none, accepted := false, complete := false, phaseTime := .zero, overrunAt := none }))
    (by rw [setCleanRec_record, hi]; rfl)
    (by
      rw [enterPhase, h]
      exact ((Touches.refl (m := .orders b) _).placePhase rfl rfl _).cleanEnd b id)
  exact ⟨j, hj⟩

theorem enterPhase_runs_site (b : BayId) (st : CleanState) (s : State) : (enterPhase b st s).runs.doorGrace = s.runs.doorGrace ∧ (enterPhase b st s).now = s.now :=
  have h : Changes s (enterPhase b st s) := (Touches.refl s).enterPhase (Parts.all_cleanWork b) st
  ⟨h.runSite, h.now⟩

/-- R124: what a forced rinse makes of the cleaning. -/
theorem forceRinse_record {s : State} {b : BayId} {c : CleanRec} (h : liveClean s b = some c) (o : CleanOutcome) (r : CleanReason) : ∃ id,
    (forceRinse b o r s).clean[b].record = some { c with forced := some (o, r), state := .rinsing, orderedId := id, accepted := false, complete := false,
                                                         phaseTime := .zero, overrunAt := none } := by
  obtain ⟨hrec, hfin⟩ := liveClean_eq_some h
  have hforced : liveClean (s.setCleanRec b (fun c => { c with forced := some (o, r) })) b = some { c with forced := some (o, r) } :=
    liveClean_of_live (by rw [setCleanRec_record, hrec]; rfl) hfin
  obtain ⟨id, hid⟩ := enterPhase_record hforced .rinsing
  exact ⟨id, by rw [forceRinse, recompute_record, hid]⟩

/-- The state with the dose baseline of a bay. -/
def based (b : BayId) (n : Nat) (s : State) : State := s.setClean b (fun c => { c with baseline := some n })

theorem based_clean (b : BayId) (n : Nat) (s : State) : (based b n s).clean[b] = { s.clean[b] with baseline := some n } := by
  rw [based, State.setClean_clean, upd_same]

theorem takeDoses_of_none {s : State} {b : BayId} (h : s.clean[b].baseline = none) (n : Nat) : takeDoses b n s = based b n s := by
  unfold takeDoses
  rw [h]
  rfl

theorem takeDoses_of_still {s : State} {b : BayId} {old n : Nat} (h : s.clean[b].baseline = some old) (hg : doseGrowth old n = 0) :
    takeDoses b n s = based b n s := by
  unfold takeDoses
  rw [h]
  exact if_pos hg

/-- R123: the doses of a cleaning after a growth. -/
def CleanRec.dosed (c : CleanRec) (g : Nat) : CleanRec :=
  { c with dosesSeen := dosesAfter c.dosesSeen g, dispensed := c.dispensed || decide (c.state = .washing) }

/-- R123: the hygiene record after a growth. -/
def Hygiene.dosed (h : Hygiene) (g : Nat) : Hygiene := { h with detergent := h.detergent - g, rinseOwed := true }

theorem takeDoses_of_growth {s : State} {b : BayId} {old n : Nat} (h : s.clean[b].baseline = some old) (hg : doseGrowth old n ≠ 0) :
    takeDoses b n s = setHygiene b (fun x => x.dosed (doseGrowth old n))
      (if (liveClean s b).isSome then (based b n s).setCleanRec b (fun c => c.dosed (doseGrowth old n)) else based b n s) := by
  unfold takeDoses
  rw [h]
  exact if_neg hg

/-- R123: what a dose counter makes of the cleaning record. -/
theorem takeDoses_record (b : BayId) (n : Nat) (s : State) : ∃ (seen : CleanRec → Nat) (dispensed : CleanRec → Bool), (takeDoses b n s).clean[b].record =
    (s.clean[b].record).map (fun c => { c with dosesSeen := seen c, dispensed := dispensed c }) := by
  have hid : ∀ o : Option CleanRec, o = o.map (fun c => { c with dosesSeen := c.dosesSeen, dispensed := c.dispensed }) := fun o => by simp
  have hsame : ∀ t : State, t.clean[b].record = s.clean[b].record → ∃ (seen : CleanRec → Nat) (dispensed : CleanRec → Bool), t.clean[b].record =
      (s.clean[b].record).map (fun c => { c with dosesSeen := seen c, dispensed := dispensed c }) := fun t ht =>
    ⟨CleanRec.dosesSeen, CleanRec.dispensed, ht.trans (hid _)⟩
  have hbased : (based b n s).clean[b].record = s.clean[b].record := by rw [based_clean]
  cases hb : s.clean[b].baseline with
  | none =>
    rw [takeDoses_of_none hb]
    exact hsame _ hbased
  | some old =>
    by_cases hg : doseGrowth old n = 0
    · rw [takeDoses_of_still hb hg]
      exact hsame _ hbased
    · rw [takeDoses_of_growth hb hg, setHygiene_clean_same]
      dsimp only
      split
      · rw [setCleanRec_record, hbased]
        exact ⟨fun c => (c.dosed (doseGrowth old n)).dosesSeen, fun c => (c.dosed (doseGrowth old n)).dispensed, rfl⟩
      · exact hsame _ hbased

/-- A cleaning of a record with no power OFF, past REQUESTED. -/
theorem cleanRecord_of_on {s : State} {b : BayId} {rep : Report} {c : CleanRec} (hlive : liveClean (takeDoses b rep.dose s) b = some c)
    (hreq : c.state ≠ .requested) (hon : rep.power = .on) : cleanRecord b rep s = cleanProgress b rep.cabinet
      ((cleanFault b rep.fault c (takeDoses b rep.dose s)).setCleanRec b
        (fun x => (x.note rep.complete).door rep.doorOpen s.now (s.sec + s.runs.doorGrace))) := by
  unfold cleanRecord
  simp only [hlive, hon, hreq, if_false, reduceCtorEq]

/-- R120, R121: nothing ends while the door pauses the cleaning. -/
theorem cleanProgress_of_paused {s : State} {b : BayId} {c : CleanRec} (h : s.clean[b].record = some c) (hp : c.paused = true) (z : Int) :
    cleanProgress b z s = s := by
  unfold cleanProgress
  split
  · rfl
  · next x hx =>
    obtain ⟨hx, -⟩ := liveClean_eq_some hx
    obtain rfl : c = x := Option.some.inj (h.symm.trans hx)
    simp [CleanRec.phaseOver, hp]

/-- R124: a fault of a record leaves the pause of a cleaning as it was. -/
theorem cleanFault_pause {s : State} {b : BayId} {c : CleanRec} (h : liveClean s b = some c) (fault : Nat) :
    ∃ x, (cleanFault b fault c s).clean[b].record = some x ∧ x.paused = c.paused ∧ x.graceDue = c.graceDue := by
  obtain ⟨hrec, hfin⟩ := liveClean_eq_some h
  unfold cleanFault
  split
  · have hreported : liveClean (report b .cleanFailed s) b = some c :=
      liveClean_of_live ((((Touches.refl (m := .alarm b) s).report (Parts.alarm_alarm b) _).cleaning b id).trans hrec) hfin
    obtain ⟨id, hid⟩ := forceRinse_record hreported .failed .doseFailure
    exact ⟨_, hid, rfl, rfl⟩
  · exact ⟨c, hrec, rfl, rfl⟩

theorem CleanRec.note_pause (c : CleanRec) (complete : Bool) : (c.note complete).paused = c.paused ∧ (c.note complete).graceDue = c.graceDue := by
  unfold CleanRec.note
  split <;> exact ⟨rfl, rfl⟩

/-- R126: the door of a record pauses a cleaning, which nothing then moves on. -/
theorem cleanRecord_of_open {s : State} {b : BayId} {c : CleanRec} (h : s.clean[b].record = some c) (hf : c.state.final = false)
    (hreq : c.state ≠ .requested) {rep : Report} (hopen : rep.doorOpen = true) (hon : rep.power = .on) :
    ∃ x, (cleanRecord b rep s).clean[b].record = some x ∧ x.paused = true ∧
      x.graceDue = if c.paused then c.graceDue else some (s.now / 1000 + s.runs.doorGrace) := by
  obtain ⟨seen, dispensed, hdoses⟩ := takeDoses_record b rep.dose s
  rw [h, Option.map_some] at hdoses
  have hlive := liveClean_of_live hdoses hf
  obtain ⟨x, hx, hpaused, hgrace⟩ := cleanFault_pause hlive rep.fault
  obtain ⟨hnp, hng⟩ := x.note_pause rep.complete
  have hdoor := setCleanRec_record (cleanFault b rep.fault { c with dosesSeen := seen c, dispensed := dispensed c } (takeDoses b rep.dose s)) b
    (fun x => (x.note rep.complete).door rep.doorOpen s.now (s.sec + s.runs.doorGrace))
  rw [hx, Option.map_some, hopen] at hdoor
  have hshut : ((x.note rep.complete).door true s.now (s.sec + s.runs.doorGrace)).paused = true ∧
      ((x.note rep.complete).door true s.now (s.sec + s.runs.doorGrace)).graceDue = if c.paused then c.graceDue else some (s.now / 1000 + s.runs.doorGrace) := by
    unfold CleanRec.door
    rw [if_pos rfl, hnp, hpaused]
    split
    · exact ⟨hnp.trans (hpaused.trans ‹_›), hng.trans hgrace⟩
    · exact ⟨rfl, rfl⟩
  refine ⟨_, ?_, hshut⟩
  rw [cleanRecord_of_on hlive hreq hon, hopen, cleanProgress_of_paused hdoor hshut.1, hdoor]

/-! ## The door grace -/

theorem setDoorGrace_served {w : Txt} {n : Nat} (h : number w = some n) (s : State) : serveVerb .setDoorGrace [w] s =
    okay .setDoorGrace [.num (clampTo 30 n 900)] (storeSite { s with runs := { s.runs with doorGrace := clampTo 30 n 900 } }) := by
  show serveSetDoorGrace [w] s = _
  unfold serveSetDoorGrace
  rw [withFields_single h]

/-- Settles O34. -/
theorem doorGraceLoadsTheNextPause : Obligations.DoorGraceLoadsTheNextPause := by
  refine ⟨rfl, fun s w n hs hn => ?_, fun s b rep hopen hon => ⟨fun r hr => ⟨fun hst => ?_, fun hst => ?_⟩, fun c hc hf hreq => ⟨fun hp => ?_, fun hp => ?_⟩⟩⟩
  · dsimp only
    rw [← clampTo_eq (by decide)]
    refine completes_of_answered (answered_of_served hs (setDoorGrace_served hn s)) ?_
    have hstore : (storePut (.site s.heat.limit (clampTo 30 n 900) s.heat.idleTime) { s with runs := { s.runs with doorGrace := clampTo 30 n 900 } }).store =
        (storePut (.site s.heat.limit (clampTo 30 n 900) s.heat.idleTime) s).store :=
      storePut_store_congr (s := s) (t := { s with runs := { s.runs with doorGrace := clampTo 30 n 900 } }) rfl rfl _
    rw [storeSite, storePut_eq_withStore]
    exact ⟨rfl, rfl, hstore, rfl, rfl⟩
  · have hlive : r.state.final = false := by rcases hst with h | h <;> rw [h] <;> rfl
    have hpause : runRecord b rep s = pauseRun b (s.setRun b (runawayWatch rep.cabinet s.sec)) := by
      rw [runRecord_of_on hr hlive hon]
      rcases hst with h | h <;> simp [runDoor, h, hopen]
    rw [hpause, pauseRun_run, setRun_run, hr]
    exact ⟨_, rfl, rfl, rfl⟩
  · have hsame : runRecord b rep s = s.setRun b (runawayWatch rep.cabinet s.sec) := by
      rw [runRecord_of_on hr (by rw [hst]; rfl) hon]
      simp [runDoor, hst, hopen]
    rw [hsame, setRun_run, hr]
    refine ⟨_, rfl, ?_, ?_⟩
    · rw [runawayWatch_keeps]
      exact hst
    · rw [runawayWatch_keeps]
  · obtain ⟨x, hx, hxp, hxg⟩ := cleanRecord_of_open hc hf hreq hopen hon
    exact ⟨x, hx, hxp, by rw [hxg, hp]; rfl⟩
  · obtain ⟨x, hx, hxp, hxg⟩ := cleanRecord_of_open hc hf hreq hopen hon
    exact ⟨x, hx, hxp, by rw [hxg, hp]; rfl⟩

end Sys2Proof.Machine


/-! PROOF. The Allocator's settings and its two deadlines (O38), WAKE (O39), and the clock with its rule (O46). -/

namespace Sys2Proof.Machine

set_option Elab.async false

open Sys2Proof

/-! ## The Allocator's deadlines -/

theorem reached_some {d now : Nat} (h : d ≤ now) : reached (some d) now = true := decide_eq_true h

/-- R106: an expiry reports starvation once for its stretch. -/
theorem starvationExpires_eq {s : State} {b : BayId} {d : Nat} (h : s.heat.bays[b].starveDue = some d) (hd : d ≤ s.now / 1000) :
    starvationExpires b s = (report b .starved s).setHeat b (fun h => { h with starvedReported := true, starveDue := none }) := by
  unfold starvationExpires
  rw [h]
  exact if_pos (reached_some hd)

theorem report_heat (b : BayId) (k : EventKind) (s : State) : (report b k s).heat = s.heat := by
  rw [show report b k s = _ from latch_monitorOnly b k false s]

/-- R109: standby is ordered where no condition fails. -/
theorem examineStandby_of_none {s : State} {b : BayId} (h : standbyFails s b = none) : examineStandby b s =
    placeOrder b (.power true) .plain (s.setHeat b (fun h => { h with standbyRequested := true })) := by
  unfold examineStandby
  rw [h]

theorem examineStandby_of_some {s : State} {b : BayId} {x : String} (h : standbyFails s b = some x) : examineStandby b s = s := by
  unfold examineStandby
  rw [h]

theorem ready_of_standby {s : State} {b : BayId} (h : standbyFails s b = none) : s.reg[b].state = .ready := by
  rw [standbyFails, Option.map_eq_none_iff, List.find?_eq_none] at h
  have := h ("STATE", decide (s.reg[b].state = .ready)) (by rw [standbyConditions]; exact List.mem_cons_self)
  simpa [-Fin.getElem_fin] using this

theorem idleExpires_of_reached {s : State} {b : BayId} {d : Nat} (h : s.heat.bays[b].idleRef = some d) (hd : d + s.heat.idleTime * 60 ≤ s.now / 1000) :
    idleExpires b s = examineStandby b s := by
  unfold idleExpires idleDeadline
  rw [h, Option.map_some]
  exact if_pos (reached_some hd)

/-! ## The Allocator's settings -/

theorem setLimit_served {w : Txt} {n : Nat} (h : powerField w = some n) (s : State) : serveVerb .setLimit [w] s =
    okay .setLimit [.tenths (clampTo 50 n 4000)] (recompute (storeSite { s with heat := { s.heat with limit := clampTo 50 n 4000 } })) := by
  show serveSetLimit [w] s = _
  unfold serveSetLimit
  rw [withFields_single h]

theorem setStandbyIdle_served {w : Txt} {n : Nat} (h : number w = some n) (s : State) : serveVerb .setStandbyIdle [w] s =
    okay .setStandbyIdle [.num (clampTo 5 n 240)]
      ((storeSite { s with heat := { s.heat with idleTime := clampTo 5 n 240 } }).each allBays examineStandby) := by
  show serveSetStandbyIdle [w] s = _
  unfold serveSetStandbyIdle
  rw [withFields_single h]

/-- What the examinations of the standby conditions may change. -/
def Parts.idling : Parts := { heat := fun _ => True, line := fun _ => True }

/-- Settles O38. -/
theorem starvationAndIdleDeadlinesAct : Obligations.StarvationAndIdleDeadlinesAct := by
  refine ⟨fun s w n hs => ⟨fun hn => ?_, fun hn => ?_⟩, fun s b d hrun => ⟨fun hdue hd => ?_, fun href hd hfails hq => ?_⟩⟩
  · dsimp only
    rw [← clampTo_eq (by decide)]
    exact answered_of_served hs (setLimit_served hn s)
  · dsimp only
    rw [← clampTo_eq (by decide)]
    refine completes_of_answered (answered_of_served hs (setStandbyIdle_served hn s)) ?_
    have htouch := Touches.each (m := .idling) (s := storeSite { s with heat := { s.heat with idleTime := clampTo 5 n 240 } }) allBays examineStandby
      (fun b _ u => (Touches.refl u).examineStandby trivial trivial) (.refl _)
    have hheat := htouch.heatSite
    have hstore := htouch.store id
    generalize (storeSite { s with heat := { s.heat with idleTime := clampTo 5 n 240 } }).each allBays examineStandby = t at hheat hstore ⊢
    rw [storeSite, storePut_eq_withStore] at hheat hstore
    have hput : (storePut (.site s.heat.limit s.runs.doorGrace (clampTo 5 n 240)) { s with heat := { s.heat with idleTime := clampTo 5 n 240 } }).store =
        (storePut (.site s.heat.limit s.runs.doorGrace (clampTo 5 n 240)) s).store :=
      storePut_store_congr (s := s) (t := { s with heat := { s.heat with idleTime := clampTo 5 n 240 } }) rfl rfl _
    exact ⟨show t.heat.idleTime = _ by rw [hheat], show t.heat.limit = _ by rw [hheat], hstore.trans hput, rfl⟩
  · refine completes_event (g := starvationExpires b) (by rw [hrun]; decide) rfl fun tx sent => ?_
    rw [starvationExpires_eq hdue hd]
    refine ⟨?_, report_sets b .starved s⟩
    show (upd (report b .starved s).heat.bays b _)[b] = _
    rw [report_heat, upd_same]
  · refine completes_event (g := idleExpires b) (by rw [hrun]; decide) rfl fun tx sent => ?_
    rw [idleExpires_of_reached href hd, examineStandby_of_none hfails]
    have hready := ready_of_standby hfails
    have hqueue := placeOrder_joins_queue (s := s.setHeat b (fun h => { h with standbyRequested := true })) (b := b) (body := .power true)
      (takesOrders_of_ready hready) (by rw [State.setHeat_line, hq]; decide) (by rw [State.setHeat_line, hq]; decide) .plain
    rw [State.setHeat_line, hq] at hqueue
    refine ⟨?_, ?_⟩
    · show (placeOrder b _ _ _).heat.bays[b].standbyRequested = true
      rw [placeOrder_heat, State.setHeat_heat, upd_same]
    · show ((placeOrder b _ _ _).line.bays[b].queue).map Order.body = _
      rw [hqueue]
      rfl

/-! ## WAKE -/

theorem wake_served {w : Txt} {n : Nat} (h : number w = some n) (s : State) : serveVerb .wake [w] s =
    onBay .wake n (fun b s => if s.reg[b].state = .ready then okay .wake [bayTok b, wd (wakeWord s b)] (wakeCause b s) else refuse .wake .state s) s := by
  show serveWake [w] s = _
  unfold serveWake
  rw [withFields_single h]

theorem wakes_of_ready {s : State} {b : BayId} (h : s.reg[b].state = .ready) :
    wakes s b = true ↔ s.reg[b].power = .standby ∨ s.reg[b].power = .on ∧ s.heat.bays[b].standbyRequested = true := by
  unfold wakes
  dsimp only
  rw [h]
  cases s.reg[b].power <;> simp

theorem wakeCause_line_of_not_wakes {s : State} {b : BayId} (h : ¬ wakes s b = true) : (wakeCause b s).line = s.line := by
  rw [wakeCause_of_not_wakes h]
  rfl

/-- Settles O39. -/
theorem wakeAnswersWhatItPlaced : Obligations.WakeAnswersWhatItPlaced := by
  intro s w n hs hn
  refine ⟨fun hout => ?_, fun b hb => ⟨fun hst => ?_, fun hst => ?_⟩⟩
  · refine answered_of_served hs ((wake_served hn s).trans ?_)
    exact onBay_outside hout .wake _ s
  · refine answered_of_served hs ((wake_served hn s).trans ((onBay_of_names hb _ s).trans (if_neg hst)))
  · refine completes_of_answered (answered_of_served hs ((wake_served hn s).trans ((onBay_of_names hb _ s).trans (if_pos hst)))) ?_
    have hw := wakes_of_ready hst
    refine ⟨congrArg HeatBay.idleRef (wakeCause_heat b s), fun hoff => ?_, fun hon hreq => ?_, fun hyes => ?_⟩
    · have hnot : ¬ wakes s b = true := by rw [hw, hoff]; simp
      exact ⟨by simp [replying, wakeWord, -Fin.getElem_fin, hnot, hoff], wakeCause_line_of_not_wakes hnot⟩
    · have hnot : ¬ wakes s b = true := by rw [hw, hon, hreq]; simp
      exact ⟨by simp [replying, wakeWord, -Fin.getElem_fin, hnot, hon], wakeCause_line_of_not_wakes hnot⟩
    · have hyes := hw.2 hyes
      refine ⟨by simp [replying, wakeWord, hyes], ?_, wakeCause_orders hyes⟩
      show (wakeCause b s).heat.bays[b].standbyRequested = false
      rw [wakeCause_heat, hyes]
      simp

/-! ## The clock -/

theorem lookAheadAll_touches (s : State) : Touches .idling s (lookAheadAll s) := (Touches.refl s).lookAheadAll (fun _ => trivial) fun _ => trivial

theorem updateClock_clock (s : State) : (updateClock s).clock = s.clock.update := by
  unfold updateClock
  dsimp only
  split
  · exact ((Touches.refl (m := .all) _).minuteBoundary Parts.all_windows).clock
  · rfl

theorem updateClock_of_second {s : State} (h : s.clock.update.cal.second ≠ 0) : updateClock s = { s with clock := s.clock.update } := by
  unfold updateClock
  exact if_neg fun hc => h hc.2

theorem setClock_served {f : List Txt} {c : Calendar} {dst : Bool} (h : parseClock f = some (c, some dst)) (hok : calendarOk c = true) (s : State) :
    serveVerb .setClock f s = okay .setClock (calendarToks c ++ [.yn dst]) (setCalendar c dst s) := by
  show serveSetClock f s = _
  unfold serveSetClock
  rw [withFields_of_parse h]
  exact if_pos hok

theorem setDst_served {f : List Txt} {r : DstRule} (h : parseDst f = some (some r)) (hok : dstOk r = true) (s : State) :
    serveVerb .setDst f s = okay .setDst (dstToks r) (setRule r s) := by
  show serveSetDst f s = _
  unfold serveSetDst
  rw [withFields_of_parse h]
  exact if_pos hok

/-- R136: the calendar is set as it is given. -/
theorem setCalendar_clock (c : Calendar) (dst : Bool) (s : State) :
    (setCalendar c dst s).clock = { s.clock with cal := c, inDst := dst, secondPass := false, valid := true, divider := 0 } ∧
    (setCalendar c dst s).now = s.now := by
  have h := lookAheadAll_touches { s with clock := { s.clock with cal := c, inDst := dst, secondPass := false, valid := true, divider := 0 } }
  exact ⟨h.clock, h.now⟩

/-- R138: the rule is set; where it is disabled no transition is under way. -/
theorem setRule_clock (r : DstRule) (s : State) : (setRule r s).clock = settleDst { s.clock with rule := r } := by
  rw [setRule, (lookAheadAll_touches _).clock, storePut_eq_withStore]

theorem settleDst_facts (c : Backup) : (settleDst c).rule = c.rule ∧ (settleDst c).cal = c.cal ∧
    (c.rule.enabled = false → (settleDst c).inDst = false ∧ (settleDst c).secondPass = false) := by
  unfold settleDst
  split
  · next h => exact ⟨rfl, rfl, fun hf => absurd (hf.symm.trans h) (by decide)⟩
  · exact ⟨rfl, rfl, fun _ => ⟨rfl, rfl⟩⟩

theorem setRule_handedOver (r : DstRule) (s : State) : HandedOver s (setRule r s) (.dst r) := by
  unfold HandedOver
  rw [setRule, (lookAheadAll_touches _).store id]
  exact storePut_store_congr (s := s) (t := { s with clock := settleDst { s.clock with rule := r } }) rfl rfl _

theorem Backup.update_of_end {b : Backup} (h : b.cal.next = none) :
    b.update = { b with cal := .initial, valid := false, inDst := false, secondPass := false, divider := 0 } := by
  unfold Backup.update
  rw [h]

/-- Settles O46. -/
theorem clockIsUpdatedAndSet : Obligations.ClockIsUpdatedAndSet := by
  refine ⟨fun c hok => ⟨fun d hd => next_ok hok hd, next_eq_none_iff hok⟩, fun b hb => ?_, fun s => ⟨?_, fun f c dst hs hf hok => ?_, fun f r hs hf hok => ?_⟩⟩
  · rw [Backup.update_of_end hb]
    exact ⟨rfl, rfl, rfl, rfl⟩
  · refine ⟨_, rfl, ?_⟩
    have hpump := pump_sameButSending (updateClock s)
    unfold SameButSending at hpump
    generalize pump (updateClock s) = t at hpump
    have hclock : t.clock = s.clock.update := by rw [hpump]; exact updateClock_clock s
    refine ⟨hclock, fun hsec => ?_⟩
    rw [updateClock_of_second hsec] at hpump
    rw [hpump]
  · refine completes_of_answered (answered_of_served hs (setClock_served hf hok s)) ?_
    obtain ⟨hclock, hnow⟩ := setCalendar_clock c dst s
    generalize setCalendar c dst s = t at hclock hnow
    exact ⟨hclock, hnow, rfl⟩
  · refine completes_of_answered (answered_of_served hs (setDst_served hf hok s)) ?_
    obtain ⟨hrule, hcal, hdst⟩ := settleDst_facts { s.clock with rule := r }
    rw [← setRule_clock] at hrule hcal hdst
    have hwritten := setRule_handedOver r s
    generalize setRule r s = t at hrule hcal hdst hwritten
    exact ⟨hrule, hcal, hdst, hwritten, rfl⟩

end Sys2Proof.Machine


/-! PROOF. The Probe Arithmetic Unit with the soil of a run (O36), and the checks of claims, admissions and cleanings (O35). -/

namespace Sys2Proof.Machine

set_option Elab.async false

open Sys2Proof

/-! ## The stages as arithmetic -/

theorem tdiv_of_nonneg {n q : Int} {d : Nat} (hn : 0 ≤ n) (h1 : q * d ≤ n) (h2 : n < (q + 1) * d) : n.tdiv d = q := by
  have hd : (0 : Int) < d := by
    rcases Nat.eq_zero_or_pos d with rfl | hd
    · simp at h1 h2; omega
    · exact_mod_cast hd
  rw [Int.tdiv_eq_ediv_of_nonneg hn]
  exact Int.le_antisymm (Int.lt_add_one_iff.1 (Int.ediv_lt_of_lt_mul hd h2)) (Int.le_ediv_of_mul_le hd h1)

theorem tdiv_of_nonpos {n q : Int} {d : Nat} (hn : n ≤ 0) (h1 : n ≤ q * d) (h2 : (q - 1) * d < n) : n.tdiv d = q := by
  have h := tdiv_of_nonneg (n := -n) (q := -q) (d := d) (by omega) (by linarith) (by linarith)
  rw [Int.neg_tdiv] at h
  omega

theorem effectiveCore_eq_some_iff {l : List Int} {z : Int} :
    effectiveCore l = some z ↔ z ∈ l ∧ -200 ≤ z ∧ z ≤ 1300 ∧ ∀ y ∈ l, -200 ≤ y → y ≤ 1300 → z ≤ y := by
  have hvalid : ∀ y : Int, coreValid y = true ↔ -200 ≤ y ∧ y ≤ 1300 := fun y => by simp [coreValid, withinT]
  rw [effectiveCore, List.min?_eq_some_iff]
  simp only [List.mem_filter, hvalid]
  constructor
  · rintro ⟨⟨hz, h1, h2⟩, hall⟩
    exact ⟨hz, h1, h2, fun y hy h3 h4 => hall y ⟨hy, h3, h4⟩⟩
  · rintro ⟨hz, h1, h2, hall⟩
    exact ⟨⟨hz, h1, h2⟩, fun y hy => hall y hy.1 hy.2.1 hy.2.2⟩

theorem creditAfter_of_below {credit dt : Nat} {core base : Int} (h : core < base) : creditAfter credit core base dt = credit :=
  if_neg (not_le.mpr h)

theorem creditAfter_of_above {credit dt k : Nat} {core base : Int} (h : base ≤ core) (h1 : (k : Int) * 1000 ≤ (core - base) * dt)
    (h2 : (core - base) * dt < (k + 1 : Int) * 1000) : creditAfter credit core base dt = min (credit + k) 1000000 := by
  have hprod : (((core - base).toNat * dt : Nat) : Int) = (core - base) * dt := by
    rw [Nat.cast_mul, Int.toNat_of_nonneg (by omega)]
  have hk : (core - base).toNat * dt / 1000 = k := by omega
  rw [creditAfter, if_pos h, hk]

theorem creditAfter_range {credit dt : Nat} {core base : Int} (hc : credit ≤ 1000000) :
    credit ≤ creditAfter credit core base dt ∧ creditAfter credit core base dt ≤ 1000000 := by
  unfold creditAfter
  split
  · exact ⟨le_min (Nat.le_add_right _ _) hc, min_le_right _ _⟩
  · exact ⟨le_rfl, hc⟩

theorem rateSample_of_rising {core prev q : Int} {dt : Nat} (hn : 0 ≤ (core - prev) * 100000) (h1 : q * dt ≤ (core - prev) * 100000)
    (h2 : (core - prev) * 100000 < (q + 1) * dt) : rateSample core prev dt = min q 5000 := by
  have hq : 0 ≤ q := by
    by_contra hneg
    have := mul_nonpos_of_nonpos_of_nonneg (show q + 1 ≤ 0 by omega) (Int.natCast_nonneg dt)
    linarith
  rw [rateSample, tdiv_of_nonneg hn h1 h2, clampInt]
  omega

theorem rateSample_of_falling {core prev q : Int} {dt : Nat} (hn : (core - prev) * 100000 ≤ 0) (h1 : (core - prev) * 100000 ≤ q * dt)
    (h2 : (q - 1) * dt < (core - prev) * 100000) : rateSample core prev dt = max q (-5000) := by
  have hq : q ≤ 0 := by
    by_contra hpos
    have := mul_nonneg (show 0 ≤ q - 1 by omega) (Int.natCast_nonneg dt)
    linarith
  rw [rateSample, tdiv_of_nonpos hn h1 h2, clampInt]
  omega

theorem smoothRate_of_rising {r x m : Int} (h : r ≤ x) (h1 : 8 * m ≤ x - r) (h2 : x - r < 8 * m + 8) : smoothRate (some r) x = r + m := by
  have := tdiv_of_nonneg (n := x - r) (q := m) (d := 8) (by omega) (by omega) (by omega)
  exact congrArg (r + ·) this

theorem smoothRate_of_falling {r x m : Int} (h : x ≤ r) (h1 : x - r ≤ 8 * m) (h2 : 8 * m - 8 < x - r) : smoothRate (some r) x = r + m := by
  have := tdiv_of_nonpos (n := x - r) (q := m) (d := 8) (by omega) (by omega) (by omega)
  exact congrArg (r + ·) this

theorem divUp_eq {a b n : Nat} (hb : 0 < b) (h1 : a ≤ n * b) (h2 : n * b < a + b) : divUp a b = n := by
  rw [divUp]
  refine Nat.div_eq_of_lt_le (by omega) ?_
  rw [Nat.add_mul]
  omega

theorem corePart_of_reached {core target : Int} (h : target ≤ core) (rate : Option Int) : corePart core target rate = some 0 := if_pos h

theorem corePart_of_still {core target : Int} {rate : Option Int} (h : core < target) (hr : ∀ r, rate = some r → r ≤ 0) : corePart core target rate = none := by
  unfold corePart
  rw [if_neg (not_le.mpr h)]
  split
  · next r => exact if_neg (not_lt.mpr (hr r rfl))
  · rfl

theorem corePart_of_rising {core target r : Int} {n : Nat} (h : core < target) (hr : 0 < r) (h1 : (target - core) * 100 ≤ n * r)
    (h2 : n * r < (target - core) * 100 + r) : corePart core target (some r) = some n := by
  have h100 : (((target - core) * 100).toNat : Int) = (target - core) * 100 := Int.toNat_of_nonneg (by omega)
  have hrn : ((r.toNat : Nat) : Int) = r := Int.toNat_of_nonneg hr.le
  simp only [corePart, if_neg (not_le.mpr h), if_pos hr]
  refine congrArg some (divUp_eq (by omega) ?_ ?_)
  · zify
    rw [h100, hrn]
    exact h1
  · zify
    rw [h100, hrn]
    exact h2

theorem holdPart_of_rising {core base : Int} {credit goal n : Nat} (hc : credit < goal) (hb : base < core)
    (h1 : (goal : Int) - credit ≤ n * (core - base)) (h2 : n * (core - base) < goal - credit + (core - base)) :
    holdPart core base credit goal = some n := by
  have hd : (((core - base).toNat : Nat) : Int) = core - base := Int.toNat_of_nonneg (by omega)
  have hg : ((goal - credit : Nat) : Int) = goal - credit := Nat.cast_sub hc.le
  rw [holdPart, if_neg (not_le.mpr hc), if_neg (not_le.mpr hb)]
  refine congrArg some (divUp_eq (by omega) ?_ ?_)
  · zify
    rw [hd, hg]
    exact h1
  · zify
    rw [hd, hg]
    exact h2

theorem deltaSetpoint_facts {core delta target ceiling : Int} (h : 300 ≤ min target ceiling) :
    let c := min target ceiling / 10
    let x := deltaSetpoint core delta target ceiling
    300 ≤ x ∧ x ≤ c * 10 ∧ (core + delta ≤ 300 → x = 300) ∧ (c * 10 ≤ core + delta → x = c * 10) ∧
    (∀ k : Int, 300 ≤ core + delta → core + delta ≤ c * 10 → 10 * k ≤ core + delta + 5 → core + delta + 5 < 10 * k + 10 → x = 10 * k) := by
  dsimp only
  unfold deltaSetpoint clampInt
  dsimp only
  generalize min target ceiling = m at h
  refine ⟨?_, ?_, ?_, ?_, ?_⟩ <;> omega

theorem estimateOf_coreHold (target base core : Int) (credit goal : Nat) (rate : Option Int) : estimateOf (.coreHold target base goal) core credit rate =
    match corePart core target rate, holdPart core base credit (goal * 600) with
    | some x, some y => some (min (max x y) 21600)
    | _, _ => none := rfl

/-! ## A call of the unit -/

/-- R94: what a setpoint sent makes of the run. -/
theorem sendSetpoint_run {s : State} {b : BayId} {r : Run} (h : s.runs.runs[b] = some r) (sp : Int) :
    (sendSetpoint b sp s).runs.runs[b] = some { r with setpoint := if 10 ≤ (sp - r.setpoint).natAbs then sp else r.setpoint } := by
  unfold sendSetpoint
  rw [h]
  dsimp only
  split
  · rw [placeOrder_eq_withLine]
    exact (setRun_run s b _).trans (by rw [h]; rfl)
  · exact h

theorem sendSetpoint_of_near {s : State} {b : BayId} {r : Run} (h : s.runs.runs[b] = some r) {sp : Int} (hsp : (sp - r.setpoint).natAbs < 10) :
    sendSetpoint b sp s = s := by
  unfold sendSetpoint
  rw [h]
  exact if_neg (not_le.mpr hsp)

theorem sendSetpoint_of_far {s : State} {b : BayId} {r : Run} (h : s.runs.runs[b] = some r) {sp : Int} (hsp : 10 ≤ (sp - r.setpoint).natAbs) :
    sendSetpoint b sp s = placeOrder b (.setpoint sp) .plain (s.setRun b (fun x => { x with setpoint := sp })) := by
  unfold sendSetpoint
  rw [h]
  exact if_pos hsp

theorem runStep_line (b : BayId) (e : String) (s : State) : (runStep b e s).line = s.line := by
  unfold runStep
  split
  · rfl
  · simp

theorem reportEstimate_line (b : BayId) (s : State) : (reportEstimate b s).line = s.line := by
  unfold reportEstimate
  split
  · split
    · exact runStep_line _ _ _
    · rfl
  · rfl

/-- R85: a report of the estimate changes what was reported alone. -/
theorem reportEstimate_run {s : State} {b : BayId} {r : Run} (h : s.runs.runs[b] = some r) :
    ∃ y, (reportEstimate b s).runs.runs[b] = some { r with reported := y } := by
  unfold reportEstimate
  rw [h]
  dsimp only
  split
  · exact ⟨r.estimate, (runStep_run b _ s).trans (by rw [h]; rfl)⟩
  · exact ⟨r.reported, h⟩

/-- R93, R94: the setpoint of a call, as sent. -/
def sent (b : BayId) (st : Step) (core : Int) (s : State) : State :=
  if st.control = .delta then sendSetpoint b (deltaSetpoint core st.delta st.target (ceilingOf s b)) (s.setRun b (fun r => r.measure st core s.now))
  else s.setRun b (fun r => r.measure st core s.now)

theorem probeCall_of_core {s : State} {b : BayId} {st : Step} {points : List Int} {core : Int} (hc : effectiveCore points = some core) :
    probeCall b st points s = reportEstimate b ((sent b st core s).setRun b (fun r => r.capture st core s.sec)) := by
  unfold probeCall
  rw [hc]
  rfl

/-- The setpoint of a run after a call. -/
def setpointAfter (s : State) (b : BayId) (st : Step) (core : Int) (r : Run) : Int :=
  if st.control = .delta ∧ 10 ≤ (deltaSetpoint core st.delta st.target (ceilingOf s b) - r.setpoint).natAbs then
    deltaSetpoint core st.delta st.target (ceilingOf s b)
  else r.setpoint

theorem sent_run {s : State} {b : BayId} {r : Run} (h : s.runs.runs[b] = some r) (st : Step) (core : Int) :
    (sent b st core s).runs.runs[b] = some { r.measure st core s.now with setpoint := setpointAfter s b st core r } := by
  have hm : (s.setRun b (fun r => r.measure st core s.now)).runs.runs[b] = some (r.measure st core s.now) := by rw [setRun_run, h]; rfl
  unfold sent setpointAfter
  by_cases hd : st.control = .delta
  · rw [if_pos hd, sendSetpoint_run hm]
    simp only [hd, true_and]
    rfl
  · rw [if_neg hd, if_neg (fun hc => hd hc.1), hm]
    rfl

theorem probeCall_run {s : State} {b : BayId} {r : Run} (h : s.runs.runs[b] = some r) {st : Step} {points : List Int} {core : Int}
    (hc : effectiveCore points = some core) : ∃ y, (probeCall b st points s).runs.runs[b] =
      some { ({ r.measure st core s.now with setpoint := setpointAfter s b st core r } : Run).capture st core s.sec with reported := y } := by
  rw [probeCall_of_core hc]
  refine reportEstimate_run ?_
  rw [setRun_run, sent_run h]
  rfl

theorem probeCall_line {s : State} {b : BayId} {st : Step} {points : List Int} {core : Int} (hc : effectiveCore points = some core) :
    (probeCall b st points s).line = (sent b st core s).line := by
  rw [probeCall_of_core hc, reportEstimate_line]
  rfl

theorem Run.capture_keeps (r : Run) (st : Step) (core : Int) (sec : Nat) :
    r.capture st core sec = { r with coreReached := (r.capture st core sec).coreReached } := by
  unfold Run.capture
  split <;> rfl

/-! ## What a call leaves of the run -/

theorem Run.capture_coreReached (r : Run) (st : Step) (core : Int) (sec : Nat) :
    (r.coreReached ≠ none → (r.capture st core sec).coreReached = r.coreReached) ∧
    (r.coreReached = none → (r.capture st core sec).coreReached =
      (match st.fin with
       | .time _ => none
       | .core target | .coreHold target _ _ => if target ≤ core then some sec else none)) := by
  refine ⟨fun h => ?_, fun h => ?_⟩
  · obtain ⟨x, hx⟩ := Option.ne_none_iff_exists'.1 h
    simp [Run.capture, hx]
  · unfold Run.capture
    cases st.fin with
    | time secs => simp [h, StepEnd.coreTarget]
    | core target => by_cases hc : target ≤ core <;> simp [h, StepEnd.coreTarget, hc]
    | coreHold target base goal => by_cases hc : target ≤ core <;> simp [h, StepEnd.coreTarget, hc]

/-- R90, R95-R97: the credit and the rate of a call with a previous sample. -/
theorem Run.measure_of_sample {r : Run} {p : Sample} (h : r.sample = some p) (st : Step) (core : Int) (now : Nat) :
    let gap := now - p.time
    let dt := if gap < 200 then 200 else if 10000 < gap then 10000 else gap
    (r.measure st core now).credit = (match st.fin with | .coreHold _ base _ => creditAfter r.credit core base dt | _ => r.credit) ∧
    (r.measure st core now).rate = (match st.fin with | .time _ => r.rate | _ => some (smoothRate r.rate (rateSample core p.core dt))) := by
  dsimp only
  rw [← clampTo_eq (by decide)]
  cases hfin : st.fin <;> simp [Run.measure, Run.creditFor, Run.rateFor, Run.interval, h, hfin, probeInterval]

theorem Run.measure_of_no_sample {r : Run} (h : r.sample = none) (st : Step) (core : Int) (now : Nat) :
    (r.measure st core now).credit = r.credit ∧ (r.measure st core now).rate = r.rate := by
  cases hfin : st.fin <;> simp [Run.measure, Run.creditFor, Run.rateFor, Run.interval, h, hfin]

/-- R88-R99: what a call with an effective core makes of the run. -/
theorem probeCall_measures {s : State} {b : BayId} {r : Run} {st : Step} {points : List Int} {core : Int} (h : s.runs.runs[b] = some r)
    (hc : effectiveCore points = some core) :
    let t := probeCall b st points s
    let sp := deltaSetpoint core st.delta st.target (ceilingOf s b)
    ∃ x, t.runs.runs[b] = some x ∧ x.estimate = estimateOf st.fin core x.credit x.rate ∧ x.sample = some { core := core, time := s.now } ∧
      (r.sample = none → x.credit = r.credit ∧ x.rate = r.rate) ∧
      (∀ p, r.sample = some p →
        let gap := s.now - p.time
        let dt := if gap < 200 then 200 else if 10000 < gap then 10000 else gap
        x.credit = (match st.fin with | .coreHold _ base _ => creditAfter r.credit core base dt | _ => r.credit) ∧
        x.rate = (match st.fin with | .time _ => r.rate | _ => some (smoothRate r.rate (rateSample core p.core dt)))) ∧
      (r.coreReached ≠ none → x.coreReached = r.coreReached) ∧
      (r.coreReached = none → x.coreReached =
        (match st.fin with
         | .time _ => none
         | .core target | .coreHold target _ _ => if target ≤ core then some (s.now / 1000) else none)) ∧
      (st.control = .fixed → x.setpoint = r.setpoint ∧ t.line = s.line) ∧
      (st.control = .delta → (sp - r.setpoint).natAbs < 10 → x.setpoint = r.setpoint ∧ t.line = s.line) ∧
      (st.control = .delta → 10 ≤ (sp - r.setpoint).natAbs → x.setpoint = sp ∧
        (s.reg[b].state = .ready → s.line.bays[b].queue.length < 6 → ∃ o ∈ t.line.bays[b].queue, o.body = .setpoint sp)) := by
  dsimp only
  obtain ⟨y, hy⟩ := probeCall_run h hc
  have hm : (s.setRun b (fun r => r.measure st core s.now)).runs.runs[b] = some (r.measure st core s.now) := by rw [setRun_run, h]; rfl
  rw [Run.capture_keeps] at hy
  have hcapture := ({ r.measure st core s.now with setpoint := setpointAfter s b st core r } : Run).capture_coreReached st core s.sec
  refine ⟨_, hy, rfl, rfl, fun hs => r.measure_of_no_sample hs st core s.now, fun p hp => r.measure_of_sample hp st core s.now, hcapture.1, hcapture.2,
    fun hfix => ?_, fun hd hnear => ?_, fun hd hfar => ⟨?_, fun hready hq => ?_⟩⟩
  · refine ⟨if_neg (by rw [hfix]; simp), ?_⟩
    rw [probeCall_line hc, sent, if_neg (by rw [hfix]; decide)]
    rfl
  · refine ⟨if_neg (fun hfar => absurd hfar.2 (not_le.mpr hnear)), ?_⟩
    rw [probeCall_line hc, sent, if_pos hd, sendSetpoint_of_near hm hnear]
    rfl
  · exact if_pos ⟨hd, hfar⟩
  · rw [probeCall_line hc, sent, if_pos hd, sendSetpoint_of_far hm hfar]
    refine exists_mem_placeOrder ?_ ?_ _ _
    · exact takesOrders_of_ready hready
    · exact hq

/-! ## The soil of a run -/

/-- R84: the cook minutes are the minutes begun. -/
theorem cookMinutes_of_begun {r : Run} {a z m : Nat} (ha : r.started = some a) (hz : r.ended = some z) (h1 : 60 * m < z - a - r.pauseTotal + 60)
    (h2 : z - a - r.pauseTotal ≤ 60 * m) : cookMinutes r = m := by
  simp only [cookMinutes, ha, hz]
  omega

theorem runSoil_of_not_started {r : Run} (h : r.started = none) : runSoil r = 0 := by simp [runSoil, cookMinutes, h]

/-- Settles O36. -/
theorem probeAndSoilArithmetic : Obligations.ProbeAndSoilArithmetic := by
  refine ⟨fun l z => effectiveCore_eq_some_iff, fun credit dt core base hc => ?_, fun core prev q dt _ => ?_, fun r x m => ?_, ?_, ?_, ?_, ?_, ?_, ?_⟩
  · exact ⟨creditAfter_of_below, (creditAfter_range hc).1, (creditAfter_range hc).2, fun hb k h1 h2 => creditAfter_of_above hb h1 h2⟩
  · exact ⟨rateSample_of_rising, rateSample_of_falling⟩
  · exact ⟨rfl, smoothRate_of_rising, smoothRate_of_falling⟩
  · exact fun core delta target ceiling h => deltaSetpoint_facts h
  · refine fun core target rate => ⟨fun h => corePart_of_reached h rate, fun h hr => corePart_of_still h hr, fun r n h hr hpos h1 h2 => ?_⟩
    subst hr
    exact corePart_of_rising h hpos h1 h2
  · refine fun core base credit goal => ⟨fun h => if_pos h, fun hc hb => ?_, fun n hc hb h1 h2 => holdPart_of_rising hc hb h1 h2⟩
    rw [holdPart, if_neg (not_le.mpr hc), if_pos hb]
  · intro core target base credit goal secs rate
    refine ⟨rfl, fun h => ?_, fun m h => ?_, fun h => ?_, fun m n hm hn => ?_⟩
    · simp [estimateOf, h]
    · simp [estimateOf, h]
    · rw [estimateOf_coreHold]
      rcases h with h | h
      · rw [h]
      · rw [h]
        split <;> simp_all
    · rw [estimateOf_coreHold, hm, hn]
  · exact fun s b r st points core h hc => probeCall_measures h hc
  · intro r a z m hz
    refine ⟨runSoil_of_not_started, fun ha h1 h2 => ?_⟩
    have hminutes := cookMinutes_of_begun ha hz h1 h2
    refine ⟨fun hc => ?_, fun hc => ?_, fun hc => ?_, fun hc => ?_⟩ <;> simp [runSoil, hminutes, hc, soilFactor]

end Sys2Proof.Machine


/-! PROOF. The checks of a claim, of an admission and of a cleaning's start in their order (O35). -/

namespace Sys2Proof.Machine

set_option Elab.async false

open Sys2Proof

section
variable {s : State} {b : BayId}

/-! ## The claim (R19) -/

theorem claimCheck_state (h : s.reg[b].state ≠ .ready ∨ s.reg[b].presence ≠ .present) : claimCheck s b = some .state := if_pos h

theorem claimCheck_of_ready (h1 : s.reg[b].state = .ready) (h2 : s.reg[b].presence = .present) : claimCheck s b =
    if s.reg[b].power = .off then some .off
    else if s.mon.bays[b].hold ≠ .nothing then some .held
    else if s.reg[b].activity ≠ .nothing then some .busy
    else none := if_neg (by rw [h1, h2]; decide)

theorem claimCheck_off (h1 : s.reg[b].state = .ready) (h2 : s.reg[b].presence = .present) (h3 : s.reg[b].power = .off) : claimCheck s b = some .off := by
  rw [claimCheck_of_ready h1 h2, if_pos h3]

theorem claimCheck_held (h1 : s.reg[b].state = .ready) (h2 : s.reg[b].presence = .present) (h3 : s.reg[b].power ≠ .off)
    (h4 : s.mon.bays[b].hold ≠ .nothing) : claimCheck s b = some .held := by
  rw [claimCheck_of_ready h1 h2, if_neg h3, if_pos h4]

theorem claimCheck_busy (h1 : s.reg[b].state = .ready) (h2 : s.reg[b].presence = .present) (h3 : s.reg[b].power ≠ .off)
    (h4 : s.mon.bays[b].hold = .nothing) (h5 : s.reg[b].activity ≠ .nothing) : claimCheck s b = some .busy := by
  rw [claimCheck_of_ready h1 h2, if_neg h3, if_neg (not_not.mpr h4), if_pos h5]

theorem claimCheck_none (h1 : s.reg[b].state = .ready) (h2 : s.reg[b].presence = .present) (h3 : s.reg[b].power ≠ .off)
    (h4 : s.mon.bays[b].hold = .nothing) (h5 : s.reg[b].activity = .nothing) : claimCheck s b = none := by
  rw [claimCheck_of_ready h1 h2, if_neg h3, if_neg (not_not.mpr h4), if_neg (not_not.mpr h5)]

theorem runCheck_of_claim {why : Reason} (h : claimCheck s b = some why) (n : Nat) : runCheck s b n = .error why := by
  unfold runCheck
  rw [h]

theorem cleanCheck_of_claim {why : Reason} (h : claimCheck s b = some why) (p : Program) : cleanCheck s b p = some why := by
  unfold cleanCheck
  rw [h]

/-! ## The admission (R59, R66) -/

theorem runCheck_of_clean (h : claimCheck s b = none) (n : Nat) :
    runCheck s b n = if hygieneBlocks s.clean[b].hygiene then .error .hygiene else admissionCheck s b n := by
  unfold runCheck
  rw [h]

theorem admissionCheck_absent {n : Nat} (h : entryFor s.lib.index n = none ∨ ∃ e, entryFor s.lib.index n = some e ∧ e.withdrawn = true) :
    admissionCheck s b n = .error .absent := by
  unfold admissionCheck
  rcases h with h | ⟨e, h, hw⟩
  · rw [h]
    rfl
  · rw [h, Option.filter_some, if_neg (by rw [hw]; decide)]

theorem admissionCheck_of_entry {n : Nat} {e : Entry} {i : Identity} (h : entryFor s.lib.index n = some e) (hw : e.withdrawn = false)
    (hi : s.reg[b].identity = some i) : admissionCheck s b n =
    if !onMenu s b n then .error .menu
    else if i.firmware < e.cur.minFirmware then .error .firmware
    else if e.cur.probe && (i.points == 0) then .error .probe
    else .ok e := by
  unfold admissionCheck
  rw [h, Option.filter_some, if_pos (by rw [hw]; decide), hi]
  rfl

theorem MenuWindow.admits_iff (m : MenuWindow) (n : Nat) : m.admits n = true ↔ m.base ≤ n ∧ n ≤ m.limit ∧ ¬ (m.base = 0 ∧ m.limit = 0) := by
  simp only [MenuWindow.admits, MenuWindow.isOpen, Bool.and_eq_true, decide_eq_true_eq, Bool.not_eq_true', Bool.and_eq_false_imp, decide_eq_false_iff_not]
  constructor
  · rintro ⟨⟨⟨-, h⟩, h1⟩, h2⟩
    exact ⟨h1, h2, fun hz => h hz.1 hz.2⟩
  · rintro ⟨h1, h2, h⟩
    exact ⟨⟨⟨h1.trans h2, fun hb hl => h ⟨hb, hl⟩⟩, h1⟩, h2⟩

theorem onMenu_iff {c : Commission} (h : s.reg[b].commission = some c) (n : Nat) :
    onMenu s b n = true ↔ c.win1.admits n = true ∨ c.win2.admits n = true := by
  rw [onMenu, h]
  exact Bool.or_eq_true_iff ..

/-! ## The start of a cleaning (R118) -/

theorem cleanCheck_of_provision (h : claimCheck s b = none) {v : Provision} (hv : provisionOf s b = some v) (p : Program) : cleanCheck s b p =
    if p ≠ .rinse ∧ (v.detergent = false ∨ s.clean[b].hygiene.detergent < p.doses v.water) then some .detergent else none := by
  unfold cleanCheck dosesFor
  rw [h, hv]
  rfl

/-! ## The answers -/

variable {w1 w2 : Txt}

theorem runStart_served {n : Nat} (hb : NamesBay w1 b) (hn : number w2 = some n) (h1 : 1 ≤ n) (h2 : n ≤ 999) : serveVerb .runStart [w1, w2] s =
    match runCheck s b n with
    | .error r => refuse .runStart r s
    | .ok e => okay .runStart
        [bayTok b, .num (takeRunId s), .num n, .num e.cur.revision, wd (if s.reg[b].power = .standby then "WAKING" else "ON")] (startRun b e s) := by
  have hrange : within 1 n 999 = true := (within_iff _ _ _).2 ⟨h1, h2⟩
  exact ((withFields_pair hb hn s).trans (onBay_of_names rfl _ s)).trans (if_pos hrange)

theorem runStart_refused {n : Nat} {why : Reason} (hs : Listening s) (hb : NamesBay w1 b) (h : runCheck s b n = .error why) :
    number w2 = some n → 1 ≤ n → n ≤ 999 → Answered .runStart [w1, w2] s (.no (.verb .runStart) why []) s := fun hn h1 h2 =>
  answered_of_served hs ((runStart_served hb hn h1 h2).trans (by rw [h]; rfl))

theorem cleanStart_served {p : Program} (hb : NamesBay w1 b) (hp : wordField [Program.rinse, .light, .medium, .strong] Program.word w2 = some (some p)) :
    serveVerb .cleanStart [w1, w2] s =
    match cleanCheck s b p with
    | some r => refuse .cleanStart r s
    | none => okay .cleanStart [bayTok b, wd p.word, wd (if s.reg[b].power = .standby then "WAKING" else "ON")] (startCleaning b p .host s) :=
  (withFields_pair hb hp s).trans (onBay_of_names rfl _ s)

theorem cleanStart_refused {p : Program} {why : Reason} (hs : Listening s) (hb : NamesBay w1 b) (h : cleanCheck s b p = some why) :
    wordField [Program.rinse, .light, .medium, .strong] Program.word w2 = some (some p) →
      Answered .cleanStart [w1, w2] s (.no (.verb .cleanStart) why []) s := fun hp =>
  answered_of_served hs ((cleanStart_served hb hp).trans (by rw [h]; rfl))

end

/-- Settles O35. -/
theorem claimsAreCheckedInTheirOrder : Obligations.ClaimsAreCheckedInTheirOrder := by
  intro s w1 w2 b n p hs hb
  have both : ∀ {why : Reason}, claimCheck s b = some why →
      (number w2 = some n → 1 ≤ n → n ≤ 999 → Answered .runStart [w1, w2] s (.no (.verb .runStart) why []) s) ∧
      (wordField [Program.rinse, .light, .medium, .strong] Program.word w2 = some (some p) →
        Answered .cleanStart [w1, w2] s (.no (.verb .cleanStart) why []) s) := fun h =>
    ⟨runStart_refused hs hb (runCheck_of_claim h n), cleanStart_refused hs hb (cleanCheck_of_claim h p)⟩
  refine ⟨fun h => both (claimCheck_state h), fun hready hpres => ⟨fun h => both (claimCheck_off hready hpres h),
    fun h1 h2 => both (claimCheck_held hready hpres h1 h2), fun h1 h2 h3 => both (claimCheck_busy hready hpres h1 h2 h3), fun h1 h2 h3 => ?_⟩⟩
  have hclaim := claimCheck_none hready hpres h1 h2 h3
  have hrun := runCheck_of_clean hclaim n
  refine ⟨fun v hv => ?_, fun hblocks => ?_, fun howed hsoil => ⟨fun habsent => ?_, fun e i m he hw hi hm => ?_⟩⟩
  · have hcheck := cleanCheck_of_provision hclaim hv p
    exact ⟨fun h => cleanStart_refused hs hb (hcheck.trans (if_pos (by cases p <;> exact h))), fun h => hcheck.trans (if_neg (by cases p <;> exact h))⟩
  · refine runStart_refused hs hb (hrun.trans (if_pos ?_))
    rw [hygieneBlocks, Bool.or_eq_true, decide_eq_true_eq]
    exact hblocks
  all_goals
    rw [if_neg (by rw [hygieneBlocks, howed, Bool.false_or, decide_eq_true_eq]; omega)] at hrun
  · exact runStart_refused hs hb (hrun.trans (admissionCheck_absent habsent))
  · have hadmit := hrun.trans (admissionCheck_of_entry he hw hi)
    have hmenu := onMenu_iff hm n
    rw [m.win1.admits_iff, m.win2.admits_iff] at hmenu
    refine ⟨fun h => runStart_refused hs hb ?_, fun h => ?_⟩
    · rw [hadmit, if_pos]
      rw [Bool.not_eq_true', ← Bool.not_eq_true, hmenu]
      exact h
    · rw [if_neg (by rw [hmenu.2 h]; decide)] at hadmit
      refine ⟨fun hf => runStart_refused hs hb (hadmit.trans (if_pos hf)), fun hf hp hz => runStart_refused hs hb ?_, fun hf hp => ?_⟩
      · rw [hadmit, if_neg (not_lt.mpr hf), if_pos (by simp [hp, hz])]
      · rw [hadmit, if_neg (not_lt.mpr hf), if_neg]
        intro hboth
        obtain ⟨hprobe, hzero⟩ := Bool.and_eq_true _ _ ▸ hboth
        have := hp hprobe
        rw [beq_iff_eq] at hzero
        omega

end Sys2Proof.Machine


/-! PROOF. Changes of a bay's state, and what follows of them: the timers of a bay (O20) and the commissioning sequence (O21). -/

namespace Sys2Proof.Machine

set_option Elab.async false

open Sys2Proof

/-! ## The Registry's record -/

theorem Touches.reg_same {m : Parts} {s t : State} (h : Touches m s t) {b : BayId} (hr : ¬ m.reg b) (hc : ¬ m.claim b) : t.reg[b] = s.reg[b] := by
  rw [h.reg b hr, h.claim b hc]

/-- What a change of a bay's state may bring with it, but for the Registry's record, and nothing else. -/
def Parts.quiet (b : BayId) : Parts :=
  { line := fun _ => True, drops := fun d _ => d = b, grace := (· = b), go := (· = b), heat := (· = b), shares := True, clean := (· = b), latch := (· = b), cond := (· = b),
    hold := (· = b), calls := True }

theorem Parts.quiet_quiet (b : BayId) : (Parts.quiet b).Quiet b := ⟨⟨rfl, trivial⟩, rfl, rfl, rfl, fun _ => rfl, rfl, rfl, rfl, ⟨trivial, fun _ => trivial⟩, trivial, trivial⟩

/-- The notice of a change of state, and what leaving the old state ends. -/
def leaving (b : BayId) (st : BayState) (cause : BayCause) (s : State) : State :=
  leaveState b s.reg[b].state (queueNotice .bay [bayTok b, wd st.word, wd cause.word] (s.setReg b (fun r => { r with state := st })))

theorem setBayState_of_ne {s : State} {b : BayId} {st : BayState} (h : s.reg[b].state ≠ st) (cause : BayCause) :
    setBayState b st cause s = enterState b st s.reg[b].state (leaving b st cause s) := if_neg h

theorem setBayState_of_same {s : State} {b : BayId} {st : BayState} (h : s.reg[b].state = st) (cause : BayCause) : setBayState b st cause s = s := if_pos h

theorem leaving_touches (b : BayId) (st : BayState) (cause : BayCause) (s : State) :
    Touches (.quiet b) (s.setReg b (fun r => { r with state := st })) (leaving b st cause s) :=
  ((Touches.refl _).queueNotice _ _).leaveState (Parts.quiet_quiet b) _

theorem setReg_same (s : State) (b : BayId) (f : RegBay → RegBay) : (s.setReg b f).reg[b] = f s.reg[b] := by
  rw [State.setReg_reg, upd_same]

theorem leaving_reg (b : BayId) (st : BayState) (cause : BayCause) (s : State) : (leaving b st cause s).reg[b] = { s.reg[b] with state := st } := by
  rw [(leaving_touches b st cause s).reg_same id id, setReg_same]

/-- R7: once the IDENTIFY is placed only the allocation moves, and the HEAT-ALLOW is sent. -/
theorem enterInterrogating_after (b : BayId) (s : State) :
    Touches { line := fun _ => True, heat := (· = b), shares := True }
      (placeOrder b .identify .plain (s.setReg b (fun r => { r with pollCount := 0, stepCheck := true, power := .off }))) (enterInterrogating b s) := by
  have hu := (Touches.refl (m := { line := fun _ => True, heat := (· = b), shares := True })
    (placeOrder b .identify .plain (s.setReg b (fun r => { r with pollCount := 0, stepCheck := true, power := .off })))).setShare (b := b)
    (f := fun x => { x with sent := none }) trivial
  refine Touches.sendAllowance ?_ ⟨trivial, fun _ => trivial⟩ b
  split
  · exact hu
  · exact hu.heatPower rfl ⟨trivial, fun _ => trivial⟩

theorem enterInterrogating_touches (b : BayId) (s : State) :
    Touches { line := fun _ => True, heat := (· = b), shares := True }
      (s.setReg b (fun r => { r with pollCount := 0, stepCheck := true, power := .off })) (enterInterrogating b s) :=
  ((Touches.refl _).placePlain (b := b) trivial .identify).trans (enterInterrogating_after b s)

/-- R2, R7: the Registry's record after a change of state. -/
theorem setBayState_reg {s : State} {b : BayId} {st : BayState} (h : st ≠ .interrogating) (cause : BayCause) :
    (setBayState b st cause s).reg[b] = { s.reg[b] with state := st } := by
  by_cases hst : s.reg[b].state = st
  · rw [setBayState_of_same hst, ← hst]
  · rw [setBayState_of_ne hst, ((Touches.refl (m := .quiet b) _).enterQuiet (Parts.quiet_quiet b) h _).reg_same id id, leaving_reg]

theorem setBayState_reg_interrogating {s : State} {b : BayId} (h : s.reg[b].state ≠ .interrogating) (cause : BayCause) :
    (setBayState b .interrogating cause s).reg[b] = { s.reg[b] with state := .interrogating, pollCount := 0, stepCheck := true, power := .off } := by
  rw [setBayState_of_ne h]
  show (enterInterrogating b _).reg[b] = _
  rw [(enterInterrogating_touches b _).reg_same id id, setReg_same, leaving_reg]

/-- What every change of state leaves of the Registry's record. -/
theorem setBayState_kept (b : BayId) (st : BayState) (cause : BayCause) (s : State) : ∃ n y p, (setBayState b st cause s).reg[b] =
    { s.reg[b] with state := st, pollCount := n, stepCheck := y, power := p } := by
  by_cases hst : s.reg[b].state = st
  · exact ⟨s.reg[b].pollCount, s.reg[b].stepCheck, s.reg[b].power, by rw [setBayState_of_same hst, ← hst]⟩
  · by_cases h : st = .interrogating
    · subst h
      exact ⟨_, _, _, setBayState_reg_interrogating hst cause⟩
    · exact ⟨_, _, _, setBayState_reg h cause⟩

/-- A change of a bay's state, and nothing else. -/
def Parts.entering (b : BayId) : Parts := { Parts.quiet b with reg := (· = b) }

theorem Parts.entering_enter (b : BayId) : (Parts.entering b).Enter b :=
  ⟨⟨⟨rfl, trivial⟩, rfl, rfl, rfl, fun _ => rfl, rfl, rfl, rfl, ⟨trivial, fun _ => trivial⟩, trivial, trivial⟩, rfl⟩

theorem setBayState_touches (b : BayId) (st : BayState) (cause : BayCause) (s : State) : Touches (.entering b) s (setBayState b st cause s) :=
  (Touches.refl s).setBayState (Parts.entering_enter b) st cause

/-- R2: a change of state has its BAY notice. -/
theorem tells_setBayState {s : State} {b : BayId} {st : BayState} (h : s.reg[b].state ≠ st) (cause : BayCause) :
    TellsBay s (setBayState b st cause s) b st cause := by
  have hafter : Later (queueNotice .bay [bayTok b, wd st.word, wd cause.word] (s.setReg b (fun r => { r with state := st })))
      (setBayState b st cause s) := by
    rw [setBayState_of_ne h]
    exact (((Touches.refl (m := .entering b) _).leaveState (Parts.entering_enter b).toQuiet _).enterState (Parts.entering_enter b) _ _).later
  exact ((tells_queueNotice _ _ _).mono hafter).since ⟨rfl, rfl, List.prefix_rfl, id⟩

theorem MonitorOnly.line {s t : State} (h : MonitorOnly s t) : t.line = s.line := by
  rw [show t = _ from h]

theorem leaveState_monitorOnly (b : BayId) (old : BayState) (s : State) : MonitorOnly s (leaveState b old s) := by
  unfold leaveState
  split
  · exact setCondition_monitorOnly b .lineExpired false s
  · exact setCondition_monitorOnly b .supplyMismatch false s
  · exact MonitorOnly.refl s

theorem leaving_line (b : BayId) (st : BayState) (cause : BayCause) (s : State) : (leaving b st cause s).line = s.line :=
  (leaveState_monitorOnly b s.reg[b].state _).line.trans (queueNotice_monitorOnly .bay [bayTok b, wd st.word, wd cause.word] _).line

/-- R7: a bay that becomes INTERROGATING, and whose queue has room, is ordered to identify itself. -/
theorem setBayState_identifies {s : State} {b : BayId} (h : s.reg[b].state ≠ .interrogating) (cause : BayCause)
    (hq : s.line.bays[b].queue.length < 6) : ∃ o ∈ (setBayState b .interrogating cause s).line.bays[b].queue, o.body = .identify := by
  rw [setBayState_of_ne h]
  have hline := leaving_line b .interrogating cause s
  have hreg := leaving_reg b .interrogating cause s
  generalize leaving b .interrogating cause s = t at hline hreg
  have ht : takesOrders (t.setReg b (fun r => { r with pollCount := 0, stepCheck := true, power := .off })) b = true := by
    rw [takesOrders_iff, setReg_same, hreg]
    exact ⟨nofun, nofun⟩
  obtain ⟨o, ho, hbody⟩ := exists_mem_placeOrder ht (by rw [State.setReg_line, hline]; exact hq) .identify .plain
  exact ⟨o, (enterInterrogating_after b t).stays b o ho id (by rw [show o.body = _ from hbody]; rfl), hbody⟩

/-! ## The timers of a bay -/

theorem settleExpires_running {s : State} {b : BayId} {d : Nat} (hrun : s.phase = .running) (h : s.reg[b].settleDue = some d) (hd : d ≤ s.now) :
    settleExpires b s = setBayState b .interrogating .settled (s.setReg b (fun r => { r with settleDue := none })) := by
  unfold settleExpires
  rw [h, if_pos (reached_some hd)]
  exact if_neg (by simp [State.loading, hrun])

theorem settleExpires_loading {s : State} {b : BayId} {d : Nat} {c : Cause} (hload : s.phase = .loading c) (h : s.reg[b].settleDue = some d)
    (hd : d ≤ s.now) : settleExpires b s =
    (s.setReg b (fun r => { r with settleDue := none })).setReg b (fun r => { r with settled := true }) := by
  unfold settleExpires
  rw [h, if_pos (reached_some hd)]
  exact if_pos (by simp [State.loading, hload])

theorem partialExpires_eq {s : State} {b : BayId} {d : Nat} (h : s.reg[b].partialDue = some d) (hd : d ≤ s.now) :
    partialExpires b s = setCondition b .presencePartial true (s.setReg b (fun r => { r with partialDue := none })) := by
  unfold partialExpires
  rw [h]
  exact if_pos (reached_some hd)

theorem commissionExpires_eq {s : State} {b : BayId} {c : CommContext} (h : s.reg[b].context = some c) (hd : c.deadline ≤ s.now / 1000) :
    commissionExpires b s = abandonTo b s := by
  unfold commissionExpires
  rw [h]
  exact if_pos (reached_some hd)

/-! ## The end of a commissioning sequence -/

/-- R15: a sequence that is abandoned. -/
theorem abandonTo_eq {s : State} {b : BayId} {c : CommContext} (h : s.reg[b].context = some c) : abandonTo b s =
    setBayState b c.before .abandoned (report b .commissionAbandoned (s.setReg b (fun r => { r with context := none }))) := by
  simp only [abandonTo, abandonContext, h]

theorem abandonTo_abandons {s : State} {b : BayId} {c : CommContext} (h : s.reg[b].context = some c) : Abandoned s (abandonTo b s) b c := by
  rw [abandonTo_eq h]
  have hreported := (Touches.refl (m := .alarm b) (s.setReg b (fun r => { r with context := none }))).report (Parts.alarm_alarm b) .commissionAbandoned
  have hreg := hreported.reg_same (b := b) id id
  rw [setReg_same] at hreg
  have hlatch := report_sets b .commissionAbandoned (s.setReg b (fun r => { r with context := none }))
  have hlater : Later s (report b .commissionAbandoned (s.setReg b (fun r => { r with context := none }))) :=
    Later.trans (t := s.setReg b (fun r => { r with context := none })) ⟨rfl, rfl, List.prefix_rfl, id⟩ hreported.later
  generalize report b .commissionAbandoned (s.setReg b (fun r => { r with context := none })) = u at hreg hlatch hlater
  obtain ⟨n, y, p, hset⟩ := setBayState_kept b c.before .abandoned u
  rw [hreg] at hset
  refine ⟨by rw [hset], by rw [hset], by rw [hset], fun hne => ?_, (setBayState_touches b _ _ u).clears b id _ hlatch⟩
  exact (tells_setBayState (by rw [hreg]; exact hne) _).since hlater

/-- Settles O20. -/
theorem bayTimersExpire : Obligations.BayTimersExpire := by
  refine fun s b d => ⟨fun hrun hst hdue hd => ?_, fun c hload hdue hd => ?_, fun hon hdue hd => ?_, fun c hon hc hd => ?_⟩
  · refine completes_event (g := settleExpires b) (by rw [hrun]; decide) rfl fun tx sent => ?_
    rw [settleExpires_running hrun hdue hd]
    have hne : (s.setReg b (fun r => { r with settleDue := none })).reg[b].state ≠ .interrogating := by rw [setReg_same]; simp [-Fin.getElem_fin, hst]
    have hreg := setBayState_reg_interrogating hne .settled
    have htold := tells_setBayState hne .settled
    have hidentify := setBayState_identifies hne .settled
    rw [setReg_same] at hreg
    generalize setBayState b .interrogating .settled (s.setReg b (fun r => { r with settleDue := none })) = t at hreg htold hidentify
    refine ⟨?_, ?_, ?_, ?_, ?_, htold, hidentify⟩ <;> exact (congrArg _ hreg).trans rfl
  · refine completes_event (g := settleExpires b) (by rw [hload]; simp) rfl fun tx sent => ?_
    rw [settleExpires_loading hload hdue hd]
    refine ⟨?_, rfl⟩
    show ((s.setReg b _).setReg b _).reg[b] = _
    rw [setReg_same, setReg_same]
  · refine completes_event (g := partialExpires b) hon rfl fun tx sent => ?_
    rw [partialExpires_eq hdue hd]
    have hcond := condition_setCondition (s.setReg b (fun r => { r with partialDue := none })) b .presencePartial .presencePartial true
    have hreg := congrArg (fun t : State => t.reg[b]) (setCondition_monitorOnly b .presencePartial true (s.setReg b (fun r => { r with partialDue := none })))
    have hset : condition s b .presencePartial = false →
        (setCondition b .presencePartial true (s.setReg b (fun r => { r with partialDue := none }))).mon.bays[b].latches[EventKind.presencePartial.slot].set = true :=
      fun h => setCondition_sets h
    generalize setCondition b .presencePartial true (s.setReg b (fun r => { r with partialDue := none })) = t at hcond hreg hset
    exact ⟨hcond, hreg.trans (setReg_same s b _), hset⟩
  · refine completes_event (g := commissionExpires b) hon rfl fun tx sent => ?_
    rw [commissionExpires_eq hc hd]
    have h := abandonTo_abandons hc
    generalize abandonTo b s = t at h
    exact h

end Sys2Proof.Machine


/-! PROOF. The commissioning sequence (O21): how it opens, takes its messages, completes, and is abandoned by a message out of turn. -/

namespace Sys2Proof.Machine

set_option Elab.async false

open Sys2Proof

/-! ## The supply check and the record that a sequence builds -/

theorem supplyFits_iff (i : Identity) (supply circuitMax : Nat) : supplyFits i supply circuitMax = true ↔ i.supply = supply ∧ i.rated ≤ circuitMax := by
  simp [supplyFits]

theorem CommContext.build_eq_record (c : CommContext) (serial : Txt) : c.build serial = c.record serial := by
  cases c with
  | mk supply circuitMax water limitsFollow optionsFollow limits options next before deadline =>
    cases limits <;> cases options <;> rfl

/-! ## The end of a sequence -/

section

variable {s : State} {b : BayId} {c : CommContext} {i : Identity}

/-- R14: a sequence that completes and passes the supply check. -/
theorem completeContext_of_fits (hi : s.reg[b].identity = some i) (h : i.supply = c.supply ∧ i.rated ≤ c.circuitMax) : completeContext b c s =
    setBayState b .ready .commissioned (storePut (.commission b (c.record i.serial))
      ((s.setReg b (fun r => { r with context := none })).setReg b (fun r => { r with commission := some (c.record i.serial) }))) := by
  rw [← c.build_eq_record]
  simp only [completeContext, hi]
  exact if_pos ((supplyFits_iff _ _ _).2 h)

/-- R14: a sequence that completes and fails the supply check. -/
theorem completeContext_of_not_fits (hi : s.reg[b].identity = some i) (h : ¬ (i.supply = c.supply ∧ i.rated ≤ c.circuitMax)) : completeContext b c s =
    setBayState b .refused .supply (s.setReg b (fun r => { r with context := none })) := by
  simp only [completeContext, hi]
  exact if_neg (by rw [supplyFits_iff]; exact h)

theorem completeReply_of_identity (hi : s.reg[b].identity = some i) (v : Verb) : completeReply v b c s =
    okay v [bayTok b, wd (if i.supply = c.supply ∧ i.rated ≤ c.circuitMax then "READY" else "REFUSED")] (completeContext b c s) := by
  have hpass : completionPasses s b c = decide (i.supply = c.supply ∧ i.rated ≤ c.circuitMax) := by
    rw [completionPasses, hi, Bool.eq_iff_iff, decide_eq_true_iff]
    exact supplyFits_iff _ _ _
  rw [completeReply, hpass]
  simp only [decide_eq_true_iff]

/-- R14: a request that completes the sequence of a COMMISSIONING bay. -/
theorem commissioned_of_complete (v : Verb) (hi : s.reg[b].identity = some i) (hst : s.reg[b].state = .commissioning) :
    Commissioned s (replying (.ok v [bayTok b, wd (if i.supply = c.supply ∧ i.rated ≤ c.circuitMax then "READY" else "REFUSED")]) (completeContext b c s))
      b v c i := by
  by_cases hf : i.supply = c.supply ∧ i.rated ≤ c.circuitMax
  · rw [if_pos hf, completeContext_of_fits hi hf]
    have hstored := storePut_eq_withStore (.commission b (c.record i.serial))
      ((s.setReg b (fun r => { r with context := none })).setReg b (fun r => { r with commission := some (c.record i.serial) }))
    have hstore := storePut_store_congr (s := s)
      (t := (s.setReg b (fun r => { r with context := none })).setReg b (fun r => { r with commission := some (c.record i.serial) })) rfl rfl
      (.commission b (c.record i.serial))
    have hreg : (storePut (.commission b (c.record i.serial)) ((s.setReg b (fun r => { r with context := none })).setReg b
        (fun r => { r with commission := some (c.record i.serial) }))).reg[b] =
        { s.reg[b] with context := none, commission := some (c.record i.serial) } := by
      rw [hstored]
      exact (setReg_same _ _ _).trans (by rw [setReg_same])
    have hlater : Later s (storePut (.commission b (c.record i.serial)) ((s.setReg b (fun r => { r with context := none })).setReg b
        (fun r => { r with commission := some (c.record i.serial) }))) := by
      rw [hstored]
      exact ⟨rfl, rfl, List.prefix_rfl, id⟩
    generalize storePut (.commission b (c.record i.serial)) ((s.setReg b (fun r => { r with context := none })).setReg b
        (fun r => { r with commission := some (c.record i.serial) })) = u at hreg hlater hstore
    have hready := setBayState_reg (s := u) (b := b) (st := .ready) nofun .commissioned
    have htold := (tells_setBayState (s := u) (b := b) (st := .ready) (by rw [hreg]; simp [-Fin.getElem_fin, hst]) .commissioned).since hlater
    have hkept := (setBayState_touches b .ready .commissioned u).store id
    generalize setBayState b .ready .commissioned u = t at hready htold hkept
    rw [hreg] at hready
    exact ⟨congrArg RegBay.context hready, (congrArg RegBay.identity hready).trans hi,
      fun _ => ⟨congrArg RegBay.state hready, congrArg RegBay.commission hready, hkept.trans hstore, htold, rfl⟩, fun hn => absurd hf hn⟩
  · rw [if_neg hf, completeContext_of_not_fits hi hf]
    have hrefused := setBayState_reg (s := s.setReg b (fun r => { r with context := none })) (b := b) (st := .refused) nofun .supply
    have htold := (tells_setBayState (s := s.setReg b (fun r => { r with context := none })) (b := b) (st := .refused)
      (by rw [setReg_same]; simp [-Fin.getElem_fin, hst]) .supply)
    have hkept := (setBayState_touches b .refused .supply (s.setReg b (fun r => { r with context := none }))).store id
    generalize setBayState b .refused .supply (s.setReg b (fun r => { r with context := none })) = t at hrefused htold hkept
    rw [setReg_same] at hrefused
    exact ⟨(congrArg RegBay.context hrefused).trans rfl, ((congrArg RegBay.identity hrefused).trans rfl).trans hi, fun h => absurd h hf,
      fun _ => ⟨congrArg RegBay.state hrefused, (congrArg RegBay.commission hrefused).trans rfl, hkept, htold.since ⟨rfl, rfl, List.prefix_rfl, id⟩, rfl⟩⟩

/-- A completion that follows the opening of its sequence is a completion of the state before. -/
theorem Commissioned.since {u t : State} {v : Verb} (h : Commissioned u t b v c i) (hl : Later s u) (hstore : u.store = s.store)
    (hc : u.reg[b].commission = s.reg[b].commission) : Commissioned s t b v c i := by
  obtain ⟨hcontext, hidentity, hready, hrefused⟩ := h
  refine ⟨hcontext, hidentity, fun hf => ?_, fun hn => ?_⟩
  · obtain ⟨hst, hrec, hhanded, htold, hreply⟩ := hready hf
    exact ⟨hst, hrec, hhanded.trans (storePut_store_congr hl.phase hstore _), htold.since hl, hreply⟩
  · obtain ⟨hst, hrec, hkept, htold, hreply⟩ := hrefused hn
    exact ⟨hst, hrec.trans hc, hkept.trans hstore, htold.since hl, hreply⟩

theorem Abandoned.replying {t : State} (h : Abandoned s t b c) (r : Reply) : Abandoned s (replying r t) b c := by
  obtain ⟨hcontext, hst, hrec, htold, hlatch⟩ := h
  exact ⟨hcontext, hst, hrec, fun hne => (htold hne).mono (later_replying r t), hlatch⟩

end

/-! ## The opening of a sequence (R12) -/

section

variable {s : State} {p : BeginFields} {before : BayState}

/-- R12: the bay with its sequence open. -/
def opening (p : BeginFields) (before : BayState) (s : State) : State :=
  setBayState p.bay .commissioning .begin (s.setReg p.bay (fun r => { r with context := some (openContext s p before) }))

theorem opening_reg (p : BeginFields) (before : BayState) (s : State) : (opening p before s).reg[p.bay] =
    { s.reg[p.bay] with state := .commissioning, context := some (openContext s p before) } := by
  rw [opening, setBayState_reg (st := .commissioning) nofun, setReg_same]

theorem opening_store (p : BeginFields) (before : BayState) (s : State) : (opening p before s).store = s.store :=
  (setBayState_touches p.bay .commissioning .begin (s.setReg p.bay (fun r => { r with context := some (openContext s p before) }))).store id

theorem opening_later (p : BeginFields) (before : BayState) (s : State) : Later s (opening p before s) :=
  Later.trans (t := s.setReg p.bay (fun r => { r with context := some (openContext s p before) })) ⟨rfl, rfl, List.prefix_rfl, id⟩
    (setBayState_touches p.bay .commissioning .begin _).later

theorem opening_of_commissioning (h : s.reg[p.bay].state = .commissioning) :
    opening p before s = s.setReg p.bay (fun r => { r with context := some (openContext s p before) }) :=
  setBayState_of_same ((congrArg RegBay.state (setReg_same s p.bay _)).trans h) _

theorem tells_opening (h : s.reg[p.bay].state ≠ .commissioning) : TellsBay s (opening p before s) p.bay .commissioning .begin :=
  (tells_setBayState (s := s.setReg p.bay (fun r => { r with context := some (openContext s p before) }))
    (by rw [setReg_same]; exact h) .begin).since ⟨rfl, rfl, List.prefix_rfl, id⟩

/-- R12: a sequence may open, or open afresh. -/
theorem commissionBegin_opens {f : List Txt} (hf : parseBegin f = some (some p))
    (h : (s.reg[p.bay].state = .uncommissioned ∨ s.reg[p.bay].state = .refused ∨ s.reg[p.bay].state = .ready ∧ s.reg[p.bay].activity = .nothing) ∧
        before = s.reg[p.bay].state ∨
      s.reg[p.bay].state = .commissioning ∧ ∃ c, s.reg[p.bay].context = some c ∧ before = c.before) :
    serveVerb .commissionBegin f s = beginSequence p before s := by
  show serveCommissionBegin f s = _
  unfold serveCommissionBegin
  rw [withFields_of_parse hf]
  obtain ⟨hst | hst | ⟨hst, hfree⟩, rfl⟩ | ⟨hst, c, hc, rfl⟩ := h
  · simp only [hst]
  · simp only [hst]
  · simp only [hst]
    exact if_pos hfree
  · simp only [hst, hc]
    rfl

theorem beginSequence_waits (h : p.limits = true ∨ p.options = true) : beginSequence p before s =
    okay .commissionBegin [bayTok p.bay, wd "OPEN", wd (if p.limits then "LIMITS" else "OPTIONS")] (opening p before s) := by
  have hword : (openContext s p before).next.word = if p.limits = true then "LIMITS" else "OPTIONS" := by
    cases hl : p.limits <;> simp [openContext, hl] <;> rfl
  rw [← hword]
  refine if_neg ?_
  obtain h | h := h <;> simp [h]

theorem beginSequence_completes (hl : p.limits = false) (ho : p.options = false) : beginSequence p before s =
    completeReply .commissionBegin p.bay (openContext s p before) (opening p before s) := if_pos (by simp [hl, ho])

end

/-! ## The messages of a sequence (R13) -/

section

variable {s : State} {b : BayId} {w1 w2 w3 a1 a2 a3 a4 w6 : Txt} {z : Int} {y : Option Bool} {n1 n2 n3 n4 : Nat} {c : CommContext}

/-- COMMISSION-LIMITS where no sequence is open, where it is not expected, and where it is taken. -/
theorem commissionLimits_served (hb : NamesBay w1 b) (hz : tempField w2 = some z) (hy : ynField w3 = some y) :
    (s.reg[b].context = none → serveVerb .commissionLimits [w1, w2, w3] s = refuse .commissionLimits .sequence s) ∧
    (∀ c, s.reg[b].context = some c → c.next ≠ .limits → serveVerb .commissionLimits [w1, w2, w3] s = outOfTurn .commissionLimits b s) ∧
    (∀ c stay, s.reg[b].context = some c → c.next = .limits → y = some stay → 1500 ≤ z → z ≤ 3000 → serveVerb .commissionLimits [w1, w2, w3] s =
      if c.optionsFollow then
        okay .commissionLimits [bayTok b, wd "OPEN", wd "OPTIONS"]
          (s.setReg b (fun r => { r with context := some { c with limits := some (z, stay), next := .options } }))
      else completeReply .commissionLimits b { c with limits := some (z, stay), next := .options } s) := by
  have hb' : number w1 = some (bayNo b) := hb
  have hserved : serveVerb .commissionLimits [w1, w2, w3] s = _ :=
    (withFields_of_parse (a := (bayNo b, z, y)) (by simp [fld, fin, hb', hz, hy]) s).trans (onBay_of_names (b := b) rfl _ s)
  refine ⟨fun hc => ?_, fun c hc hnext => ?_, fun c stay hc hnext hstay hlo hhi => ?_⟩ <;> rw [hserved] <;> simp only [hc]
  · exact if_pos hnext
  · subst hstay
    exact (if_neg (not_not.mpr hnext)).trans (if_pos (by simp [withinT, hlo, hhi]))

/-- COMMISSION-OPTIONS where no sequence is open, where it is not expected, and where it is taken. -/
theorem commissionOptions_served (hb : NamesBay w1 b) (h1 : number a1 = some n1) (h2 : number a2 = some n2) (h3 : number a3 = some n3)
    (h4 : number a4 = some n4) (hy : ynField w6 = some y) :
    (s.reg[b].context = none → serveVerb .commissionOptions [w1, a1, a2, a3, a4, w6] s = refuse .commissionOptions .sequence s) ∧
    (∀ c, s.reg[b].context = some c → c.next ≠ .options →
      serveVerb .commissionOptions [w1, a1, a2, a3, a4, w6] s = outOfTurn .commissionOptions b s) ∧
    (∀ c stay, s.reg[b].context = some c → c.next = .options → y = some stay → n1 ≤ 999 → n2 ≤ 999 → n3 ≤ 999 → n4 ≤ 999 →
      serveVerb .commissionOptions [w1, a1, a2, a3, a4, w6] s =
        completeReply .commissionOptions b { c with options := some ({ base := n1, limit := n2 }, { base := n3, limit := n4 }, stay) } s) := by
  have hb' : number w1 = some (bayNo b) := hb
  have hserved : serveVerb .commissionOptions [w1, a1, a2, a3, a4, w6] s = _ :=
    (withFields_of_parse (a := (bayNo b, (⟨n1, n2⟩ : MenuWindow), (⟨n3, n4⟩ : MenuWindow), y)) (by simp [fld, fin, hb', h1, h2, h3, h4, hy]) s).trans
      (onBay_of_names (b := b) rfl _ s)
  refine ⟨fun hc => ?_, fun c hc hnext => ?_, fun c stay hc hnext hstay hn1 hn2 hn3 hn4 => ?_⟩ <;> rw [hserved] <;> simp only [hc]
  · exact if_pos hnext
  · subst hstay
    exact (if_neg (not_not.mpr hnext)).trans (if_pos (by simp [hn1, hn2, hn3, hn4]))

/-- R13: a message that is not the expected one. -/
theorem outOfTurn_abandons {v : Verb} {f : List Txt} (hs : Listening s) (hc : s.reg[b].context = some c) (h : serveVerb v f s = outOfTurn v b s) :
    Completes (v.command f) s (fun t => Abandoned s t b c ∧ t.host.inHand = some (.no (.verb v) .sequence [])) := by
  refine completes_of_answered (answered_of_served hs h) ?_
  have habandoned := abandonTo_abandons hc
  generalize abandonTo b s = t at habandoned
  exact ⟨habandoned.replying _, rfl⟩

/-- R14: a message that completes the sequence. -/
theorem completion_commissions {v : Verb} {f : List Txt} {i : Identity} (hs : Listening s) (hi : s.reg[b].identity = some i)
    (hst : s.reg[b].state = .commissioning) (h : serveVerb v f s = completeReply v b c s) :
    Completes (v.command f) s (fun t => Commissioned s t b v c i) := by
  rw [completeReply_of_identity hi] at h
  exact completes_of_answered (answered_of_served hs h) (commissioned_of_complete v hi hst)

end

/-- Settles O21. -/
theorem commissioningMessagesComplete : Obligations.CommissioningMessagesComplete := by
  refine ⟨fun s f p before hs hf hbefore => ⟨fun hmore => ?_, fun i hl ho hi => ?_⟩, fun s b w1 w2 w3 z y hs hb hz hy => ⟨fun hnone => ?_, fun c hc =>
    ⟨fun hnext => ?_, fun stay hstay hnext hlo hhi => ?_⟩⟩, fun s b w1 a1 a2 a3 a4 w6 n1 n2 n3 n4 y hs hb h1 h2 h3 h4 hy => ⟨fun hnone => ?_,
    fun c hc => ⟨fun hnext => ?_, fun stay i hstay hnext h1' h2' h3' h4' hst hi => ?_⟩⟩⟩
  · have hserved := (commissionBegin_opens hf hbefore).trans (beginSequence_waits hmore)
    refine completes_of_answered (answered_of_served hs hserved) ?_
    have hreg := opening_reg p before s
    have htold := tells_opening (s := s) (p := p) (before := before)
    have hafresh := opening_of_commissioning (s := s) (p := p) (before := before)
    generalize opening p before s = t at hreg htold hafresh
    refine ⟨congrArg RegBay.state hreg, (congrArg RegBay.commission hreg).trans rfl, congrArg RegBay.context hreg, fun hne => (htold hne).mono (later_replying _ t),
      fun hst => ?_, rfl⟩
    rw [hafresh hst]
    rfl
  · have hserved := (commissionBegin_opens hf hbefore).trans (beginSequence_completes hl ho)
    have hreg := opening_reg p before s
    have hstore := opening_store p before s
    have hlater := opening_later p before s
    generalize opening p before s = u at hreg hstore hlater hserved
    have hi' : u.reg[p.bay].identity = some i := ((congrArg RegBay.identity hreg).trans rfl).trans hi
    rw [completeReply_of_identity hi'] at hserved
    have hcommissioned := commissioned_of_complete (c := openContext s p before) .commissionBegin hi' (congrArg RegBay.state hreg)
    exact completes_of_answered (answered_of_served hs hserved) (hcommissioned.since hlater hstore ((congrArg RegBay.commission hreg).trans rfl))
  · exact answered_of_served hs ((commissionLimits_served hb hz hy).1 hnone)
  · obtain ⟨-, hturn, -⟩ := commissionLimits_served (s := s) hb hz hy
    exact outOfTurn_abandons hs hc (hturn c hc (by rw [hnext]; decide))
  · obtain ⟨-, -, htaken⟩ := commissionLimits_served (s := s) hb hz hy
    have hserved := htaken c stay hc hnext hstay hlo hhi
    refine ⟨fun hmore => ?_, fun i hlast hst hi => ?_⟩
    · rw [if_pos hmore] at hserved
      exact completes_of_answered (answered_of_served hs hserved) ⟨setReg_same s b _, fun e he => upd_other _ _ _ _ he, rfl, rfl⟩
    · rw [if_neg (by simp [hlast])] at hserved
      exact completion_commissions hs hi hst hserved
  · exact answered_of_served hs ((commissionOptions_served hb h1 h2 h3 h4 hy).1 hnone)
  · obtain ⟨-, hturn, -⟩ := commissionOptions_served (s := s) hb h1 h2 h3 h4 hy
    exact outOfTurn_abandons hs hc (hturn c hc (by rw [hnext]; decide))
  · obtain ⟨-, -, htaken⟩ := commissionOptions_served (s := s) hb h1 h2 h3 h4 hy
    exact completion_commissions hs hi hst (htaken c stay hc hnext hstay h1' h2' h3' h4')

end Sys2Proof.Machine


/-! SUPPORT. The handing on of a release, and the records that the end of a run, of a cleaning and of a transfer leaves (R20, R83, R129, R180). -/

namespace Sys2Proof.Machine

set_option Elab.async false

open Sys2Proof

/-! ## The handing on of a release (R20) -/

/-- What the passes of a release may change. -/
def Parts.passing : Parts :=
  { claim := fun _ => True, line := fun _ => True, heat := fun _ => True, shares := True, flow := fun _ => True, chan := fun _ => True, slots := True }

theorem Parts.passing_pass : Parts.passing.Pass :=
  ⟨⟨fun _ => trivial, fun _ => trivial, trivial, fun _ => trivial, ⟨trivial, fun _ => trivial⟩⟩, fun _ => trivial⟩

/-- What the handing on of a bay's release may change. -/
def Parts.handing (b : BayId) : Parts :=
  { Parts.passing with drops := fun d k => d = b ∧ k = .cleanPhase, grace := (· = b), run := (· = b), cleaning := (· = b), cleanEnd := (· = b), clean := (· = b) }

theorem Parts.handing_release (b : BayId) : (Parts.handing b).Release b :=
  ⟨⟨⟨fun _ => trivial, fun _ => trivial, trivial, fun _ => trivial, ⟨trivial, fun _ => trivial⟩⟩, fun _ => trivial⟩,
    ⟨trivial, ⟨⟨trivial, rfl, rfl, rfl, fun _ => trivial⟩, ⟨rfl, rfl⟩, rfl⟩, trivial, ⟨trivial, fun _ => trivial⟩⟩, rfl⟩

/-- What the handing on of the release of a barred bay may change. -/
def Parts.cold (b : BayId) : Parts := { Parts.passing with claim := (· ≠ b), clean := (· = b) }

theorem Parts.cold_visit (b : BayId) : (Parts.cold b).Visit := ⟨fun _ => trivial, fun _ => trivial, trivial, fun _ => trivial, ⟨trivial, fun _ => trivial⟩⟩

section

variable {s : State} {b : BayId}

theorem handOn_touches (o : HandOn) (b : BayId) (s : State) : Touches (.handing b) s (handOn o b s) := (Touches.refl s).handOn (.inr (Parts.handing_release b))

theorem retryPending_of_none (h : s.clean[b].pendingWindow = none) : retryPending b s = s := by
  rw [retryPending, h]

/-- The release of a bay with no window cleaning pending starts no cleaning of it. -/
theorem handOn_passing (h : s.clean[b].pendingWindow = none) (o : HandOn) : Touches .passing s (handOn o b s) := by
  have hheat := (Touches.refl (m := .passing) s).heatRelease (b := b) trivial Parts.passing_pass.recompute
  have hretry := hheat.retryPasses Parts.passing_pass (some b)
  have hpending : ∀ {t : State}, Touches .passing s t → t.clean[b].pendingWindow = none := fun ht => (congrArg Prod.fst (ht.clean b id)).trans h
  cases o with
  | later => exact Touches.refl s
  | now => simpa only [handOn, retryPending_of_none (hpending hretry)] using hretry
  | noPass => simpa only [handOn, retryPending_of_none (hpending hheat)] using hheat

theorem claimCheck_of_barred (h : Barred s b) : ∃ why, claimCheck s b = some why := by
  unfold claimCheck
  dsimp only
  split
  · exact ⟨_, rfl⟩
  · next hready =>
    split
    · exact ⟨_, rfl⟩
    · exact ⟨_, if_pos (h.resolve_left fun hcold => hready (.inl hcold))⟩

theorem retryPending_of_barred (h : Barred s b) : Touches (.cold b) s (retryPending b s) := by
  obtain ⟨why, hwhy⟩ := claimCheck_of_barred h
  unfold retryPending
  split
  · exact Touches.refl s
  · dsimp only
    split
    · exact (Touches.refl s).setClean rfl
    · rw [cleanCheck_of_claim hwhy]
      exact Touches.refl s

/-- R20: the release of a barred bay claims it for no job. -/
theorem handOn_barred (h : Barred s b) (o : HandOn) : Touches (.cold b) s (handOn o b s) := by
  have hheat := (Touches.refl (m := .cold b) s).heatRelease (b := b) trivial (Parts.cold_visit b).recompute
  have hbar : ∀ {t : State}, Touches (.cold b) s t → Barred t b := fun ht => h.touched ht id id
  have hmay : ∀ d, (Parts.cold b).MayClaim (heatRelease b s) d := fun d => by
    by_cases hd : d = b
    · subst hd; exact .inr ⟨id, id, hbar hheat⟩
    · exact .inl hd
  have hretry := hheat.retryPasses_claiming (Parts.cold_visit b) hmay (some b)
  cases o with
  | later => exact Touches.refl s
  | now => exact hretry.trans (retryPending_of_barred (hbar hretry))
  | noPass => exact hheat.trans (retryPending_of_barred (hbar hheat))

end

/-! ## A run's end (R83) -/

/-- A run, but for what the placement of its orders records. -/
theorem run_of_job {s t : State} {b : BayId} {r : Run} (h : s.runs.runs[b] = some r)
    (hj : (t.runs.runs[b]).map Run.job = (s.runs.runs[b]).map Run.job) : ∃ id sp, t.runs.runs[b] = some { r with orderedId := id, setpoint := sp } := by
  rw [h, Option.map_some, Option.map_eq_some_iff] at hj
  obtain ⟨x, hx, hj⟩ := hj
  refine ⟨x.orderedId, x.setpoint, hx.trans (congrArg some ?_)⟩
  cases x
  cases r
  simp only [Run.job, Run.mk.injEq] at hj ⊢
  simp_all

/-- The soil that the end of a run gives (R84). -/
def Run.rise (r : Run) (st : RunState) (reason : RunReason) (now : Nat) (h : Hygiene) : Nat := soilRise h (runSoil (r.close st reason now))

/-- A run that has become final, its bay released, before the release is handed on. -/
def settledRun (b : BayId) (st : RunState) (reason : RunReason) (e : EndOrder) (r : Run) (s : State) : State :=
  release b ((setHygiene b (fun x => x.addSoil (runSoil (r.close st reason s.now)))
    (releasePin r.number r.rev.revision (endOrder e b r.id (s.setRun b (fun _ => r.close st reason s.now))))).setRun b
      (fun x => { x with soilAdded := r.rise st reason s.now s.clean[b].hygiene }))

/-- What the end of a bay's run may change before its release is handed on. -/
def Parts.endingRun (b : BayId) : Parts :=
  { claim := (· = b), line := (· = b), drops := fun d _ => d = b, grace := (· = b), go := (· = b), store := True, lib := True, run := (· = b),
    runEnd := (· = b), cleaning := (· = b), hygiene := (· = b), latch := (· = b), cond := (· = b), calls := True, flow := fun _ => True }

theorem Parts.endingRun_endRun (b : BayId) : (Parts.endingRun b).EndRun b :=
  ⟨⟨rfl, rfl, rfl, rfl, fun _ => trivial⟩, fun _ => rfl, rfl, rfl, trivial, ⟨rfl, trivial, ⟨rfl, trivial⟩, rfl⟩, rfl⟩

section

variable {s : State} {b : BayId} {r : Run}

theorem endRun_of_live (h : liveRun s b = some r) (st : RunState) (reason : RunReason) (e : EndOrder) (o : HandOn) : endRun b st reason e o s =
    queueNotice .runEnd [bayTok b, .num r.id, wd (outcomeWord st), wd reason.word, .num r.number, .num r.rev.revision, .num r.stepIndex,
      .num (r.rise st reason s.now s.clean[b].hygiene)] (handOn o b (settledRun b st reason e r s)) := by
  unfold endRun
  rw [h]
  rfl

theorem settledRun_touches (b : BayId) (st : RunState) (reason : RunReason) (e : EndOrder) (r : Run) (s : State) :
    Touches (.endingRun b) s (settledRun b st reason e r s) := by
  have hb := Parts.endingRun_endRun b
  have hfinal := ((Touches.refl (m := .endingRun b) s).setRun (b := b) (f := fun _ => r.close st reason s.now) hb.orders.run (.inl hb.runEnd)).endOrder
    hb.orders hb.go hb.drops e r.id
  exact (((hfinal.releasePin hb.lib _ _).setHygiene hb.soiling _).setRun hb.orders.run (.inl hb.runEnd)).release hb.claim

/-- R83: the record of a run that has become final. -/
theorem settledRun_run (h : s.runs.runs[b] = some r) (st : RunState) (reason : RunReason) (e : EndOrder) : ∃ id sp,
    (settledRun b st reason e r s).runs.runs[b] =
      some { r.close st reason s.now with orderedId := id, setpoint := sp, soilAdded := r.rise st reason s.now s.clean[b].hygiene } := by
  have hfinal : (s.setRun b (fun _ => r.close st reason s.now)).runs.runs[b] = some (r.close st reason s.now) := by
    rw [setRun_run, h]
    rfl
  have hplaced := (Touches.refl (m := { Parts.endingRun b with runEnd := fun _ => False }) (s.setRun b (fun _ => r.close st reason s.now))).endOrder
    (b := b) ⟨rfl, rfl, rfl, rfl, fun _ => trivial⟩ rfl (fun _ => rfl) e r.id
  have hsoiled := (hplaced.releasePin trivial r.number r.rev.revision).setHygiene (b := b) ⟨rfl, trivial, ⟨rfl, trivial⟩, rfl⟩
    (fun x => x.addSoil (runSoil (r.close st reason s.now)))
  obtain ⟨id, sp, hrun⟩ := run_of_job hfinal (hsoiled.runEnd b id)
  refine ⟨id, sp, ?_⟩
  rw [settledRun, release, State.setReg_runs, setRun_run, hrun, Option.map_some]

theorem settledRun_free (b : BayId) (st : RunState) (reason : RunReason) (e : EndOrder) (r : Run) (s : State) :
    (settledRun b st reason e r s).reg[b].activity = .nothing := congrArg RegBay.activity (setReg_same _ b _)

/-- R83, R89: the record of a run after its end, whatever its release brings. -/
theorem endRun_run (h : liveRun s b = some r) (st : RunState) (reason : RunReason) (e : EndOrder) (o : HandOn) : ∃ id sp,
    (endRun b st reason e o s).runs.runs[b] =
      some { r.close st reason s.now with orderedId := id, setpoint := sp, soilAdded := r.rise st reason s.now s.clean[b].hygiene } := by
  rw [endRun_of_live h]
  obtain ⟨id, sp, hrun⟩ := settledRun_run (liveRun_eq_some h).1 st reason e
  have hhanded := handOn_touches o b (settledRun b st reason e r s)
  generalize settledRun b st reason e r s = u at hrun hhanded
  obtain ⟨id', sp', hx⟩ := run_of_job hrun (hhanded.runEnd b not_false)
  exact ⟨id', sp', by rw [← hx]; exact ((Touches.refl (m := {}) _).queueNotice _ _).run b not_false⟩

theorem tells_endRun (h : liveRun s b = some r) (st : RunState) (reason : RunReason) (e : EndOrder) (o : HandOn) :
    Tells s (endRun b st reason e o s) .runEnd [bayTok b, .num r.id, wd (outcomeWord st), wd reason.word, .num r.number, .num r.rev.revision,
      .num r.stepIndex, .num (r.rise st reason s.now s.clean[b].hygiene)] := by
  rw [endRun_of_live h]
  exact (tells_queueNotice _ _ _).since ((settledRun_touches b st reason e r s).later.trans (handOn_touches o b _).later)

end

/-! ## A cleaning's end (R129) -/

/-- A cleaning that has become final, its bay released, before the release is handed on. -/
def settledClean (b : BayId) (st : CleanState) (o : CleanOutcome) (r : CleanReason) (safe : Bool) (s : State) : State :=
  release b (if safe then placeSafe b (dropHeldPhase b (s.setCleanRec b (fun x => x.close st o r s.now)))
    else dropHeldPhase b (s.setCleanRec b (fun x => x.close st o r s.now)))

/-- What the end of a bay's cleaning may change before its release is handed on. -/
def Parts.endingClean (b : BayId) : Parts :=
  { claim := (· = b), line := (· = b), drops := fun d _ => d = b, grace := (· = b), go := (· = b), run := (· = b), cleaning := (· = b), cleanEnd := (· = b),
    flow := fun _ => True }

theorem Parts.endingClean_endClean (b : BayId) : (Parts.endingClean b).EndClean b :=
  ⟨⟨rfl, rfl, rfl, rfl, fun _ => trivial⟩, fun _ => rfl, rfl, rfl, rfl⟩

section

variable {s : State} {b : BayId} {c : CleanRec}

theorem endClean_of_live (h : liveClean s b = some c) (st : CleanState) (oc : CleanOutcome) (r : CleanReason) (safe : Bool) (o : HandOn) :
    endClean b st oc r safe o s = queueNotice .cleanEnd [bayTok b, wd st.word, wd r.word, wd c.program.word, wd oc.word,
      .num (handOn o b (settledClean b st oc r safe s)).clean[b].hygiene.soil, .yn (handOn o b (settledClean b st oc r safe s)).clean[b].hygiene.rinseOwed]
      (handOn o b (settledClean b st oc r safe s)) := by
  unfold endClean
  rw [h]
  rfl

theorem settledClean_touches (b : BayId) (st : CleanState) (oc : CleanOutcome) (r : CleanReason) (safe : Bool) (s : State) :
    Touches (.endingClean b) s (settledClean b st oc r safe s) := by
  have hb := Parts.endingClean_endClean b
  have hclosed := ((Touches.refl (m := .endingClean b) s).setCleanRec (b := b) (f := fun x => x.close st oc r s.now) hb.orders.cleaning
    (.inl hb.cleanEnd)).dropHeldPhase (b := b) hb.orders.line
  refine Touches.release ?_ hb.claim
  split
  · exact hclosed.placeSafe hb.orders hb.go hb.drops
  · exact hclosed

/-- R129: the record of a cleaning that has become final. -/
theorem settledClean_record (h : s.clean[b].record = some c) (st : CleanState) (oc : CleanOutcome) (r : CleanReason) (safe : Bool) : ∃ id,
    (settledClean b st oc r safe s).clean[b].record = some { c.close st oc r s.now with orderedId := id } := by
  have hfinal : (s.setCleanRec b (fun x => x.close st oc r s.now)).clean[b].record = some (c.close st oc r s.now) := by
    rw [setCleanRec_record, h]
    rfl
  have hdropped := (Touches.refl (m := { Parts.endingClean b with cleanEnd := fun _ => False }) (s.setCleanRec b (fun x => x.close st oc r s.now))).dropHeldPhase
    (b := b) rfl
  refine record_of_job hfinal (Touches.cleanEnd (m := { Parts.endingClean b with cleanEnd := fun _ => False }) ?_ b id)
  refine Touches.release ?_ rfl
  split
  · exact hdropped.placeSafe ⟨rfl, rfl, rfl, rfl, fun _ => trivial⟩ rfl fun _ => rfl
  · exact hdropped

theorem settledClean_free (b : BayId) (st : CleanState) (oc : CleanOutcome) (r : CleanReason) (safe : Bool) (s : State) :
    (settledClean b st oc r safe s).reg[b].activity = .nothing := congrArg RegBay.activity (setReg_same _ b _)

/-- What is told of a cleaning's end. -/
theorem tells_endClean (h : liveClean s b = some c) (st : CleanState) (oc : CleanOutcome) (r : CleanReason) (safe : Bool) (o : HandOn) :
    Tells s (endClean b st oc r safe o s) .cleanEnd [bayTok b, wd st.word, wd r.word, wd c.program.word, wd oc.word, .num s.clean[b].hygiene.soil,
      .yn s.clean[b].hygiene.rinseOwed] := by
  have hsettled := settledClean_touches b st oc r safe s
  have hhanded := handOn_touches o b (settledClean b st oc r safe s)
  rw [endClean_of_live h, hhanded.hygiene b id, hsettled.hygiene b id]
  exact (tells_queueNotice _ _ _).since (hsettled.later.trans hhanded.later)

/-- The end of a cleaning leaves the soil and the detergent as they are. -/
theorem endClean_hygiene (st : CleanState) (oc : CleanOutcome) (r : CleanReason) (safe : Bool) (o : HandOn) (d : BayId) :
    (endClean b st oc r safe o s).clean[d].hygiene = s.clean[d].hygiene := by
  cases hc : liveClean s b with
  | none => rw [endClean, hc]
  | some c =>
    rw [endClean_of_live hc]
    refine (((Touches.refl (m := {}) _).queueNotice _ _).hygiene d id).trans ?_
    rw [(handOn_touches o b _).hygiene d id, (settledClean_touches b st oc r safe s).hygiene d id]

/-- R129: the record of a cleaning after its end on a bay with no window cleaning pending. -/
theorem endClean_record (h : liveClean s b = some c) (hp : s.clean[b].pendingWindow = none) (st : CleanState) (oc : CleanOutcome) (r : CleanReason)
    (safe : Bool) (o : HandOn) : ∃ id, (endClean b st oc r safe o s).clean[b].record = some { c.close st oc r s.now with orderedId := id } := by
  rw [endClean_of_live h]
  obtain ⟨id, hrec⟩ := settledClean_record (liveClean_eq_some h).1 st oc r safe
  have hpending : (settledClean b st oc r safe s).clean[b].pendingWindow = none :=
    (congrArg Prod.fst ((settledClean_touches b st oc r safe s).clean b not_false)).trans hp
  have hhanded := handOn_passing hpending o
  generalize settledClean b st oc r safe s = u at hrec hhanded
  exact ⟨id, (((Touches.refl (m := {}) _).queueNotice _ _).cleaning b not_false).trans ((hhanded.cleaning b not_false).trans hrec)⟩

end

/-! ## A transfer's end (R180) -/

section

variable {s : State} {c : Fin 4} {b : BayId}

/-- The release of a transfer's bay is handed on once all else is done. -/
theorem endTransfer_handOn (c : Fin 4) (b : BayId) (p : Progress) (judge : Bool) (o : HandOn) (s : State) :
    endTransfer c b p judge o s = handOn o b (endTransfer c b p judge .later s) := rfl

/-- What the end of a bay's transfer may change before its release is handed on. -/
def Parts.endingTransfer (b : BayId) (c : Fin 4) : Parts :=
  { claim := (· = b), line := (· = b), drops := fun d _ => d = b, grace := (· = b), go := (· = b), store := True, run := (· = b), cleaning := (· = b),
    latch := (· = b), hold := (· = b), calls := True, flow := fun _ => True, chan := (· = c), opens := (· = c), slots := True }

theorem Parts.endingTransfer_endTransfer (b : BayId) (c : Fin 4) : (Parts.endingTransfer b c).EndTransfer b c :=
  ⟨⟨rfl, rfl, rfl, rfl, fun _ => trivial⟩, fun _ => rfl, rfl, rfl, rfl, trivial, ⟨rfl, trivial⟩, rfl, rfl, trivial⟩

theorem endTransfer_touches (c : Fin 4) (b : BayId) (p : Progress) (judge : Bool) (s : State) :
    Touches (.endingTransfer b c) s (endTransfer c b p judge .later s) := (Touches.refl s).endTransfer (Parts.endingTransfer_endTransfer b c) (.inl rfl) p judge

/-- The entry takes its final value, and the transfer's deadlines stop. -/
def stoppedTransfer (c : Fin 4) (b : BayId) (p : Progress) (s : State) : State :=
  ((setProgress c b p s).setChannel c (fun x => { x with ackDue := none, offerDue := none, delivered := [] })).setLine b
    (fun l => { l with grace := none, held := l.held.map HeldOrder.disown })

/-- The orders of a transfer that ends are withdrawn, its DISCARD-IMAGE is placed and its failure reported, where its reason has them. -/
def withdrawnTransfer (c : Fin 4) (b : BayId) (p : Progress) (s : State) : State :=
  let t := withdraw b [.block, .applyOffer, .applyGo] (stoppedTransfer c b p s)
  let u := if p.failedWith FailReason.discards then placeOrder b .discardImage .plain t else t
  if p.failedWith FailReason.reports then report b .updateFailed u else u

/-- The bay of a transfer that ends is no longer the current one. -/
def leftTransfer (c : Fin 4) (b : BayId) (p : Progress) (s : State) : State :=
  (withdrawnTransfer c b p s).setChannel c (fun x => { x with current := none })

theorem endTransfer_eq (c : Fin 4) (b : BayId) (p : Progress) (judge : Bool) (s : State) : endTransfer c b p judge .later s =
    if decide (s.dist.channels[c].progress[b] = .applying) then
      actDeferred b (release b (if judge then judgeDone c (transferNotice c b p (leftTransfer c b p s)) else transferNotice c b p (leftTransfer c b p s)))
    else release b (if judge then judgeDone c (transferNotice c b p (leftTransfer c b p s)) else transferNotice c b p (leftTransfer c b p s)) := rfl

/-- What follows once the bay is no longer the current one. -/
def Parts.leaving (b : BayId) (c : Fin 4) : Parts :=
  { claim := (· = b), store := True, hold := (· = b), flow := (· = c), chan := (· = c), slots := True }

theorem leftTransfer_after (c : Fin 4) (b : BayId) (p : Progress) (judge : Bool) (s : State) :
    Touches (.leaving b c) (transferNotice c b p (leftTransfer c b p s)) (endTransfer c b p judge .later s) := by
  have hjudged : Touches (.leaving b c) (transferNotice c b p (leftTransfer c b p s)) (release b
      (if judge = true then judgeDone c (transferNotice c b p (leftTransfer c b p s)) else transferNotice c b p (leftTransfer c b p s))) := by
    refine Touches.release ?_ rfl
    split
    · exact (Touches.refl _).judgeDone rfl rfl trivial
    · exact Touches.refl _
  rw [endTransfer_eq]
  split
  · exact hjudged.actDeferred rfl trivial
  · exact hjudged

/-- What the withdrawal of a transfer's orders may change, with its failure. -/
def Parts.withdrawing (b : BayId) : Parts :=
  { line := (· = b), drops := fun d k => d = b ∧ k ≠ .discardImage, grace := (· = b), run := (· = b), cleaning := (· = b), latch := (· = b), calls := True,
    flow := fun _ => True }

theorem withdraw_withdrawing (b : BayId) (s : State) : Touches (.withdrawing b) s (withdraw b [.block, .applyOffer, .applyGo] s) :=
  (Touches.refl s).withdraw ⟨rfl, rfl, rfl, rfl, fun _ => trivial⟩ (by simp [Parts.withdrawing])

/-- What follows once the transfer's orders are withdrawn. -/
def Parts.failing (b : BayId) : Parts := { line := (· = b), latch := (· = b), calls := True }

theorem withdrawnTransfer_after (c : Fin 4) (b : BayId) (p : Progress) (s : State) :
    Touches (.failing b) (withdraw b [.block, .applyOffer, .applyGo] (stoppedTransfer c b p s)) (withdrawnTransfer c b p s) := by
  have hdiscarded : Touches (.failing b) (withdraw b [.block, .applyOffer, .applyGo] (stoppedTransfer c b p s))
      (if p.failedWith FailReason.discards = true then placeOrder b .discardImage .plain (withdraw b [.block, .applyOffer, .applyGo] (stoppedTransfer c b p s))
        else withdraw b [.block, .applyOffer, .applyGo] (stoppedTransfer c b p s)) := by
    split
    · exact (Touches.refl _).placePlain rfl _
    · exact Touches.refl _
  unfold withdrawnTransfer
  dsimp only
  split
  · exact hdiscarded.report ⟨rfl, trivial⟩ _
  · exact hdiscarded

theorem Channel.progress_of_job {x y : Channel} (h : x.job = y.job) : x.progress = y.progress ∧ x.current = y.current ∧ x.state = y.state := by
  simp only [Channel.job, Prod.mk.injEq] at h
  tauto

/-- R180: what an ended transfer leaves of its entry. -/
theorem withdrawnTransfer_entry (c : Fin 4) (b : BayId) (p : Progress) (s : State) : (withdrawnTransfer c b p s).dist.channels[c].progress[b] = p := by
  have hstopped : (stoppedTransfer c b p s).dist.channels[c].progress[b] = p := by
    rw [stoppedTransfer, State.setLine_dist, State.setChannel_dist, upd_same, setProgress, State.setChannel_dist, upd_same]
    exact upd_same _ _ _
  rw [(Channel.progress_of_job ((withdrawnTransfer_after c b p s).chan c id)).1,
    (Channel.progress_of_job ((withdraw_withdrawing b (stoppedTransfer c b p s)).chan c id)).1, hstopped]

theorem leftTransfer_entry (c : Fin 4) (b : BayId) (p : Progress) (s : State) :
    (leftTransfer c b p s).dist.channels[c].progress[b] = p ∧ (leftTransfer c b p s).dist.channels[c].current = none := by
  rw [leftTransfer, State.setChannel_dist, upd_same]
  exact ⟨withdrawnTransfer_entry c b p s, rfl⟩

/-- R180: the entry of a transfer that has ended stays as it is. -/
theorem endTransfer_entry {p : Progress} (hp : p.settled = true) (c : Fin 4) (b : BayId) (judge : Bool) (o : HandOn) (s : State) :
    (endTransfer c b p judge o s).dist.channels[c].progress[b] = p ∧ (endTransfer c b p judge o s).dist.channels[c].current ≠ some b := by
  obtain ⟨hentry, hcurrent⟩ := leftTransfer_entry c b p s
  have hpast : (leftTransfer c b p s).dist.channels[c].past b := ⟨by rw [hentry]; exact hp, by rw [hcurrent]; nofun⟩
  have htold := (Touches.refl (m := .leaving b c) (leftTransfer c b p s)).transferNotice c b p
  obtain ⟨hsame, -, hother⟩ := ((htold.trans (leftTransfer_after c b p judge s)).past c id b hpast)
  rw [endTransfer_handOn]
  have hhanded := (handOn_touches o b (endTransfer c b p judge .later s)).past c id b ⟨by rw [hsame, hentry]; exact hp, hother⟩
  exact ⟨hhanded.1.trans (hsame.trans hentry), hhanded.2.2⟩

/-- R180: the entry is told to the host. -/
theorem tells_endTransfer (c : Fin 4) (b : BayId) (p : Progress) (judge : Bool) (o : HandOn) (s : State) :
    Tells s (endTransfer c b p judge o s) .transfer ([.num (c.val + 1), bayTok b] ++ p.toks ++ (match p with | .failed _ => [] | _ => [noneTok])) := by
  rw [endTransfer_handOn]
  have hdrawn : Later s (withdrawnTransfer c b p s) := Later.trans (t := stoppedTransfer c b p s) ⟨rfl, rfl, List.prefix_rfl, id⟩
    ((withdraw_withdrawing b _).later.trans (withdrawnTransfer_after c b p s).later)
  have hbefore : Later s (leftTransfer c b p s) := hdrawn.trans ⟨rfl, rfl, List.prefix_rfl, id⟩
  exact (((tells_queueNotice _ _ _).since hbefore).mono (leftTransfer_after c b p judge s).later).mono (handOn_touches o b _).later

/-- R180: the bay is free, until its release is handed on. -/
theorem endTransfer_free (c : Fin 4) (b : BayId) (p : Progress) (judge : Bool) (s : State) :
    (endTransfer c b p judge .later s).reg[b].activity = .nothing := by
  have hfree : ∀ u : State, (release b u).reg[b].activity = .nothing := fun u => congrArg RegBay.activity (setReg_same _ b _)
  rw [endTransfer_eq]
  split
  · exact (((Touches.refl (m := { hold := (· = b), store := True }) _).actDeferred rfl trivial).claim b id).trans (hfree _)
  · exact hfree _

/-! ### The order queue of a bay whose transfer has ended -/

/-- A bay's line with no order of some kinds. -/
def LineBay.without (kinds : List OrderKind) (l : LineBay) : LineBay :=
  { l with queue := l.queue.filter (fun o => !kinds.any (fun k => o.body.is k)), held := l.held.filter (fun h => !kinds.any (fun k => h.body.is k)) }

theorem withdraw_eq (b : BayId) (kinds : List OrderKind) (s : State) : withdraw b kinds s = offerHeld b (s.setLine b (LineBay.without kinds)) := rfl

/-- An APPLY-GO that is withdrawn is held no more, and its deadline is not loaded. -/
theorem withdraw_go (b : BayId) {kinds : List OrderKind} (hk : .applyGo ∈ kinds) (s : State) :
    (withdraw b kinds s).line.bays[b].timers = s.line.bays[b].timers ∧ NoGoHeld (withdraw b kinds s).line.bays[b] := by
  have hheld : NoGoHeld (s.setLine b (LineBay.without kinds)).line.bays[b] := by
    rw [State.setLine_line, upd_same]
    intro h hh hgo
    have hkept := (List.mem_filter.1 hh).2
    rw [Bool.not_eq_true', List.any_eq_false] at hkept
    exact hkept _ hk (decide_eq_true hgo)
  have hoffered := ((Touches.refl (m := { line := (· = b), grace := (· = b), run := (· = b), cleaning := (· = b), flow := fun _ => True })
    (s.setLine b (LineBay.without kinds))).offerHeld (b := b) ⟨rfl, rfl, rfl, rfl, fun _ => trivial⟩).go b id hheld
  refine ⟨hoffered.1.trans ?_, hoffered.2⟩
  rw [State.setLine_line, upd_same]
  rfl

/-- R180, R29: the apply-grace deadline of a transfer that has ended. -/
theorem endTransfer_grace (c : Fin 4) (b : BayId) (p : Progress) (judge : Bool) (o : HandOn) (s : State) :
    (endTransfer c b p judge o s).line.bays[b].grace = none := by
  have hdrawn := withdraw_go b (kinds := [.block, .applyOffer, .applyGo]) (by simp) (stoppedTransfer c b p s)
  have hfailed := (withdrawnTransfer_after c b p s).go b id hdrawn.2
  have hleft := (leftTransfer_after c b p judge s).go b id
  have htold := ((Touches.refl (m := .leaving b c) (withdrawnTransfer c b p s)).setChannel (c := c) (f := fun x => { x with current := none }) rfl (.inl rfl)
    (.inr fun d hd => ⟨rfl, nofun⟩)).transferNotice c b p |>.go b id hfailed.2
  have hclosed := hleft htold.2
  have hhanded := (handOn_touches o b (endTransfer c b p judge .later s)).go b id hclosed.2
  have htimers := hhanded.1.trans (hclosed.1.trans (htold.1.trans (hfailed.1.trans hdrawn.1)))
  rw [endTransfer_handOn]
  have hgrace := congrArg (fun x : Nat × Option Nat × Nat × Bool => x.2.1) htimers
  refine hgrace.trans ?_
  show (stoppedTransfer c b p s).line.bays[b].grace = none
  rw [stoppedTransfer, State.setLine_line, upd_same]

theorem offerHeld_of_none {s : State} {b : BayId} (h : s.line.bays[b].held = []) : (offerHeld b s).line.bays[b].queue = s.line.bays[b].queue := by
  rw [offerHeld, h]
  show ((upd s.line.bays b (fun l => { l with held := [] }))[b]).queue = _
  rw [upd_same]

/-- What a withdrawal leaves of a queue where no order is held. -/
theorem withdraw_queue {s : State} {b : BayId} (h : s.line.bays[b].held = []) (kinds : List OrderKind) :
    (withdraw b kinds s).line.bays[b].queue = s.line.bays[b].queue.filter (fun o => !kinds.any (fun k => o.body.is k)) := by
  have hsame : (s.setLine b (LineBay.without kinds)).line.bays[b] = s.line.bays[b].without kinds := upd_same _ _ _
  rw [withdraw_eq, offerHeld_of_none (by rw [hsame, LineBay.without, h, List.filter_nil]), hsame]
  rfl

/-- R180 (3): DISCARD-IMAGE follows an ended transfer of these reasons. -/
theorem endTransfer_discards {s : State} {c : Fin 4} {b : BayId} {p : Progress} (hp : p.failedWith FailReason.discards = true)
    (hready : s.reg[b].state = .ready) (hheld : s.line.bays[b].held = []) (hq : s.line.bays[b].queue.length < 6) (judge : Bool) (o : HandOn) :
    ∃ x ∈ (endTransfer c b p judge o s).line.bays[b].queue, x.body = .discardImage := by
  have hstopped : (stoppedTransfer c b p s).line.bays[b] = { s.line.bays[b] with grace := none, held := [] } := by
    rw [stoppedTransfer, State.setLine_line, upd_same]
    show LineBay.mk _ (s.line.bays[b].held.map HeldOrder.disown) _ _ _ _ _ = _
    rw [hheld]
    rfl
  have hqueue := withdraw_queue (congrArg LineBay.held hstopped) [.block, .applyOffer, .applyGo]
  have hroom : (withdraw b [.block, .applyOffer, .applyGo] (stoppedTransfer c b p s)).line.bays[b].queue.length < 6 := by
    rw [hqueue, hstopped]
    exact (List.length_filter_le _ _).trans_lt hq
  have hstate : (withdraw b [.block, .applyOffer, .applyGo] (stoppedTransfer c b p s)).reg[b].state = .ready := by
    rw [(withdraw_withdrawing b _).reg b id]
    exact hready
  obtain ⟨x, hx, hbody⟩ := exists_mem_placeOrder (takesOrders_of_ready hstate) hroom .discardImage .plain
  have hkind : x.body.kind = .discardImage := congrArg OrderBody.kind (show x.body = .discardImage from hbody)
  have hplain : x.body.kind.coalesces = false := by rw [hkind]; rfl
  have hfailed : x ∈ (withdrawnTransfer c b p s).line.bays[b].queue := by
    rw [withdrawnTransfer, if_pos hp]
    split
    · exact ((Touches.refl (m := .failing b) _).report ⟨rfl, trivial⟩ _).stays b x hx id hplain
    · exact hx
  have hleft : x ∈ (leftTransfer c b p s).line.bays[b].queue := hfailed
  have htold := ((Touches.refl (m := .leaving b c) (leftTransfer c b p s)).transferNotice c b p).trans (leftTransfer_after c b p judge s)
  rw [endTransfer_handOn]
  refine ⟨x, (handOn_touches o b _).stays b x (htold.stays b x hleft id hplain) (fun hd => ?_) hplain, hbody⟩
  have := hkind.symm.trans hd.2
  cases this

/-- R180 (4): UPDATE_FAILED is latched for these reasons. -/
theorem endTransfer_reports {s : State} {c : Fin 4} {b : BayId} {p : Progress} (hp : p.failedWith FailReason.reports = true) (judge : Bool) (o : HandOn) :
    (endTransfer c b p judge o s).mon.bays[b].latches[EventKind.updateFailed.slot].set = true := by
  have hfailed : (withdrawnTransfer c b p s).mon.bays[b].latches[EventKind.updateFailed.slot].set = true := by
    rw [withdrawnTransfer, if_pos hp]
    exact report_sets _ _ _
  have htold := ((Touches.refl (m := .leaving b c) (leftTransfer c b p s)).transferNotice c b p).trans (leftTransfer_after c b p judge s)
  rw [endTransfer_handOn]
  exact (handOn_touches o b _).clears b id _ (htold.clears b id _ hfailed)

end

end Sys2Proof.Machine


/-! SUPPORT. The teardown of a bay (R21): the job it ends, and the bay that stays without one, without orders and without an allowance. -/

namespace Sys2Proof.Machine

set_option Elab.async false

open Sys2Proof

/-! ## A bay outside the allocation -/

/-- Nothing but HEAT-ALLOW 0 stands in the queue. -/
def OnlyAllowances (l : LineBay) : Prop := ∀ o ∈ l.queue, o.body = .heatAllow 0

/-- A bay that has no allowance, and no order but HEAT-ALLOW 0. -/
structure Bare (b : BayId) (s : State) : Prop where
  allowance : s.heat.bays[b].allowance = 0
  orders : OnlyAllowances s.line.bays[b]

/-- Such a bay that is not READY. -/
structure Idled (b : BayId) (s : State) : Prop extends Bare b s where
  cold : s.reg[b].state ≠ .ready

theorem mem_placeOrder_plain {b : BayId} {body : OrderBody} {s : State} {o : Order} (h : o ∈ (placeOrder b body .plain s).line.bays[b].queue) :
    o ∈ s.line.bays[b].queue ∨ o.body = body := by
  have hsame : ∀ f : LineBay → LineBay, (s.setLine b f).line.bays[b] = f s.line.bays[b] := fun f => upd_same _ _ _
  unfold placeOrder at h
  dsimp only at h
  split at h
  · split at h
    · rw [applyNote_plain, hsame] at h
      obtain ⟨x, hx, rfl⟩ := List.mem_map.1 h
      split
      · exact .inr rfl
      · exact .inl hx
    · split at h
      · rw [applyNote_plain, hsame] at h
        obtain h | h := List.mem_append.1 h
        · exact .inl h
        · exact .inr (by rw [List.mem_singleton.1 h])
      · rw [hsame] at h
        exact .inl h
  · exact .inl h

section

variable {b : BayId} {s t : State}

theorem Bare.touched {m : Parts} (hi : Bare b s) (h : Touches m s t) (hl : ¬ m.line b) (hs : ¬ m.shares) : Bare b t := by
  obtain ⟨hallow, horders⟩ := hi
  refine ⟨(congrArg Prod.fst ((h.shares hs).2 b)).trans hallow, ?_⟩
  rw [OnlyAllowances, show t.line.bays[b].queue = s.line.bays[b].queue from congrArg Prod.fst (h.line b hl)]
  exact horders

theorem Idled.touched {m : Parts} (hi : Idled b s) (h : Touches m s t) (hr : ¬ m.reg b) (hl : ¬ m.line b) (hs : ¬ m.shares) : Idled b t :=
  ⟨hi.toBare.touched h hl hs, by rw [h.reg b hr]; exact hi.cold⟩

theorem sendAllowance_bare (hi : Bare b s) (d : BayId) : Bare b (sendAllowance d s) := by
  obtain ⟨hallow, horders⟩ := id hi
  unfold sendAllowance
  dsimp only
  split
  · by_cases hd : d = b
    · subst hd
      rw [hallow]
      refine ⟨?_, fun o ho => ?_⟩
      · rw [State.setHeat_heat, upd_same, placeOrder_heat]
        exact hallow
      · rw [State.setHeat_line] at ho
        obtain ho | ho := mem_placeOrder_plain ho
        · exact horders o ho
        · exact ho
    · have hplaced := (Touches.refl (m := { line := (· = d) }) s).placePlain (b := d) rfl (.heatAllow s.heat.bays[d].allowance)
      have hsent := hi.touched hplaced (fun e => hd e.symm) id
      exact ⟨(congrArg HeatBay.allowance (upd_other _ _ _ _ fun e => hd e.symm)).trans hsent.allowance, hsent.orders⟩
  · exact hi

/-- R113: a bay that is outside the allocation has no allowance after a recompute. -/
theorem recomputeBut_bare {out : Option BayId} (hclass : classIn s out b = none) (horders : OnlyAllowances s.line.bays[b]) :
    Bare b (recomputeBut out s) := by
  unfold recomputeBut
  refine State.each_keeps (Bare b) _ _ (fun d u hu => sendAllowance_bare hu d) _ ⟨?_, horders⟩
  show ((Vector.ofFn (fun d => allot s out (divisionOf s out) d s.heat.bays[d]))[b]).allowance = 0
  rw [Fin.getElem_fin, Vector.getElem_ofFn, allot_allowance, hclass]
  rfl

theorem heatClassOf_of_cold (h : s.reg[b].state ≠ .ready) : heatClassOf s b = none := if_neg fun hc => h hc.1

theorem Idled.recompute (hi : Idled b s) : Idled b (recompute s) :=
  ⟨recomputeBut_bare (by rw [classIn, if_neg nofun, heatClassOf_of_cold hi.cold]) hi.orders, by rw [(recompute_shared s).reg b id]; exact hi.cold⟩

theorem Idled.heatRelease (hi : Idled b s) (d : BayId) : Idled b (heatRelease d s) :=
  hi.recompute.touched ((Touches.refl (m := { heat := (· = d) }) _).setHeat rfl) id id id

theorem Idled.heatPower (hi : Idled b s) (d : BayId) : Idled b (heatPower d s) := by
  have hcleared := (Touches.refl (m := { heat := (· = d) }) s).setHeat (b := d) (f := fun h => { h with standbyRequested := false }) rfl
  unfold Machine.heatPower
  dsimp only
  refine Idled.recompute ?_
  split
  · exact hi.touched (hcleared.setHeat rfl) id id id
  · exact hi.touched hcleared id id id

theorem examineStandby_of_cold (h : s.reg[b].state ≠ .ready) : examineStandby b s = s := by
  cases hf : standbyFails s b with
  | none => exact absurd (ready_of_standby hf) h
  | some x => exact examineStandby_of_some hf

/-! ### Over the passes of a release -/

/-- What a visit of another bay may change where it begins no transfer. -/
def Parts.visiting (b : BayId) : Parts :=
  { line := (· ≠ b), claim := fun _ => True, heat := fun _ => True, flow := fun _ => True, chan := fun _ => True, slots := True, opens := fun _ => True }

theorem Idled.visited {m : State} (hi : Idled b s) (h : Touches (.visiting b) s m) : Idled b m := hi.touched h id (fun h => h rfl) id

/-- A transfer as it begins, before the allocation follows. -/
def begunTransfer (c : Fin 4) (b : BayId) (s : State) : State :=
  placeOrder b .discardImage (.discard c) (transferNotice c b .transferring (((setProgress c b .transferring s).setChannel c (fun x =>
    { x with current := some b, offset := 0, acked := 0, misses := 0, discardId := none, discardTaken := false, window := 1, delivered := [],
             lastEnd := 0, missSince := false, ackDue := none, offerDue := none })).setReg b (fun r => { r with activity := .update })))

theorem beginTransfer_eq (c : Fin 4) (b : BayId) (s : State) : beginTransfer c b s = Machine.recompute (begunTransfer c b s) := rfl

theorem begunTransfer_visiting {d : BayId} (hd : d ≠ b) (c : Fin 4) (s : State) : Touches (.visiting b) s (begunTransfer c d s) := by
  have hput := (Touches.refl (m := .visiting b) s).setProgress (c := c) (b := d) trivial trivial (.inl trivial) .transferring
  unfold begunTransfer
  generalize setProgress c d .transferring s = t at hput ⊢
  refine Touches.placeDiscard (Touches.transferNotice (Touches.setClaim (hput.setChannel trivial (.inl trivial) (.inl trivial)) ?_) c d _) hd trivial _
  trivial

theorem Idled.endWaiting (hi : Idled b s) (c : Fin 4) (d : BayId) (p : Progress) : Idled b (endWaiting c d p s) := by
  have hsettled := (Touches.refl (m := .visiting b) s).settleProgress (c := c) (b := d) trivial trivial (.inl trivial) p
  unfold Machine.endWaiting
  by_cases hd : d = b
  · subst hd
    rw [examineStandby_of_cold (hi.visited hsettled).cold]
    exact hi.visited hsettled
  · exact hi.visited (hsettled.examineStandby trivial hd)

theorem Idled.passVisit (hi : Idled b s) (released : Option BayId) (c : Fin 4) (d : BayId) : Idled b (passVisit released c d s) := by
  have hend := fun p => hi.endWaiting c d p
  have hput := (Touches.refl (m := .visiting b) s).setProgress (c := c) (b := d) trivial trivial (.inl trivial) .deferred
  unfold Machine.passVisit
  dsimp only
  split
  · split
    · exact hi
    · split
      · exact hend _
      · next hready =>
        have hd : d ≠ b := fun e => hready (e ▸ hi.cold)
        split
        · exact hend _
        · split
          · exact hend _
          · split
            · exact hi.visited hput
            · split
              · split
                · exact hi
                · exact hi.visited hput
              · split
                · exact hi.visited (hput.wakeCause trivial hd)
                · exact (hi.visited (begunTransfer_visiting hd c s)).recompute
  · exact hi

theorem Idled.pass (hi : Idled b s) (released : Option BayId) (c : Fin 4) : Idled b (pass released c s) := by
  have hvisits := State.each_keeps (Idled b) allBays (Machine.passVisit released c) (fun d _ hv => hv.passVisit released c d) _ hi
  unfold Machine.pass
  generalize s.each allBays (Machine.passVisit released c) = t at hvisits
  exact hvisits.visited ((Touches.refl t).judgeDone trivial trivial trivial)

theorem Idled.retryPasses (hi : Idled b s) (released : Option BayId) : Idled b (retryPasses released s) :=
  State.each_keeps (Idled b) allFour (Machine.pass released) (fun c _ hu => hu.pass released c) _ hi

/-- R20: the release of a bay that is not READY. -/
theorem Idled.handOn (hi : Idled b s) (o : HandOn) : Idled b (handOn o b s) := by
  have hretry : ∀ {u : State}, Idled b u → Idled b (retryPending b u) := fun {u} hu => by
    have hclean : Touches { clean := (· = b) } u (retryPending b u) := by
      unfold retryPending
      split
      · exact Touches.refl u
      · dsimp only
        split
        · exact (Touches.refl u).setClean rfl
        · rw [cleanCheck_of_claim (claimCheck_state (.inl hu.cold))]
          exact Touches.refl u
    exact hu.touched hclean id id id
  cases o with
  | later => exact hi
  | now =>
    rw [show Machine.handOn .now b s = retryPending b (Machine.retryPasses (some b) (Machine.heatRelease b s)) from rfl]
    exact hretry ((hi.heatRelease b).retryPasses _)
  | noPass =>
    rw [show Machine.handOn .noPass b s = retryPending b (Machine.heatRelease b s) from rfl]
    exact hretry (hi.heatRelease b)

end

/-! ## The job that a teardown ends (R21) -/

/-- The job of a bay whose oven has gone has ended by its owner. -/
structure JobEnded (s t : State) (b : BayId) (lost : Bool) : Prop where
  activity : t.reg[b].activity = .nothing
  run : ∀ r, liveRun s b = some r → ∃ x, t.runs.runs[b] = some x ∧ x.id = r.id ∧ x.state = .aborted ∧
    x.reason = (if lost then .ovenLost else .ovenRemoved)
  cleaning : ∀ c, liveClean s b = some c → ∃ x, t.clean[b].record = some x ∧ x.program = c.program ∧ x.state = .interrupted ∧
    x.reason = (if lost then .ovenLost else .ovenRemoved)
  rinseOwed : t.clean[b].hygiene.rinseOwed = s.clean[b].hygiene.rinseOwed
  transfer : ∀ c : Fin 4, s.dist.channels[c].current = some b →
    t.dist.channels[c].current ≠ some b ∧ t.dist.channels[c].progress[b] = .failed .removed

section

variable {b : BayId} {s t u : State} {lost : Bool} {r : Run} {c : CleanRec}

/-- What of a state a bay's job is a matter of. -/
structure SameJob (s t : State) (b : BayId) : Prop where
  activity : t.reg[b].activity = s.reg[b].activity
  run : t.runs.runs[b] = s.runs.runs[b]
  record : t.clean[b].record = s.clean[b].record
  hygiene : t.clean[b].hygiene = s.clean[b].hygiene
  channels : ∀ c : Fin 4, t.dist.channels[c] = s.dist.channels[c]

theorem Touches.sameJob {m : Parts} (h : Touches m s t) (hc : ¬ m.claim b) (hr : ¬ m.run b) (hk : ¬ m.cleaning b) (hh : ¬ m.hygiene b) (hf : ∀ c, ¬ m.flow c) :
    SameJob s t b := ⟨h.claim b hc, h.run b hr, h.cleaning b hk, h.hygiene b hh, fun c => h.flow c (hf c)⟩

theorem SameJob.liveRun (h : SameJob s t b) : liveRun t b = liveRun s b := by rw [Machine.liveRun, Machine.liveRun, h.run]

theorem SameJob.liveClean (h : SameJob s t b) : liveClean t b = liveClean s b := by rw [Machine.liveClean, Machine.liveClean, h.record]

theorem SameJob.jobOf (h : SameJob s t b) (hj : JobOf s b) : JobOf t b := by
  obtain ⟨hcook, hclean, hupdate, hentry, hrunning, honly⟩ := hj
  constructor <;> simp only [h.activity, h.liveRun, h.liveClean, h.channels] <;> assumption

theorem JobEnded.of_same (h : JobEnded u t b lost) (hs : SameJob s u b) : JobEnded s t b lost := by
  obtain ⟨hactivity, hrun, hclean, howed, htransfer⟩ := h
  rw [hs.liveRun] at hrun
  rw [hs.liveClean] at hclean
  rw [hs.hygiene] at howed
  simp only [hs.channels] at htransfer
  exact ⟨hactivity, hrun, hclean, howed, htransfer⟩

theorem JobEnded.touched {m : Parts} (h : JobEnded s u b lost) (ht : Touches m u t) (hc : ¬ m.claim b) (hr : ¬ m.runEnd b) (hk : ¬ m.cleanEnd b)
    (hh : ¬ m.hygiene b) (ho : ∀ c, ¬ m.opens c) : JobEnded s t b lost := by
  obtain ⟨hactivity, hrun, hclean, howed, htransfer⟩ := h
  refine ⟨(ht.claim b hc).trans hactivity, fun r hl => ?_, fun c hl => ?_, by rw [ht.hygiene b hh]; exact howed, fun c hcur => ?_⟩
  · obtain ⟨x, hx, hid, hst, hreason⟩ := hrun r hl
    obtain ⟨id, sp, hy⟩ := run_of_job hx (ht.runEnd b hr)
    exact ⟨_, hy, hid, hst, hreason⟩
  · obtain ⟨x, hx, hp, hst, hreason⟩ := hclean c hl
    obtain ⟨id, hy⟩ := record_of_job hx (ht.cleanEnd b hk)
    exact ⟨_, hy, hp, hst, hreason⟩
  · obtain ⟨hcurrent, hentry⟩ := htransfer c hcur
    obtain ⟨hsame, hpast⟩ := ht.past c (ho c) b ⟨by rw [hentry]; rfl, hcurrent⟩
    exact ⟨hpast.2, hsame.trans hentry⟩

theorem channelOf_current {c : Fin 4} (h : channelOf s b = some c) : s.dist.channels[c].current = some b := by
  have := List.find?_some h
  simpa [-Fin.getElem_fin] using this

theorem channelOf_of_current {c : Fin 4} (hj : JobOf s b) (h : s.dist.channels[c].current = some b) : channelOf s b = some c := by
  cases hc : channelOf s b with
  | none =>
    have := List.find?_eq_none.1 hc c (by rw [allFour]; exact List.mem_finRange c)
    simp_all [-Fin.getElem_fin]
  | some d => rw [hj.only c d h (channelOf_current hc)]

theorem addSoil_rinseOwed (h : Hygiene) (n : Nat) : (h.addSoil n).rinseOwed = h.rinseOwed := rfl

theorem setHygiene_other (f : Hygiene → Hygiene) (h : ∀ x, (f x).rinseOwed = x.rinseOwed) (d : BayId) (s : State) :
    (setHygiene b f s).clean[d].hygiene.rinseOwed = s.clean[d].hygiene.rinseOwed := by
  by_cases hd : d = b
  · subst hd
    rw [setHygiene_clean_same]
    exact h _
  · rw [setHygiene_clean_other b d f s hd]

/-- The soil that a run gives leaves RINSE_OWED as it stood. -/
theorem settledRun_rinseOwed (b : BayId) (st : RunState) (reason : RunReason) (e : EndOrder) (r : Run) (s : State) :
    (settledRun b st reason e r s).clean[b].hygiene.rinseOwed = s.clean[b].hygiene.rinseOwed := by
  have hplaced := ((Touches.refl (m := { Parts.endingRun b with hygiene := fun _ => False }) (s.setRun b (fun _ => r.close st reason s.now))).endOrder
    (b := b) ⟨rfl, rfl, rfl, rfl, fun _ => trivial⟩ rfl (fun _ => rfl) e r.id).releasePin trivial r.number r.rev.revision |>.hygiene b id
  rw [settledRun, release, State.setReg_clean, State.setRun_clean, setHygiene_other (h := fun x => addSoil_rinseOwed x _), hplaced, State.setRun_clean]

theorem endRun_later_touches (h : liveRun s b = some r) (st : RunState) (reason : RunReason) (e : EndOrder) :
    Touches {} (settledRun b st reason e r s) (endRun b st reason e .later s) := by
  rw [endRun_of_live h]
  exact (Touches.refl _).queueNotice _ _

theorem endClean_later_touches (h : liveClean s b = some c) (st : CleanState) (oc : CleanOutcome) (r : CleanReason) (safe : Bool) :
    Touches {} (settledClean b st oc r safe s) (endClean b st oc r safe .later s) := by
  rw [endClean_of_live h]
  exact (Touches.refl _).queueNotice _ _

/-- R83: what becoming final leaves of a run's record. -/
theorem Run.close_eq (r : Run) (st : RunState) (reason : RunReason) (now : Nat) : ∃ n, r.close st reason now =
    { r with state := st, reason := reason, ended := some (now / 1000), elapsed := r.elapsed.stop now, wakeDue := none, graceDue := none, prompt := none,
             maxDue := none, runawayDue := none, sample := none, latestCore := none, pauseTotal := n } := by
  unfold Run.close Run.countPause
  split <;> exact ⟨_, rfl⟩

/-- R21 (2): the job holding the bay is ended by its owner. -/
theorem endJobTorn_ended (hj : JobOf s b) (lost : Bool) : JobEnded s (endJobTorn b lost s) b lost := by
  obtain ⟨hcook, hclean, hupdate, -, -, honly⟩ := id hj
  unfold endJobTorn
  split
  · next hnone =>
    refine ⟨hnone, fun r hr => ?_, fun c hc => ?_, rfl, fun c hc => ?_⟩
    · rw [hnone, hr] at hcook
      exact absurd (hcook.2 rfl) nofun
    · rw [hnone, hc] at hclean
      exact absurd (hclean.2 rfl) nofun
    · rw [hnone] at hupdate
      exact absurd (hupdate.2 ⟨c, hc⟩) nofun
  · next hrunning =>
    obtain ⟨r, hr⟩ := Option.isSome_iff_exists.1 (hcook.1 hrunning)
    have hsettled := endRun_later_touches hr .aborted (if lost then .ovenLost else .ovenRemoved) .nothing
    obtain ⟨id, sp, hrec⟩ := settledRun_run (liveRun_eq_some hr).1 .aborted (if lost then .ovenLost else .ovenRemoved) .nothing
    refine JobEnded.touched ⟨settledRun_free b _ _ _ r s, fun x hx => ?_, fun c hc => ?_, settledRun_rinseOwed b _ _ _ r s, fun c hc => ?_⟩ hsettled
      not_false not_false not_false not_false fun _ => not_false
    · obtain rfl := Option.some_inj.1 (hr.symm.trans hx)
      obtain ⟨n, hclose⟩ := r.close_eq .aborted (if lost then .ovenLost else .ovenRemoved) s.now
      rw [hclose] at hrec
      exact ⟨_, hrec, rfl, rfl, rfl⟩
    · rw [hrunning, hc] at hclean
      exact absurd (hclean.2 rfl) nofun
    · rw [hrunning] at hupdate
      exact absurd (hupdate.2 ⟨c, hc⟩) nofun
  · next hcleaning =>
    obtain ⟨c, hc⟩ := Option.isSome_iff_exists.1 (hclean.1 hcleaning)
    have hsettled := endClean_later_touches hc .interrupted .nothing (if lost then .ovenLost else .ovenRemoved) false
    obtain ⟨id, hrec⟩ := settledClean_record (liveClean_eq_some hc).1 .interrupted .nothing (if lost then .ovenLost else .ovenRemoved) false
    refine JobEnded.touched ⟨settledClean_free b _ _ _ _ s, fun x hx => ?_, fun x hx => ?_,
      congrArg Hygiene.rinseOwed ((settledClean_touches b _ _ _ _ s).hygiene b not_false), fun d hd => ?_⟩ hsettled
      not_false not_false not_false not_false fun _ => not_false
    · rw [hcleaning, hx] at hcook
      exact absurd (hcook.2 rfl) nofun
    · obtain rfl := Option.some_inj.1 (hc.symm.trans hx)
      exact ⟨_, hrec, rfl, rfl, rfl⟩
    · rw [hcleaning] at hupdate
      exact absurd (hupdate.2 ⟨d, hd⟩) nofun
  · next htransfer =>
    obtain ⟨c, hc⟩ := hupdate.1 htransfer
    rw [channelOf_of_current hj hc]
    dsimp only
    obtain ⟨hentry, hcurrent⟩ := endTransfer_entry (p := .failed .removed) rfl c b true .later s
    refine ⟨endTransfer_free c b _ true s, fun x hx => ?_, fun x hx => ?_,
      congrArg Hygiene.rinseOwed ((endTransfer_touches c b _ true s).hygiene b not_false), fun d hd => ?_⟩
    · rw [htransfer, hx] at hcook
      exact absurd (hcook.2 rfl) nofun
    · rw [htransfer, hx] at hclean
      exact absurd (hclean.2 rfl) nofun
    · obtain rfl := honly c d hc hd
      exact ⟨hcurrent, hentry⟩

/-! ## The teardown (R21) -/

theorem abandonContext_reg (b : BayId) (s : State) : (abandonContext b s).reg[b] = { s.reg[b] with context := none } := by
  unfold abandonContext
  split
  · rw [((Touches.refl (m := .alarm b) _).report (Parts.alarm_alarm b) _).reg_same id id, setReg_same]
  · next h => rw [← h]

theorem abandonContext_touches (b : BayId) (s : State) : Touches { Parts.alarm b with reg := (· = b) } s (abandonContext b s) := by
  unfold abandonContext
  split
  · exact ((Touches.refl s).setReg rfl).report ⟨rfl, trivial⟩ _
  · exact Touches.refl s

/-- The bay with its job ended, its queue empty and its counts at 0, before it is taken out of the allocation. -/
def strippedBay (b : BayId) (lost : Bool) (s : State) : State :=
  clearStarvation b (((emptyQueue b (endJobTorn b lost (abandonContext b s))).setLine b (fun l => { l with misses := 0, grace := none })).setReg b
    (fun r => { r with pollCount := 0, stepCheck := false }))

theorem teardown_eq (b : BayId) (lost : Bool) (s : State) : teardown b lost s = recomputeBut (some b) (strippedBay b lost s) := rfl

theorem Touches.graceDue {m : Parts} (h : Touches m s t) (hb : ¬ m.grace b) : t.line.bays[b].grace = s.line.bays[b].grace :=
  congrArg (fun x : Nat × Option Nat × Nat × Bool => x.2.1) (h.grace b hb)

theorem endJobTorn_reg (b : BayId) (lost : Bool) (s : State) : (endJobTorn b lost s).reg[b] = { s.reg[b] with activity := (endJobTorn b lost s).reg[b].activity } :=
  ((Touches.refl (m := { Parts.all with reg := fun _ => False }) s).endJobTorn (b := b) ⟨
    ⟨⟨trivial, trivial, trivial, trivial, fun _ => trivial⟩, fun _ => trivial, trivial, trivial, trivial, ⟨trivial, trivial, ⟨trivial, trivial⟩, trivial⟩, trivial⟩,
    ⟨⟨trivial, trivial, trivial, trivial, fun _ => trivial⟩, fun _ => trivial, trivial, trivial, trivial⟩,
    fun _ => ⟨⟨trivial, trivial, trivial, trivial, fun _ => trivial⟩, fun _ => trivial, trivial, trivial, trivial, trivial, ⟨trivial, trivial⟩, trivial, trivial, trivial⟩⟩
    lost).reg b id

/-- What a stripped bay keeps of its job's end. -/
theorem strippedBay_after (b : BayId) (lost : Bool) (s : State) :
    Touches { reg := (· = b), line := (· = b), drops := fun d _ => d = b, grace := (· = b), go := (· = b), misses := (· = b), heat := (· = b), shares := True }
      (endJobTorn b lost (abandonContext b s)) (strippedBay b lost s) :=
  ((((Touches.refl _).emptyQueue rfl fun _ => rfl).setTimers rfl rfl (hm := .inl rfl)).setReg rfl).clearStarvation rfl trivial

theorem strippedBay_reg (b : BayId) (lost : Bool) (s : State) : (strippedBay b lost s).reg[b] =
    { s.reg[b] with activity := (endJobTorn b lost (abandonContext b s)).reg[b].activity, context := none, pollCount := 0, stepCheck := false } := by
  have hset : (strippedBay b lost s).reg[b] = { (endJobTorn b lost (abandonContext b s)).reg[b] with pollCount := 0, stepCheck := false } := setReg_same _ b _
  rw [hset, endJobTorn_reg, abandonContext_reg]

theorem strippedBay_line (b : BayId) (lost : Bool) (s : State) : (strippedBay b lost s).line.bays[b].queue = [] ∧
    (strippedBay b lost s).line.bays[b].misses = 0 ∧ (strippedBay b lost s).line.bays[b].grace = none := by
  have hset : (strippedBay b lost s).line.bays[b] =
      { (emptyQueue b (endJobTorn b lost (abandonContext b s))).line.bays[b] with misses := 0, grace := none } := upd_same _ _ _
  have hempty : (emptyQueue b (endJobTorn b lost (abandonContext b s))).line.bays[b].queue = [] := by
    rw [emptyQueue, State.setLine_line, upd_same]
  rw [hset]
  exact ⟨hempty, rfl, rfl⟩

theorem teardown_reg (b : BayId) (lost : Bool) (s : State) : (teardown b lost s).reg[b] =
    { s.reg[b] with activity := (endJobTorn b lost (abandonContext b s)).reg[b].activity, context := none, pollCount := 0, stepCheck := false } := by
  rw [teardown_eq, ((Touches.refl (m := .shared) _).recomputeBut ⟨trivial, fun _ => trivial⟩ (some b)).reg_same id id, strippedBay_reg]

theorem teardown_line (b : BayId) (lost : Bool) (s : State) : (teardown b lost s).line.bays[b].misses = 0 ∧ (teardown b lost s).line.bays[b].grace = none := by
  obtain ⟨-, hmisses, hgrace⟩ := strippedBay_line b lost s
  have htouch := (Touches.refl (m := .shared) (strippedBay b lost s)).recomputeBut ⟨trivial, fun _ => trivial⟩ (some b)
  rw [teardown_eq, htouch.misses b id, htouch.graceDue id]
  exact ⟨hmisses, hgrace⟩

theorem teardown_bare (b : BayId) (lost : Bool) (s : State) : Bare b (teardown b lost s) := by
  rw [teardown_eq]
  exact recomputeBut_bare (if_pos rfl) (by rw [OnlyAllowances, (strippedBay_line b lost s).1]; exact nofun)

/-- R21: the four steps of a teardown. -/
theorem teardown_tornDown (hj : JobOf s b) (lost : Bool) : TornDown s (teardown b lost s) b lost := by
  have hsame : SameJob s (abandonContext b s) b := (abandonContext_touches b s).sameJob id id id id fun _ => id
  have hended := ((endJobTorn_ended (hsame.jobOf hj) lost).of_same hsame).touched (strippedBay_after b lost s) id id id id fun _ => id
  have hjob := hended.touched ((Touches.refl (m := .shared) _).recomputeBut ⟨trivial, fun _ => trivial⟩ (some b)) id id id id fun _ => id
  have hreg := teardown_reg b lost s
  have hline := teardown_line b lost s
  have hbare := teardown_bare b lost s
  rw [← teardown_eq] at hjob
  generalize teardown b lost s = t at hjob hreg hline hbare
  exact ⟨hjob.activity, hjob.run, hjob.cleaning, hjob.rinseOwed, hjob.transfer, by rw [hreg], by rw [hreg]; exact ⟨rfl, rfl⟩, hline, hbare.orders,
    hbare.allowance⟩

theorem TornDown.jobEnded (h : TornDown s t b lost) : JobEnded s t b lost := ⟨h.activity, h.run, h.cleaning, h.rinseOwed, h.transfer⟩

theorem TornDown.bare (h : TornDown s t b lost) : Bare b t := ⟨h.allowance, h.orders⟩

/-- What follows a teardown keeps what it left, where it leaves the bay its job, its orders and its allowance. -/
theorem TornDown.kept {m : Parts} (h : TornDown s u b lost) (ht : Touches m u t) (hc : ¬ m.claim b) (hr : ¬ m.runEnd b) (hk : ¬ m.cleanEnd b)
    (hh : ¬ m.hygiene b) (ho : ∀ c, ¬ m.opens c) (hcontext : t.reg[b].context = none) (hpoll : t.reg[b].pollCount = 0 ∧ t.reg[b].stepCheck = false)
    (hline : t.line.bays[b].misses = 0 ∧ t.line.bays[b].grace = none) (hb : Bare b t) : TornDown s t b lost := by
  have hjob := h.jobEnded.touched ht hc hr hk hh ho
  exact ⟨hjob.activity, hjob.run, hjob.cleaning, hjob.rinseOwed, hjob.transfer, hcontext, hpoll, hline, hb.orders, hb.allowance⟩

/-- R20: the release that a teardown owes. -/
theorem TornDown.handed (h : TornDown s u b lost) (hcold : u.reg[b].state ≠ .ready) (o : HandOn) : TornDown s (handOn o b u) b lost := by
  have ht := handOn_barred (.inl hcold) o
  have hreg := ht.reg_same (b := b) id (fun hne => hne rfl)
  refine h.kept ht (fun hne => hne rfl) id id id (fun _ => id) (by rw [hreg]; exact h.sequence) (by rw [hreg]; exact h.interrogation)
    (by rw [ht.misses b id, ht.graceDue id]; exact h.line)
    (Idled.handOn ⟨h.bare, hcold⟩ o).toBare

end

end Sys2Proof.Machine


/-! PROOF. The change of a bay's presence (O19) and the end of its commissioning by request (O22). -/

namespace Sys2Proof.Machine

set_option Elab.async false

open Sys2Proof

section

variable {b : BayId} {s t u : State} {st : BayState} {lost : Bool}

/-! ## What entry to EMPTY, SETTLING and LOST brings -/

theorem MonitorOnly.heat {s t : State} (h : MonitorOnly s t) : t.heat = s.heat := by
  rw [show t = _ from h]

theorem leaving_heat (b : BayId) (st : BayState) (cause : BayCause) (s : State) : (leaving b st cause s).heat = s.heat :=
  (leaveState_monitorOnly b s.reg[b].state _).heat.trans (queueNotice_monitorOnly .bay [bayTok b, wd st.word, wd cause.word] _).heat

theorem ovenSilent_orders (b : BayId) (s : State) : (ovenSilent b s).line = s.line ∧ (ovenSilent b s).heat = s.heat :=
  ⟨(setCondition_monitorOnly b .ovenFault false s).line, (setCondition_monitorOnly b .ovenFault false s).heat⟩

theorem setBayState_of_gone (hst : st = .empty ∨ st = .settling) (h : s.reg[b].state ≠ st) (cause : BayCause) :
    setBayState b st cause s = heatGone b (emptyQueue b (ovenSilent b (leaving b st cause s))) := by
  rw [setBayState_of_ne h]
  obtain rfl | rfl := hst <;> rfl

/-- R39: the queue of a bay whose oven has gone is emptied. -/
theorem setBayState_line_of_gone (hst : st = .empty ∨ st = .settling) (h : s.reg[b].state ≠ st) (cause : BayCause) :
    (setBayState b st cause s).line.bays[b] = { s.line.bays[b] with queue := [], held := [] } := by
  rw [setBayState_of_gone hst h]
  show (emptyQueue b (ovenSilent b (leaving b st cause s))).line.bays[b] = _
  rw [emptyQueue, State.setLine_line, upd_same, (ovenSilent_orders b _).1, leaving_line]

theorem setBayState_allowance_of_gone (hst : st = .empty ∨ st = .settling) (h : s.reg[b].state ≠ st) (cause : BayCause) :
    (setBayState b st cause s).heat.bays[b].allowance = s.heat.bays[b].allowance := by
  rw [setBayState_of_gone hst h, heatGone, State.setHeat_heat, upd_same]
  show (ovenSilent b (leaving b st cause s)).heat.bays[b].allowance = _
  rw [(ovenSilent_orders b _).2, leaving_heat]

theorem setBayState_of_lost (h : s.reg[b].state ≠ .lost) (cause : BayCause) : setBayState b .lost cause s =
    (setCondition b .lineExpired true (ovenSilent b (leaving b .lost cause s))).setLine b
      (fun l => { l with lostFrom := (leaving b .lost cause s).now, lostDue := false }) := setBayState_of_ne h cause

theorem setBayState_line_of_lost (h : s.reg[b].state ≠ .lost) (cause : BayCause) :
    (setBayState b .lost cause s).line.bays[b] = { s.line.bays[b] with lostFrom := (leaving b .lost cause s).now, lostDue := false } := by
  rw [setBayState_of_lost h, State.setLine_line, upd_same, (setCondition_monitorOnly b .lineExpired true _).line, (ovenSilent_orders b _).1, leaving_line]

theorem setBayState_heat_of_lost (h : s.reg[b].state ≠ .lost) (cause : BayCause) : (setBayState b .lost cause s).heat = s.heat := by
  rw [setBayState_of_lost h, State.setLine_heat, (setCondition_monitorOnly b .lineExpired true _).heat, (ovenSilent_orders b _).2, leaving_heat]

/-- A bare bay with no misses counted and no apply-grace deadline. -/
structure Stilled (b : BayId) (s : State) : Prop extends Bare b s where
  counts : s.line.bays[b].misses = 0 ∧ s.line.bays[b].grace = none

theorem Stilled.entered (h : Stilled b u) (hst : st = .empty ∨ st = .settling ∨ st = .lost) (cause : BayCause) : Stilled b (setBayState b st cause u) := by
  by_cases hsame : u.reg[b].state = st
  · rw [setBayState_of_same hsame]
    exact h
  · obtain hgone | rfl : (st = .empty ∨ st = .settling) ∨ st = .lost := by tauto
    · have hl := setBayState_line_of_gone hgone hsame cause
      refine ⟨⟨(setBayState_allowance_of_gone hgone hsame cause).trans h.allowance, ?_⟩, by rw [hl]; exact h.counts⟩
      rw [OnlyAllowances, hl]
      exact nofun
    · have hl := setBayState_line_of_lost hsame cause
      refine ⟨⟨by rw [setBayState_heat_of_lost hsame]; exact h.allowance, ?_⟩, by rw [hl]; exact h.counts⟩
      rw [OnlyAllowances, hl]
      exact h.orders

theorem Stilled.handed (h : Stilled b u) (hcold : u.reg[b].state ≠ .ready) (o : HandOn) : Stilled b (handOn o b u) := by
  have ht := handOn_barred (.inl hcold) o
  exact ⟨(Idled.handOn ⟨h.toBare, hcold⟩ o).toBare, by rw [ht.misses b id, ht.graceDue id]; exact h.counts⟩

theorem TornDown.stilled (h : TornDown s u b lost) : Stilled b u := ⟨h.bare, h.line⟩

/-- R21: a bay torn down enters the state that its teardown is made for. -/
theorem TornDown.entered (h : TornDown s u b lost) (hst : st = .empty ∨ st = .settling ∨ st = .lost) (cause : BayCause) :
    TornDown s (setBayState b st cause u) b lost := by
  have hreg := setBayState_reg (s := u) (b := b) (st := st) (by obtain rfl | rfl | rfl := hst <;> nofun) cause
  have hstill := h.stilled.entered hst cause
  exact h.kept (setBayState_touches b st cause u) id id id id (fun _ => id) (by rw [hreg]; exact h.sequence) (by rw [hreg]; exact h.interrogation)
    hstill.counts hstill.toBare

/-! ## The teardown to a new state -/

/-- The release that a teardown owes leaves the bay as the teardown left it. -/
theorem tearDownTo_tornDown (hj : JobOf s b) (hst : st = .empty ∨ st = .settling ∨ st = .lost) (owed : Bool) (cause : BayCause) :
    TornDown s (tearDownTo b lost owed st cause s) b lost := by
  have hentered := (teardown_tornDown hj lost).entered hst cause
  have hstate := congrArg RegBay.state (setBayState_reg (s := teardown b lost s) (b := b) (st := st) (by obtain rfl | rfl | rfl := hst <;> nofun) cause)
  unfold tearDownTo
  dsimp only
  generalize setBayState b st cause (teardown b lost s) = t at hentered hstate
  split
  · exact hentered.handed (by rw [hstate]; obtain rfl | rfl | rfl := hst <;> nofun) .now
  · exact hentered

/-- The state and the record of a bay that has been torn down. -/
theorem tearDownTo_reg (hst : st = .empty ∨ st = .settling ∨ st = .lost) (owed : Bool) (cause : BayCause) : ∃ a,
    (tearDownTo b lost owed st cause s).reg[b] = { s.reg[b] with activity := a, context := none, pollCount := 0, stepCheck := false, state := st } := by
  have hreg := setBayState_reg (s := teardown b lost s) (b := b) (st := st) (by obtain rfl | rfl | rfl := hst <;> nofun) cause
  rw [teardown_reg] at hreg
  unfold tearDownTo
  dsimp only
  generalize setBayState b st cause (teardown b lost s) = t at hreg
  split
  · have hcold : t.reg[b].state ≠ .ready := by rw [hreg]; obtain rfl | rfl | rfl := hst <;> nofun
    exact ⟨_, ((handOn_barred (.inl hcold) .now).reg_same id fun hne => hne rfl).trans hreg⟩
  · exact ⟨_, hreg⟩

/-- A teardown leaves the bay bare, whatever its job was. -/
theorem tearDownTo_stilled (hst : st = .empty ∨ st = .settling ∨ st = .lost) (owed : Bool) (cause : BayCause) :
    Stilled b (tearDownTo b lost owed st cause s) := by
  have hentered := Stilled.entered ⟨teardown_bare b lost s, teardown_line b lost s⟩ hst cause
  have hstate := congrArg RegBay.state (setBayState_reg (s := teardown b lost s) (b := b) (st := st) (by obtain rfl | rfl | rfl := hst <;> nofun) cause)
  unfold tearDownTo
  dsimp only
  generalize setBayState b st cause (teardown b lost s) = t at hentered hstate
  split
  · exact hentered.handed (by rw [hstate]; obtain rfl | rfl | rfl := hst <;> nofun) .now
  · exact hentered

/-- What a teardown and its release may change. -/
theorem tearDownTo_later (b : BayId) (lost owed : Bool) (st : BayState) (cause : BayCause) (s : State) : Later s (tearDownTo b lost owed st cause s) :=
  ((Touches.refl (m := .all) s).tearDownTo (Parts.all_oven b) lost owed st cause).later

theorem tells_tearDownTo (h : s.reg[b].state ≠ st) (owed : Bool) (cause : BayCause) : TellsBay s (tearDownTo b lost owed st cause s) b st cause := by
  have hstate : (teardown b lost s).reg[b].state ≠ st := by rw [teardown_reg]; exact h
  have htold := (tells_setBayState hstate cause).since ((Touches.refl (m := .all) s).teardown (Parts.all_enter b) (Parts.all_oven b).job trivial lost).later
  unfold tearDownTo
  dsimp only
  generalize setBayState b st cause (teardown b lost s) = t at htold
  split
  · exact htold.mono (handOn_touches .now b t).later
  · exact htold

/-! ## The three changes of presence (R4, R5, R6) -/

theorem TornDown.of_same (h : TornDown u t b lost) (hs : SameJob s u b) : TornDown s t b lost := by
  have hjob := h.jobEnded.of_same hs
  exact ⟨hjob.activity, hjob.run, hjob.cleaning, hjob.rinseOwed, hjob.transfer, h.sequence, h.interrogation, h.line, h.orders, h.allowance⟩

/-- A bay whose oven is gone, or is seated no more: torn down where it had an oven at work, else moved to its new state. -/
def ovenGone (tear : Prop) [Decidable tear] (b : BayId) (st : BayState) (cause : BayCause) (s : State) : State :=
  if tear then tearDownTo b false false st cause s else setBayState b st cause s

section

variable {tear : Prop} [Decidable tear]

theorem ovenGone_reg (hst : st = .empty ∨ st = .settling) (cause : BayCause) : ∃ a x n y, (ovenGone tear b st cause s).reg[b] =
    { s.reg[b] with activity := a, context := x, pollCount := n, stepCheck := y, state := st } := by
  unfold ovenGone
  split
  · obtain ⟨a, h⟩ := tearDownTo_reg (s := s) (b := b) (lost := false) (st := st) (by tauto) false cause
    exact ⟨a, _, _, _, h⟩
  · exact ⟨_, _, _, _, setBayState_reg (by obtain rfl | rfl := hst <;> nofun) cause⟩

theorem tells_ovenGone (cause : BayCause) (h : s.reg[b].state ≠ st) : TellsBay s (ovenGone tear b st cause s) b st cause := by
  unfold ovenGone
  split
  · exact tells_tearDownTo h false cause
  · exact tells_setBayState h cause

theorem ovenGone_tornDown (hst : st = .empty ∨ st = .settling) (cause : BayCause) (htear : tear) (hj : JobOf s b) :
    TornDown s (ovenGone tear b st cause s) b false := by
  rw [ovenGone, if_pos htear]
  exact tearDownTo_tornDown hj (by tauto) false cause

end

/-- R21: a bay torn down whose record changes, but for its sequence and its interrogation. -/
theorem TornDown.setReg (h : TornDown s u b lost) (f : RegBay → RegBay) (hf : ∀ r, (f r).activity = r.activity)
    (hcontext : (f u.reg[b]).context = none) (hpoll : (f u.reg[b]).pollCount = 0 ∧ (f u.reg[b]).stepCheck = false) : TornDown s (u.setReg b f) b lost := by
  have ht := (Touches.refl (m := { reg := (· = b) }) u).setReg (b := b) (f := f) rfl hf
  exact h.kept ht id id id id (fun _ => id) (by rw [setReg_same]; exact hcontext) (by rw [setReg_same]; exact hpoll) h.line (h.bare.touched ht id id)

theorem TornDown.condition (h : TornDown s u b lost) (k : EventKind) (v : Bool) : TornDown s (setCondition b k v u) b lost := by
  have ht := (Touches.refl (m := { Parts.alarm b with cond := (· = b) }) u).setCondition (b := b) ⟨rfl, trivial⟩ rfl k v
  have hreg := ht.reg_same (b := b) id id
  exact h.kept ht id id id id (fun _ => id) (by rw [hreg]; exact h.sequence) (by rw [hreg]; exact h.interrogation)
    (by rw [ht.misses b id, ht.graceDue id]; exact h.line) (h.bare.touched ht id id)

theorem TornDown.powerOff (h : TornDown s u b lost) (hcold : u.reg[b].state ≠ .ready) : TornDown s (heatPower b u) b lost := by
  have ht := (Touches.refl (m := { heat := (· = b), line := fun _ => True, shares := True }) u).heatPower (b := b) rfl ⟨trivial, fun _ => trivial⟩
  have hreg := ht.reg_same (b := b) id id
  exact h.kept ht id id id id (fun _ => id) (by rw [hreg]; exact h.sequence) (by rw [hreg]; exact h.interrogation)
    (by rw [ht.misses b id, ht.graceDue id]; exact h.line) (Idled.heatPower ⟨h.bare, hcold⟩ b).toBare

theorem becomePartial_eq (b : BayId) (s : State) : becomePartial b s =
    (ovenGone (s.reg[b].presence = .present ∧ s.reg[b].state ≠ .settling) b .settling .partly (s.setReg b RegBay.nowPartly)).setReg b
      (fun x => { x with identity := none, partialDue := some (s.now + 2000), settleDue := none, settled := false }) := rfl

/-- A bay that has become EMPTY, its oven's records cleared. -/
def emptied (b : BayId) (s : State) : State :=
  (ovenGone (s.reg[b].state ≠ .empty ∧ s.reg[b].state ≠ .settling) b .empty .absent (s.setReg b (fun x => { x with presence := .absent }))).setReg b (fun x =>
    { x with identity := none, power := .off, settleDue := none, partialDue := none, settled := false, pollCount := 0, stepCheck := false })

theorem becomeAbsent_eq (b : BayId) (s : State) : becomeAbsent b s =
    setCondition b .presencePartial false (if s.reg[b].power = .off then emptied b s else heatPower b (emptied b s)) := rfl

/-- A bay whose contacts are read anew. -/
theorem completes_contacts {c : Instr} {k : Contacts} {P : State → Prop} (hs : s.phase ≠ .off) (hc : exec c s = .next (contactsRead b k s))
    (h : s.reg[b].presence ≠ k.classify)
    (hP : ∀ tx sent, P { changePresence b k.classify (movePins b k s) with
      host := { (changePresence b k.classify (movePins b k s)).host with tx := tx, sent := sent } }) : Completes c s P := by
  refine ⟨_, hc, ?_⟩
  rw [contactsRead_of_changed hs h]
  have hpump := pump_sameButSending (changePresence b k.classify (movePins b k s))
  unfold SameButSending at hpump
  rw [hpump]
  exact hP _ _

theorem movePins_sameJob (b : BayId) (k : Contacts) (s : State) (d : BayId) : SameJob s (movePins b k s) d := ⟨rfl, rfl, rfl, rfl, fun _ => rfl⟩

theorem setReg_sameJob (f : RegBay → RegBay) (hf : ∀ r, (f r).activity = r.activity) (s : State) (d : BayId) : SameJob s (s.setReg b f) d :=
  ((Touches.refl (m := { reg := fun _ => True }) s).setReg trivial hf).sameJob id id id id fun _ => id

theorem TornDown.sending (h : TornDown s u b lost) (tx : Tx) (sent : List OutLine) : TornDown s { u with host := { u.host with tx := tx, sent := sent } } b lost :=
  ⟨h.activity, h.run, h.cleaning, h.rinseOwed, h.transfer, h.sequence, h.interrogation, h.line, h.orders, h.allowance⟩

theorem TornDown.replying (h : TornDown s u b lost) (r : Reply) : TornDown s (replying r u) b lost :=
  ⟨h.activity, h.run, h.cleaning, h.rinseOwed, h.transfer, h.sequence, h.interrogation, h.line, h.orders, h.allowance⟩

end

/-- R5: what becoming PARTIAL does to a bay. -/
theorem becomePartial_does (b : BayId) (s : State) (t : State) (ht : t = becomePartial b s) :
    t.reg[b].state = .settling ∧ t.reg[b].identity = none ∧ t.reg[b].partialDue = some (s.now + 2000) ∧ t.reg[b].settleDue = none ∧
      t.reg[b].commission = s.reg[b].commission ∧ (s.reg[b].state ≠ .settling → TellsBay s t b .settling .partly) ∧
      (s.reg[b].presence = .present → s.reg[b].state ≠ .settling → JobOf s b → TornDown s t b false) := by
  rw [becomePartial_eq] at ht
  have hsame := setReg_sameJob (b := b) RegBay.nowPartly (fun _ => rfl) s b
  obtain ⟨a, x, n, y, hreg⟩ := ovenGone_reg (tear := s.reg[b].presence = .present ∧ s.reg[b].state ≠ .settling) (s := s.setReg b RegBay.nowPartly) (b := b)
    (st := .settling) (.inr rfl) .partly
  have htold := tells_ovenGone (tear := s.reg[b].presence = .present ∧ s.reg[b].state ≠ .settling) (s := s.setReg b RegBay.nowPartly) (b := b) (st := .settling) .partly
  have htorn := ovenGone_tornDown (tear := s.reg[b].presence = .present ∧ s.reg[b].state ≠ .settling) (s := s.setReg b RegBay.nowPartly) (b := b) (st := .settling) (.inr rfl) .partly
  rw [setReg_same] at hreg htold
  generalize ovenGone (s.reg[b].presence = .present ∧ s.reg[b].state ≠ .settling) b .settling .partly (s.setReg b RegBay.nowPartly) = u at ht hreg htold htorn
  subst ht
  have hset : (u.setReg b (fun x => { x with identity := none, partialDue := some (s.now + 2000), settleDue := none, settled := false })).reg[b] =
      { u.reg[b] with identity := none, partialDue := some (s.now + 2000), settleDue := none, settled := false } := setReg_same u b _
  rw [hset]
  refine ⟨by rw [hreg], rfl, rfl, rfl, by rw [hreg]; rfl, fun hne => ?_, fun hp hne hj => ?_⟩
  · exact ((htold hne).since ⟨rfl, rfl, List.prefix_rfl, id⟩).mono ⟨rfl, rfl, List.prefix_rfl, id⟩
  · have h := htorn ⟨hp, hne⟩ (hsame.jobOf hj)
    exact (h.setReg (fun x => { x with identity := none, partialDue := some (s.now + 2000), settleDue := none, settled := false }) (fun _ => rfl) h.sequence h.interrogation).of_same hsame

/-- R6: what becoming ABSENT does to a bay. -/
theorem becomeAbsent_does (b : BayId) (s : State) (t : State) (ht : t = becomeAbsent b s) :
    t.reg[b].state = .empty ∧ t.reg[b].identity = none ∧ t.reg[b].power = .off ∧ t.reg[b].settleDue = none ∧ t.reg[b].partialDue = none ∧
      t.reg[b].pollCount = 0 ∧ t.reg[b].stepCheck = false ∧ condition t b .presencePartial = false ∧
      t.reg[b].commission = s.reg[b].commission ∧ (s.reg[b].state ≠ .empty → TellsBay s t b .empty .absent) ∧
      (s.reg[b].state ≠ .empty → s.reg[b].state ≠ .settling → JobOf s b → TornDown s t b false) := by
  have hsame := setReg_sameJob (b := b) (fun x => { x with presence := .absent }) (fun _ => rfl) s b
  obtain ⟨a, x, n, y, hreg⟩ := ovenGone_reg (tear := s.reg[b].state ≠ .empty ∧ s.reg[b].state ≠ .settling)
    (s := s.setReg b (fun x => { x with presence := .absent })) (b := b) (st := .empty) (.inl rfl) .absent
  have htold := tells_ovenGone (tear := s.reg[b].state ≠ .empty ∧ s.reg[b].state ≠ .settling)
    (s := s.setReg b (fun x => { x with presence := .absent })) (b := b) (st := .empty) .absent
  have htorn := ovenGone_tornDown (tear := s.reg[b].state ≠ .empty ∧ s.reg[b].state ≠ .settling)
    (s := s.setReg b (fun x => { x with presence := .absent })) (b := b) (st := .empty) (.inl rfl) .absent
  rw [setReg_same] at hreg htold
  have hv : (emptied b s).reg[b] = { (ovenGone (s.reg[b].state ≠ .empty ∧ s.reg[b].state ≠ .settling) b .empty .absent
      (s.setReg b (fun x => { x with presence := .absent }))).reg[b] with
        identity := none, power := .off, settleDue := none, partialDue := none, settled := false, pollCount := 0, stepCheck := false } := setReg_same _ b _
  rw [hreg] at hv
  have htold' : s.reg[b].state ≠ .empty → TellsBay s (emptied b s) b .empty .absent := fun hne =>
    ((htold hne).since ⟨rfl, rfl, List.prefix_rfl, id⟩).mono ⟨rfl, rfl, List.prefix_rfl, id⟩
  have htorn' : s.reg[b].state ≠ .empty → s.reg[b].state ≠ .settling → JobOf s b → TornDown s (emptied b s) b false := fun hne hns hj => by
    have h := htorn ⟨hne, hns⟩ (hsame.jobOf hj)
    exact (h.setReg (fun x => { x with identity := none, power := .off, settleDue := none, partialDue := none, settled := false, pollCount := 0, stepCheck := false }) (fun _ => rfl) h.sequence ⟨rfl, rfl⟩).of_same hsame
  subst ht
  rw [becomeAbsent_eq]
  generalize emptied b s = v at hv htold' htorn' ⊢
  have hcold : v.reg[b].state ≠ .ready := by rw [hv]; nofun
  have hoff : ∃ w, (if s.reg[b].power = .off then v else heatPower b v) = w ∧ w.reg[b] = v.reg[b] ∧ Later v w ∧
      (TornDown s v b false → TornDown s w b false) := by
    split
    · exact ⟨v, rfl, rfl, Later.refl v, id⟩
    · have htouch := (Touches.refl (m := { heat := (· = b), line := fun _ => True, shares := True }) v).heatPower (b := b) rfl ⟨trivial, fun _ => trivial⟩
      exact ⟨_, rfl, htouch.reg_same id id, htouch.later, fun h => h.powerOff hcold⟩
  obtain ⟨w, hw, hwreg, hwlater, hwtorn⟩ := hoff
  rw [hw]
  have hmon := setCondition_monitorOnly b .presencePartial false w
  have hreg' : (setCondition b .presencePartial false w).reg[b] = v.reg[b] := by rw [show (setCondition b .presencePartial false w).reg = w.reg by rw [hmon], hwreg]
  rw [hreg', hv]
  refine ⟨rfl, rfl, rfl, rfl, rfl, rfl, rfl, condition_setCondition _ _ _ _ _, rfl, fun hne => ?_, fun hne hns hj => ?_⟩
  · exact ((htold' hne).mono hwlater).mono ((Touches.refl (m := { Parts.alarm b with cond := (· = b) }) w).setCondition (b := b) ⟨rfl, trivial⟩ rfl _ _).later
  · exact (hwtorn (htorn' hne hns hj)).condition _ _

/-- R4: what becoming PRESENT does to a bay. -/
theorem becomePresent_does (b : BayId) (s : State) (t : State) (ht : t = becomePresent b s) :
    t.reg[b].state = .settling ∧ t.reg[b].settleDue = some (s.now + 2000) ∧ t.reg[b].partialDue = none ∧
      condition t b .presencePartial = false ∧ t.reg[b].commission = s.reg[b].commission ∧
      (s.reg[b].state ≠ .settling → TellsBay s t b .settling .present) := by
  rw [becomePresent_eq] at ht
  subst ht
  have hreg := setBayState_reg (s := s.setReg b (RegBay.nowPresent s.now)) (b := b) (st := .settling) nofun .present
  have htold := tells_setBayState (s := s.setReg b (RegBay.nowPresent s.now)) (b := b) (st := .settling) (cause := .present)
  rw [setReg_same] at hreg htold
  generalize setBayState b .settling .present (s.setReg b (RegBay.nowPresent s.now)) = w at hreg htold ⊢
  have hmon := setCondition_monitorOnly b .presencePartial false w
  have hreg' : (setCondition b .presencePartial false w).reg[b] = w.reg[b] := by rw [show (setCondition b .presencePartial false w).reg = w.reg by rw [hmon]]
  rw [hreg', hreg]
  refine ⟨rfl, rfl, rfl, condition_setCondition _ _ _ _ _, rfl, fun hne => ?_⟩
  exact ((htold hne).since ⟨rfl, rfl, List.prefix_rfl, id⟩).mono
    ((Touches.refl (m := { Parts.alarm b with cond := (· = b) }) w).setCondition (b := b) ⟨rfl, trivial⟩ rfl _ _).later

/-- Settles O19. -/
theorem presenceChangesMoveTheBay : Obligations.PresenceChangesMoveTheBay := by
  refine fun s b hs => ⟨fun hp => ?_, fun lead hp => ?_, fun hp => ?_⟩
  · refine completes_contacts (k := { lead := true, seat := true }) hs rfl hp fun tx sent => ?_
    obtain ⟨hst, hsettle, hdue, hcond, hcom, htold⟩ := becomePresent_does b (movePins b { lead := true, seat := true } s) _ rfl
    show _ ∧ _
    rw [show Contacts.classify { lead := true, seat := true } = .present from rfl]
    generalize hg : becomePresent b (movePins b { lead := true, seat := true } s) = t at hst hsettle hdue hcond hcom htold
    rw [show changePresence b .present (movePins b { lead := true, seat := true } s) = t from hg]
    exact ⟨hst, hsettle, hdue, hcond, hcom, fun hne => htold hne⟩
  · have hk : Contacts.classify { lead := lead, seat := !lead } = .partly := by cases lead <;> rfl
    refine completes_contacts (k := { lead := lead, seat := !lead }) hs rfl (by rw [hk]; exact hp) fun tx sent => ?_
    obtain ⟨hst, hid, hdue, hsettle, hcom, htold, htorn⟩ := becomePartial_does b (movePins b { lead := lead, seat := !lead } s) _ rfl
    rw [hk]
    generalize hg : becomePartial b (movePins b { lead := lead, seat := !lead } s) = t at hst hid hdue hsettle hcom htold htorn
    rw [show changePresence b .partly (movePins b { lead := lead, seat := !lead } s) = t from hg]
    have hsame := movePins_sameJob b { lead := lead, seat := !lead } s b
    exact ⟨hst, hid, hdue, hsettle, hcom, fun hne => htold hne, fun h1 h2 hj => ((htorn h1 h2 (hsame.jobOf hj)).of_same hsame).sending _ _⟩
  · refine completes_contacts (k := { lead := false, seat := false }) hs rfl hp fun tx sent => ?_
    obtain ⟨hst, hid, hpower, hsettle, hdue, hpoll, hstep, hcond, hcom, htold, htorn⟩ :=
      becomeAbsent_does b (movePins b { lead := false, seat := false } s) _ rfl
    rw [show Contacts.classify { lead := false, seat := false } = .absent from rfl]
    generalize hg : becomeAbsent b (movePins b { lead := false, seat := false } s) = t at hst hid hpower hsettle hdue hpoll hstep hcond hcom htold htorn
    rw [show changePresence b .absent (movePins b { lead := false, seat := false } s) = t from hg]
    have hsame := movePins_sameJob b { lead := false, seat := false } s b
    exact ⟨hst, hid, hpower, hsettle, hdue, hpoll, hstep, hcond, hcom, fun hne => htold hne,
      fun h1 h2 hj => ((htorn h1 h2 (hsame.jobOf hj)).of_same hsame).sending _ _⟩

/-! ## DECOMMISSION and SET-MENU (R16, R17) -/

section

variable {s : State} {b : BayId}

/-- What the teardown of a bay without a job may change. -/
def Parts.idleTeardown (b : BayId) : Parts :=
  { Parts.alarm b with reg := (· = b), line := fun _ => True, drops := fun d _ => d = b, grace := (· = b), go := (· = b), misses := (· = b), heat := (· = b), shares := True }

theorem teardown_of_idle (h : s.reg[b].activity = .nothing) (lost : Bool) : Touches (.idleTeardown b) s (teardown b lost s) := by
  have habandoned : Touches (.idleTeardown b) s (abandonContext b s) := by
    unfold abandonContext
    split
    · exact ((Touches.refl s).setReg rfl).report ⟨rfl, trivial⟩ _
    · exact Touches.refl s
  have hnothing : endJobTorn b lost (abandonContext b s) = abandonContext b s := by
    unfold endJobTorn
    rw [habandoned.claim b id, h]
  rw [teardown_eq, strippedBay, hnothing]
  exact ((((habandoned.emptyQueue trivial fun _ => rfl).setTimers rfl rfl (hm := .inl rfl)).setReg rfl).clearStarvation rfl trivial).recomputeBut ⟨trivial, fun _ => trivial⟩ _

/-- R16: a bay whose commission record is dropped. -/
def decommissioned (b : BayId) (s : State) : State := setBayState b .uncommissioned .decommissioned (dropCommission b (teardown b false s))

theorem dropCommission_eq (b : BayId) (s : State) : dropCommission b s =
    { s with reg := upd s.reg b (fun r => { r with commission := none }), store := (storeRecord .profile (commissionPos b) none s).store } := by
  have hstore := storeRecord_store_congr (s := s) (t := s.setReg b (fun r => { r with commission := none })) rfl rfl .profile (commissionPos b) none
  rw [dropCommission, storeRecord_eq_withStore, hstore]
  rfl

theorem dropCommission_reg (b : BayId) (s : State) : (dropCommission b s).reg[b] = { s.reg[b] with commission := none } := by
  rw [dropCommission_eq]
  exact upd_same _ _ _

/-- What the end of a bay's commission may change once it is torn down. -/
def Parts.dropping (b : BayId) : Parts := { Parts.alarm b with reg := (· = b), cond := (· = b), store := True }

theorem setBayState_dropping (b : BayId) (cause : BayCause) (s : State) : Touches (.dropping b) s (setBayState b .uncommissioned cause s) := by
  by_cases hst : s.reg[b].state = .uncommissioned
  · rw [setBayState_of_same hst]
    exact Touches.refl s
  · rw [setBayState_of_ne hst]
    show Touches _ s (leaving b .uncommissioned cause s)
    have htold := ((Touches.refl (m := .dropping b) s).setReg (b := b)
      (f := fun r => { r with state := .uncommissioned }) rfl).queueNotice .bay [bayTok b, wd BayState.uncommissioned.word, wd cause.word]
    unfold leaving leaveState
    split
    · exact htold.setCondition ⟨rfl, trivial⟩ rfl _ _
    · exact htold.setCondition ⟨rfl, trivial⟩ rfl _ _
    · exact htold

theorem decommissioned_after (b : BayId) (s : State) : Touches (.dropping b) (teardown b false s) (decommissioned b s) :=
  ((Touches.refl (teardown b false s)).dropCommission rfl trivial).trans (setBayState_dropping b .decommissioned _)

theorem decommissioned_reg (b : BayId) (s : State) : (decommissioned b s).reg[b] = { s.reg[b] with
    state := .uncommissioned, commission := none, activity := (endJobTorn b false (abandonContext b s)).reg[b].activity, context := none, pollCount := 0,
    stepCheck := false } := by
  rw [decommissioned, setBayState_reg (st := .uncommissioned) nofun, dropCommission_reg, teardown_reg]

theorem decommissioned_store (h : s.reg[b].activity = .nothing) :
    (decommissioned b s).store = (storeRecord .profile (commissionPos b) none s).store := by
  have htorn := teardown_of_idle h false
  have hstore := storeRecord_store_congr htorn.phase (htorn.store id) .profile (commissionPos b) none
  rw [decommissioned]
  generalize teardown b false s = u at hstore ⊢
  rw [← hstore, (setBayState_touches b .uncommissioned .decommissioned (dropCommission b u)).store id, dropCommission_eq]

theorem decommissioned_keeps (h : s.reg[b].activity = .nothing) :
    (decommissioned b s).mon.bays[b].hold = s.mon.bays[b].hold ∧ (decommissioned b s).clean[b].hygiene = s.clean[b].hygiene := by
  have htorn := teardown_of_idle h false
  have hafter := decommissioned_after b s
  generalize teardown b false s = u at htorn hafter
  exact ⟨(hafter.held id).trans (htorn.held id), (hafter.hygiene b id).trans (htorn.hygiene b id)⟩

theorem decommissioned_tornDown (hj : JobOf s b) : TornDown s (decommissioned b s) b false := by
  have htorn := teardown_tornDown hj false
  have hreg := decommissioned_reg b s
  have hafter := decommissioned_after b s
  generalize decommissioned b s = t at hreg hafter ⊢
  exact htorn.kept hafter id id id id (fun _ => id) (by rw [hreg]) (by rw [hreg]; exact ⟨rfl, rfl⟩)
    (by rw [hafter.misses b id, hafter.graceDue id]; exact htorn.line) (htorn.bare.touched hafter id id)

theorem tells_decommissioned (h : s.reg[b].state ≠ .uncommissioned) : TellsBay s (decommissioned b s) b .uncommissioned .decommissioned := by
  refine (tells_setBayState ?_ .decommissioned).since (((Touches.refl (m := .all) s).teardown (Parts.all_enter b) (Parts.all_oven b).job trivial false).later.trans
    ((Touches.refl (m := .dropping b) _).dropCommission rfl trivial).later)
  rw [dropCommission_reg, teardown_reg]
  exact h

theorem decommission_served {w : Txt} (hb : NamesBay w b) : serveVerb .decommission [w] s =
    if (s.reg[b].state = .ready ∨ s.reg[b].state = .refused) ∧ s.reg[b].activity = .nothing then okay .decommission [] (decommissioned b s)
    else refuse .decommission .busy s := by
  show serveDecommission [w] s = _
  unfold serveDecommission
  rw [withFields_single hb]
  exact onBay_of_names rfl _ s

/-- R17: a menu window rewritten. -/
def rewindowed (b : BayId) (d : Commission) (s : State) : State := storeCommission b d (s.setReg b (fun r => { r with commission := some d }))

theorem rewindowed_eq (b : BayId) (d : Commission) (s : State) : rewindowed b d s =
    { s with reg := upd s.reg b (fun r => { r with commission := some d }), store := (storePut (.commission b d) s).store } := by
  have hstore := storePut_store_congr (s := s) (t := s.setReg b (fun r => { r with commission := some d })) rfl rfl (.commission b d)
  rw [rewindowed, storeCommission, storePut_eq_withStore, hstore]
  rfl

theorem setMenu_served {w w2 w3 w4 : Txt} {k lo hi : Nat} {c : Commission} (hb : NamesBay w b) (h2 : number w2 = some k) (h3 : number w3 = some lo)
    (h4 : number w4 = some hi) (hk : k = 1 ∨ k = 2) (hlo : lo ≤ 999) (hhi : hi ≤ 999) (hst : s.reg[b].state = .ready) (hc : s.reg[b].commission = some c) :
    serveVerb .setMenu [w, w2, w3, w4] s = okay .setMenu [bayTok b, .num k, wd (if (MenuWindow.mk lo hi).isOpen then "OPEN" else "CLOSED")]
      (rewindowed b (c.setWindow k { base := lo, limit := hi }) s) := by
  have hb' : number w = some (bayNo b) := hb
  refine ((withFields_of_parse (a := (bayNo b, k, lo, hi)) (by simp [fld, fin, hb', h2, h3, h4]) s).trans (onBay_of_names (b := b) rfl _ s)).trans ?_
  simp only [hst, hc]
  exact (if_pos (by obtain rfl | rfl := hk <;> simp [within, hlo, hhi])).trans (if_pos trivial)

end

/-- Settles O22. -/
theorem commissionRecordsAreDroppedOrChanged : Obligations.CommissionRecordsAreDroppedOrChanged := by
  refine fun s w b hs hb => ⟨fun hst hfree => ?_, fun w2 w3 w4 k lo hi c h2 h3 h4 hk hlo hhi hst hc => ?_⟩
  · refine completes_of_answered (answered_of_served hs ((decommission_served hb).trans (if_pos ⟨hst, hfree⟩))) ?_
    have hreg := decommissioned_reg b s
    obtain ⟨hhold, hhygiene⟩ := decommissioned_keeps hfree
    have hstore := decommissioned_store hfree
    have htold := tells_decommissioned (s := s) (b := b) (by obtain h | h := hst <;> rw [h] <;> nofun)
    have htorn := decommissioned_tornDown (s := s) (b := b)
    generalize decommissioned b s = t at hreg hhold hhygiene hstore htold htorn
    exact ⟨congrArg RegBay.state hreg, congrArg RegBay.commission hreg, (congrArg RegBay.identity hreg).trans rfl, hhold, hhygiene, hstore,
      htold.mono (later_replying _ t), fun hj => (htorn hj).replying _, rfl⟩
  · dsimp only
    have hserved := setMenu_served hb h2 h3 h4 hk hlo hhi hst hc
    have hopen : (MenuWindow.mk lo hi).isOpen = true ↔ lo ≤ hi ∧ ¬ (lo = 0 ∧ hi = 0) := by
      simp only [MenuWindow.isOpen, Bool.and_eq_true, Bool.not_eq_true', Bool.and_eq_false_iff, decide_eq_true_eq, decide_eq_false_iff_not]
      omega
    simp only [hopen] at hserved
    refine completes_of_answered (answered_of_served hs hserved) ?_
    rw [rewindowed_eq]
    exact ⟨upd_same _ _ _, rfl, rfl, rfl⟩

end Sys2Proof.Machine


/-! PROOF. The answers that do not come: a spoilt answer, the close of the window, and the missed polls (O25). -/

namespace Sys2Proof.Machine

set_option Elab.async false

open Sys2Proof

/-! ## A bay that goes to LOST (R11) -/

section

variable {s : State} {b : BayId}

/-- R11, R21: what going to LOST leaves of a bay. -/
theorem goLost_does (h : s.reg[b].state ≠ .lost) (owed : Bool) (t : State) (ht : t = goLost b owed s) :
    (∃ a, t.reg[b] = { s.reg[b] with activity := a, context := none, pollCount := 0, stepCheck := false, state := .lost }) ∧ Stilled b t ∧
      condition t b .lineExpired = true ∧ TellsBay s t b .lost .expired ∧ (JobOf s b → TornDown s t b true) := by
  subst ht
  refine ⟨tearDownTo_reg (.inr (.inr rfl)) owed .expired, tearDownTo_stilled (.inr (.inr rfl)) owed .expired, ?_, tells_tearDownTo h owed .expired,
    fun hj => tearDownTo_tornDown hj (.inr (.inr rfl)) owed .expired⟩
  have hstate : (teardown b true s).reg[b].state ≠ .lost := by rw [teardown_reg]; exact h
  have hcond : condition (setBayState b .lost .expired (teardown b true s)) b .lineExpired = true := by
    rw [setBayState_of_lost hstate]
    generalize ovenSilent b (leaving b .lost .expired (teardown b true s)) = u
    exact condition_setCondition u b .lineExpired .lineExpired true
  unfold goLost tearDownTo
  dsimp only
  generalize setBayState b .lost .expired (teardown b true s) = t at hcond
  split
  · unfold condition at hcond ⊢
    rw [(handOn_touches .now b t).cond b not_false]
    exact hcond
  · exact hcond

end

/-! ## The close of the answer window (R23, R27) -/

section

variable {s : State} {x : Exchange}

theorem closeWindow_early (hx : s.line.exchange = some x) (h : s.now * 1000 < x.limit) : closeWindow s = s := by
  unfold closeWindow
  rw [hx]
  exact if_neg (not_le.mpr h)

theorem closeWindow_over (hx : s.line.exchange = some x) (h : x.limit ≤ s.now * 1000) : closeWindow s =
    skipBays (if x.answer = .taken then { s with line := { s.line with exchange := none } }
      else missPoll x.bay x.wasLost { s with line := { s.line with exchange := none } }) := by
  unfold closeWindow
  rw [hx]
  exact if_pos h

theorem missPoll_of_awake (b : BayId) (s : State) : missPoll b false s = countPoll b
    (if min (s.line.bays[b].misses + 1) 3 = 3 ∧ s.line.bays[b].grace = none ∧ s.reg[b].state ≠ .lost then
      goLost b false (s.setLine b (fun l => { l with misses := min (s.line.bays[b].misses + 1) 3 }))
    else s.setLine b (fun l => { l with misses := min (s.line.bays[b].misses + 1) 3 })) := rfl

theorem countPoll_of_other {b : BayId} (h : s.reg[b].state ≠ .interrogating) : countPoll b s = s := if_neg h

theorem countPoll_below {b : BayId} (h : s.reg[b].state = .interrogating) (hc : s.reg[b].pollCount < 2) :
    countPoll b s = s.setReg b (fun r => { r with pollCount := r.pollCount + 1 }) :=
  (if_pos h).trans (if_neg (by omega))

theorem countPoll_third {b : BayId} (h : s.reg[b].state = .interrogating) (hc : 2 ≤ s.reg[b].pollCount) :
    countPoll b s = goLost b false (s.setReg b (fun r => { r with pollCount := r.pollCount + 1 })) :=
  (if_pos h).trans (if_pos (by omega))

/-- The window closed, with a miss counted. -/
def counted (b : BayId) (n : Nat) (s : State) : State :=
  ({ s with line := { s.line with exchange := none } } : State).setLine b (fun l => { l with misses := n })

theorem counted_bay (b : BayId) (n : Nat) (s : State) : (counted b n s).line.bays[b] = { s.line.bays[b] with misses := n } := upd_same _ _ _

theorem counted_sameJob (b : BayId) (n : Nat) (s : State) : SameJob s (counted b n s) b := ⟨rfl, rfl, rfl, rfl, fun _ => rfl⟩

/-- R27, R28, R7: the close of the window of a missed poll. -/
theorem closeWindow_missed (hx : s.line.exchange = some x) (h : x.limit ≤ s.now * 1000) (htaken : x.answer ≠ .taken) (hwas : x.wasLost = false) :
    closeWindow s = skipBays (countPoll x.bay
      (if min (s.line.bays[x.bay].misses + 1) 3 = 3 ∧ s.line.bays[x.bay].grace = none ∧ s.reg[x.bay].state ≠ .lost then
        goLost x.bay false (counted x.bay (min (s.line.bays[x.bay].misses + 1) 3) s)
      else counted x.bay (min (s.line.bays[x.bay].misses + 1) 3) s)) := by
  rw [closeWindow_over hx h, if_neg htaken, hwas, missPoll_of_awake]
  rfl

theorem TornDown.skipped {t : State} {b : BayId} {lost : Bool} (h : TornDown s t b lost) : TornDown s (skipBays t) b lost :=
  ⟨h.activity, h.run, h.cleaning, h.rinseOwed, h.transfer, h.sequence, h.interrogation, h.line, h.orders, h.allowance⟩

/-- R28, R7: the third miss, or the third poll of an interrogation. -/
theorem closeWindow_third (hx : s.line.exchange = some x) (h : x.limit ≤ s.now * 1000) (htaken : x.answer ≠ .taken) (hwas : x.wasLost = false)
    (hst : s.reg[x.bay].state ≠ .lost) (hthird : 2 ≤ s.line.bays[x.bay].misses ∧ s.line.bays[x.bay].grace = none ∨
      s.reg[x.bay].state = .interrogating ∧ 2 ≤ s.reg[x.bay].pollCount) :
    ∃ u, closeWindow s = skipBays (goLost x.bay false u) ∧ SameJob s u x.bay ∧ Later s u ∧ u.line.exchange = none ∧
      u.reg[x.bay].state = s.reg[x.bay].state := by
  have hclose := closeWindow_missed hx h htaken hwas
  by_cases hmiss : min (s.line.bays[x.bay].misses + 1) 3 = 3 ∧ s.line.bays[x.bay].grace = none ∧ s.reg[x.bay].state ≠ .lost
  · obtain ⟨⟨a, hreg⟩, -⟩ := goLost_does (s := counted x.bay (min (s.line.bays[x.bay].misses + 1) 3) s) (b := x.bay) hst false _ rfl
    rw [if_pos hmiss, countPoll_of_other (by rw [hreg]; nofun)] at hclose
    exact ⟨_, hclose, counted_sameJob _ _ s, ⟨rfl, rfl, List.prefix_rfl, id⟩, rfl, rfl⟩
  · rw [if_neg hmiss] at hclose
    have hpolls : s.reg[x.bay].state = .interrogating ∧ 2 ≤ s.reg[x.bay].pollCount :=
      hthird.resolve_left fun hm => hmiss ⟨by omega, hm.2, hst⟩
    obtain ⟨hint, hcount⟩ := hpolls
    have hthird' := countPoll_third (s := counted x.bay (min (s.line.bays[x.bay].misses + 1) 3) s) (b := x.bay) hint hcount
    rw [hthird'] at hclose
    refine ⟨_, hclose, ?_, ⟨rfl, rfl, List.prefix_rfl, id⟩, rfl, ?_⟩
    · have hcounted := setReg_sameJob (b := x.bay) (fun r => { r with pollCount := r.pollCount + 1 }) (fun _ => rfl)
        (counted x.bay (min (s.line.bays[x.bay].misses + 1) 3) s) x.bay
      exact ⟨hcounted.activity, rfl, rfl, rfl, fun _ => rfl⟩
    · rw [setReg_same]
      rfl

theorem spoil_of_begun (hx : s.line.exchange = some x) (ha : x.answer = .awaited) (h : x.limit ≤ s.now * 1000 + 20000) :
    spoil s = { s with line := { s.line with exchange := some { x with answer := .spoilt } } } := by
  rw [spoil, hx, Option.map_some, Exchange.spoil, if_pos ⟨ha, decide_eq_true h⟩]

theorem spoil_of_early (hx : s.line.exchange = some x) (h : s.now * 1000 + 20000 < x.limit) : spoil s = s := by
  rw [spoil, hx, Option.map_some, Exchange.spoil, if_neg, ← hx]
  rintro ⟨-, hbegun⟩
  rw [Exchange.begun, decide_eq_true_eq] at hbegun
  exact absurd (show x.limit ≤ s.now * 1000 + 20000 from hbegun) (not_le.mpr h)

end

/-- Settles O25. -/
theorem missedPollsExpireTheBay : Obligations.MissedPollsExpireTheBay := by
  intro s x hs hx
  have same : ∀ {c : Instr} {u : State} {g : State → State}, exec c s = .next (whileOn g s) → g s = u → Completes c s (SameButSending u) := fun hc hg =>
    completes_whileOn hs hc (hg ▸ pump_sameButSending _)
  refine ⟨fun ha c hc => ⟨fun hbegun => ?_, fun hearly => ?_⟩, fun hearly => same rfl (closeWindow_early hx hearly), fun hover => ?_⟩
  · obtain rfl | rfl := hc <;> exact same (g := spoil) rfl (spoil_of_begun hx ha hbegun)
  · obtain rfl | rfl := hc <;> exact same (g := spoil) rfl (spoil_of_early hx hearly)
  have hclose := closeWindow_over hx hover
  refine ⟨fun hdone => ?_, fun htaken hwas => ?_⟩
  · have hquiet : closeWindow s = skipBays { s with line := { s.line with exchange := none } } := by
      rw [hclose]
      split
      · rfl
      · next ht => rw [missPoll, if_pos (hdone.resolve_left ht)]
    refine completes_event hs rfl fun tx sent => ?_
    rw [hquiet]
    exact ⟨rfl, rfl, rfl⟩
  have hmissed := closeWindow_missed hx hover htaken hwas
  refine ⟨fun hm hst => ?_, fun hm hst hc => ?_, fun hm hgrace hst => ?_, fun hst hthird => ?_⟩
  · have hn : min (s.line.bays[x.bay].misses + 1) 3 = s.line.bays[x.bay].misses + 1 := by omega
    rw [hn, if_neg (fun hno => by omega), countPoll_of_other (s := counted x.bay _ s) hst] at hmissed
    refine completes_event hs rfl fun tx sent => ?_
    rw [hmissed]
    exact ⟨rfl, counted_bay _ _ s, rfl⟩
  · have hn : min (s.line.bays[x.bay].misses + 1) 3 = s.line.bays[x.bay].misses + 1 := by omega
    rw [hn, if_neg (fun hno => by omega), countPoll_below (s := counted x.bay _ s) hst hc] at hmissed
    refine completes_event hs rfl fun tx sent => ?_
    rw [hmissed]
    exact ⟨rfl, counted_bay _ _ s, setReg_same (counted x.bay _ s) _ _, rfl⟩
  · have hn : min (s.line.bays[x.bay].misses + 1) 3 = 3 := by omega
    rw [hn, if_neg (fun hno => hgrace.elim (fun hg => by rw [hno.2.1] at hg; cases hg) hno.2.2),
      countPoll_of_other (s := counted x.bay _ s) hst] at hmissed
    refine completes_event hs rfl fun tx sent => ?_
    rw [hmissed]
    exact ⟨rfl, counted_bay _ _ s, rfl⟩
  · obtain ⟨u, hclosed, hsame, hlater, hexchange, hstate⟩ := closeWindow_third hx hover htaken hwas hst hthird
    refine completes_event hs rfl fun tx sent => ?_
    rw [hclosed]
    obtain ⟨⟨a, hreg⟩, hstill, hcond, htold, htorn⟩ := goLost_does (s := u) (b := x.bay) (by rw [hstate]; exact hst) false _ rfl
    have hcycle : (goLost x.bay false u).line.exchange = none := by
      rw [((Touches.refl (m := .all) u).goLost (Parts.all_oven x.bay) false).cycle]
      exact hexchange
    generalize goLost x.bay false u = t at hreg hstill hcond htold htorn hcycle
    exact ⟨hcycle, congrArg RegBay.state hreg, hstill.counts.1, hcond, htold.since hlater,
      fun hj => ((htorn (hsame.jobOf hj)).of_same hsame).skipped.sending _ _⟩

end Sys2Proof.Machine


/-! PROOF. The identity records of the ovens (O27). -/

namespace Sys2Proof.Machine

set_option Elab.async false

open Sys2Proof

/-! ## The valid answer (R27, R31) -/

/-- What the acceptance of orders may change. -/
def Parts.accepting (b : BayId) : Parts :=
  { line := fun _ => True, drops := fun d _ => d = b, grace := (· = b), run := (· = b), runEnd := (· = b), cleaning := (· = b), cleanEnd := (· = b),
    shares := True, flow := fun _ => True }

theorem acceptOrders_touches (b : BayId) (l : List Order) (s : State) : Touches (.accepting b) s (acceptOrders b l s) :=
  (Touches.refl s).acceptOrders ⟨⟨trivial, rfl, rfl, rfl, fun _ => trivial⟩, rfl, rfl⟩ (fun _ => rfl) rfl ⟨trivial, fun _ => trivial⟩ l

section

variable {s : State} {x : Exchange}

theorem takeAnswer_exchange (hx : s.line.exchange = some x) : (takeAnswer x.bay s).line.exchange = some { x with answer := .taken } := by
  show Option.map (fun y : Exchange => { y with answer := .taken }) s.line.exchange = _
  rw [hx]
  rfl

theorem takeAnswer_misses (b : BayId) (s : State) : (takeAnswer b s).line.bays[b].misses = 0 := congrArg LineBay.misses (upd_same s.line.bays b _)

/-- The bay's part of an identity record's acceptances. -/
def identityTaken (x : Exchange) (s : State) : State :=
  if x.carried.any (fun o => o.body.is .identify) then acceptOrders x.bay x.carried (takeAnswer x.bay s) else takeAnswer x.bay s

theorem identityTaken_after (x : Exchange) (s : State) : Touches (.accepting x.bay) (takeAnswer x.bay s) (identityTaken x s) := by
  unfold identityTaken
  split
  · exact acceptOrders_touches _ _ _
  · exact Touches.refl _

theorem identityTaken_reg (x : Exchange) (s : State) (d : BayId) : (identityTaken x s).reg[d] = s.reg[d] :=
  (identityTaken_after x s).reg_same id id

theorem identityTaken_misses (x : Exchange) (s : State) : (identityTaken x s).line.bays[x.bay].misses = 0 :=
  ((identityTaken_after x s).misses x.bay id).trans (takeAnswer_misses x.bay s)

theorem identityTaken_later (x : Exchange) (s : State) : Later s (identityTaken x s) :=
  Later.trans (t := takeAnswer x.bay s) ⟨rfl, rfl, List.prefix_rfl, id⟩ (identityTaken_after x s).later

theorem Exchange.inTime_iff (x : Exchange) (time now : Nat) :
    x.inTime time now = true ↔ x.answer = .awaited ∧ x.limit + time ≤ now * 1000 + 20000 ∧ now * 1000 ≤ x.limit + time := by
  simp only [Exchange.inTime, Bool.and_eq_true, decide_eq_true_eq, and_assoc]
  rfl

variable {r : IdentityBody}

theorem takeIdentityRecord_late (hx : s.line.exchange = some x) (h : ¬ x.inTime (880 + r.gaps) s.now = true) : takeIdentityRecord r s = s := by
  unfold takeIdentityRecord
  rw [hx]
  refine if_pos ?_
  rw [show identityTime = 880 from rfl]
  exact Bool.eq_false_of_not_eq_true h

theorem takeIdentityRecord_gapped (hx : s.line.exchange = some x) (h : x.inTime (880 + r.gaps) s.now = true) (hg : 21 * 1000 < r.gaps) :
    takeIdentityRecord r s = spoil s := by
  unfold takeIdentityRecord
  rw [hx]
  refine (if_neg ?_).trans (if_pos ?_)
  · rw [show identityTime = 880 from rfl, h]
    decide
  · exact hg

theorem takeIdentityRecord_taken (hx : s.line.exchange = some x) (h : x.inTime (880 + r.gaps) s.now = true) (hg : r.gaps ≤ 21 * 1000) :
    takeIdentityRecord r s = handIdentity x.bay r (identityTaken x s) := by
  unfold takeIdentityRecord
  rw [hx]
  refine (if_neg ?_).trans (if_neg ?_)
  · rw [show identityTime = 880 from rfl, h]
    decide
  · exact not_lt.mpr hg

end

/-! ## What the bay's state makes of an identity (R8, R32) -/

section

variable {s : State} {b : BayId} {r : IdentityBody}

theorem handIdentity_of_interrogating (h : s.reg[b].state = .interrogating) :
    handIdentity b r s = if identityOk r then takeIdentity b (identityOf r) s else countPoll b s := by
  simp only [handIdentity, h]

theorem handIdentity_of_lost (h : s.reg[b].state = .lost) : handIdentity b r s = setBayState b .interrogating .answered s := by
  simp only [handIdentity, h]

theorem handIdentity_of_other (h1 : s.reg[b].state ≠ .interrogating) (h2 : s.reg[b].state ≠ .lost) (h3 : s.reg[b].state ≠ .empty)
    (h4 : s.reg[b].state ≠ .settling) : handIdentity b r s = if identityOk r then takeReturn b (identityOf r) s else s := by
  unfold handIdentity
  cases hst : s.reg[b].state <;> simp_all [-Fin.getElem_fin]

variable {i : Identity}

theorem takeIdentity_new (h : s.reg[b].commission = none) :
    takeIdentity b i s = setBayState b .uncommissioned .new (s.setReg b (fun r => { r with identity := some i })) := by
  simp only [takeIdentity, h]

theorem takeIdentity_other {c : Commission} (h : s.reg[b].commission = some c) (hc : c.serial ≠ i.serial) : takeIdentity b i s =
    setBayState b .uncommissioned .new (dropCommission b (s.setReg b (fun r => { r with identity := some i }))) := by
  simp only [takeIdentity, h]
  exact if_neg hc

theorem takeIdentity_matched {c : Commission} (h : s.reg[b].commission = some c) (hc : c.serial = i.serial) : takeIdentity b i s =
    if i.supply = c.prov.supply ∧ i.rated ≤ c.prov.circuitMax then setBayState b .ready .matched (s.setReg b (fun r => { r with identity := some i }))
    else setBayState b .refused .supply (s.setReg b (fun r => { r with identity := some i })) := by
  simp only [takeIdentity, h]
  refine (if_pos hc).trans ?_
  unfold supplyOutcome
  simp only [supplyFits_iff]

/-- R8: a change of state that an identity record makes. -/
theorem identified {u : State} {st : BayState} {cause : BayCause} (hu : Later s u) (hm : u.line.bays[b].misses = 0) (hst : st ≠ .interrogating)
    (h : u.reg[b].state = .interrogating) : (setBayState b st cause u).line.bays[b].misses = 0 ∧
      (setBayState b st cause u).reg[b] = { u.reg[b] with state := st } ∧ TellsBay s (setBayState b st cause u) b st cause :=
  ⟨((setBayState_touches b st cause u).misses b id).trans hm, setBayState_reg hst cause,
    (tells_setBayState (by rw [h]; exact hst.symm) cause).since hu⟩

/-- R8: an identity record in range of an INTERROGATING bay. -/
theorem takeIdentity_decides (hm : s.line.bays[b].misses = 0) (hst : s.reg[b].state = .interrogating) (t : State) (ht : t = takeIdentity b i s) :
    t.line.bays[b].misses = 0 ∧ t.reg[b].identity = some i ∧
      (s.reg[b].commission = none → t.reg[b].state = .uncommissioned ∧ TellsBay s t b .uncommissioned .new) ∧
      (∀ c, s.reg[b].commission = some c →
        (c.serial ≠ i.serial → t.reg[b].state = .uncommissioned ∧ t.reg[b].commission = none ∧ TellsBay s t b .uncommissioned .new) ∧
        (c.serial = i.serial → t.reg[b].commission = some c ∧
          (i.supply = c.prov.supply ∧ i.rated ≤ c.prov.circuitMax → t.reg[b].state = .ready ∧ TellsBay s t b .ready .matched) ∧
          (¬ (i.supply = c.prov.supply ∧ i.rated ≤ c.prov.circuitMax) → t.reg[b].state = .refused ∧ TellsBay s t b .refused .supply))) := by
  have hreg : (s.setReg b (fun r => { r with identity := some i })).reg[b] = { s.reg[b] with identity := some i } := setReg_same _ _ _
  have hplain : ∀ {st : BayState} {cause : BayCause}, st ≠ .interrogating → _ := fun {st} {cause} hne =>
    identified (s := s) (u := s.setReg b (fun r => { r with identity := some i })) (b := b) (st := st) (cause := cause) ⟨rfl, rfl, List.prefix_rfl, id⟩ hm hne
      (by rw [hreg]; exact hst)
  subst ht
  cases hcom : s.reg[b].commission with
  | none =>
    rw [takeIdentity_new hcom]
    obtain ⟨hmiss, hset, htold⟩ := hplain (st := .uncommissioned) (cause := .new) nofun
    rw [hreg] at hset
    rw [hset]
    exact ⟨hmiss, rfl, fun _ => ⟨rfl, htold⟩, nofun⟩
  | some c =>
    by_cases hserial : c.serial = i.serial
    · rw [takeIdentity_matched hcom hserial]
      by_cases hfits : i.supply = c.prov.supply ∧ i.rated ≤ c.prov.circuitMax
      · obtain ⟨hmiss, hset, htold⟩ := hplain (st := .ready) (cause := .matched) nofun
        rw [hreg] at hset
        rw [if_pos hfits, hset]
        refine ⟨hmiss, rfl, nofun, fun d hd => ?_⟩
        obtain rfl := Option.some_inj.1 hd
        exact ⟨fun hne => absurd hserial hne, fun _ => ⟨hcom, fun _ => ⟨rfl, htold⟩, fun hn => absurd hfits hn⟩⟩
      · obtain ⟨hmiss, hset, htold⟩ := hplain (st := .refused) (cause := .supply) nofun
        rw [hreg] at hset
        rw [if_neg hfits, hset]
        refine ⟨hmiss, rfl, nofun, fun d hd => ?_⟩
        obtain rfl := Option.some_inj.1 hd
        exact ⟨fun hne => absurd hserial hne, fun _ => ⟨hcom, fun h => absurd h hfits, fun _ => ⟨rfl, htold⟩⟩⟩
    · rw [takeIdentity_other hcom hserial]
      have hdropped : (dropCommission b (s.setReg b (fun r => { r with identity := some i }))).reg[b] = { s.reg[b] with identity := some i, commission := none } := by
        rw [dropCommission_reg, hreg]
      have hu : Touches { reg := (· = b), store := True } s (dropCommission b (s.setReg b (fun r => { r with identity := some i }))) :=
        ((Touches.refl s).setReg rfl).dropCommission rfl trivial
      generalize dropCommission b (s.setReg b (fun r => { r with identity := some i })) = u at hdropped hu ⊢
      obtain ⟨hmiss, hset, htold⟩ := identified (b := b) (st := .uncommissioned) (cause := .new) hu.later ((hu.misses b id).trans hm) nofun
        (by rw [hdropped]; exact hst)
      rw [hdropped] at hset
      rw [hset]
      refine ⟨hmiss, rfl, nofun, fun d hd => ?_⟩
      obtain rfl := Option.some_inj.1 hd
      exact ⟨fun _ => ⟨rfl, rfl, htold⟩, fun h => absurd h hserial⟩

end

/-- Settles O27. -/
theorem identityDecidesTheBayState : Obligations.IdentityDecidesTheBayState := by
  intro s x r hrun hx
  have hon : s.phase ≠ .off := by rw [hrun]; decide
  dsimp only
  have hin := x.inTime_iff (880 + r.gaps) s.now
  refine ⟨fun hlate => ?_, fun ha h1 h2 hg => ?_, fun ha h1 h2 hg => ?_⟩
  · refine completes_whileOn hon rfl ?_
    rw [takeIdentityRecord_late hx (by rw [hin]; rintro ⟨h1, h2, h3⟩; exact hlate.elim (absurd h1) (by omega))]
    exact pump_sameButSending s
  · refine completes_whileOn hon rfl ?_
    rw [takeIdentityRecord_gapped hx (hin.2 ⟨ha, by omega, by omega⟩) hg, spoil_of_begun hx ha (by omega)]
    exact pump_sameButSending _
  have htaken := takeIdentityRecord_taken hx (hin.2 ⟨ha, by omega, by omega⟩) hg
  have hreg := identityTaken_reg x s x.bay
  have hmiss := identityTaken_misses x s
  have hlater := identityTaken_later x s
  have hcarried : identityTaken x s = if x.carried.any (fun o => decide (o.body = .identify)) then acceptOrders x.bay x.carried (takeAnswer x.bay s)
      else takeAnswer x.bay s := by
    have his : ∀ o : Order, o.body.is .identify = decide (o.body = .identify) := fun o => by
      cases hb : o.body <;> simp [OrderBody.is, OrderBody.kind]
    rw [identityTaken]
    simp only [his]
  refine ⟨?_, fun hok hst => ?_, fun hbad hst => ⟨fun hc => ?_, fun hc => ?_⟩, fun hst => ?_, fun h1 h2 h3 h4 => ?_⟩
  · refine completes_event hon rfl fun tx sent => ?_
    rw [htaken]
    have hcycle := ((Touches.refl (m := .all) (identityTaken x s)).handIdentity (Parts.all_oven x.bay) r).cycle
    show (handIdentity x.bay r (identityTaken x s)).line.exchange = _
    rw [hcycle]
    show (identityTaken x s).line.exchange = _
    rw [(identityTaken_after x s).cycle]
    exact takeAnswer_exchange hx
  · refine completes_event hon rfl fun tx sent => ?_
    obtain ⟨hm, hident, hnone, hsome⟩ := takeIdentity_decides (i := identityOf r) hmiss (by rw [hreg]; exact hst) _ rfl
    rw [htaken, handIdentity_of_interrogating (by rw [hreg]; exact hst), if_pos hok]
    rw [hreg] at hnone hsome
    generalize takeIdentity x.bay (identityOf r) (identityTaken x s) = t at hm hident hnone hsome
    refine ⟨hm, hident, fun hc => ?_, fun c hc => ⟨fun hne => ?_, fun he => ?_⟩⟩
    · obtain ⟨hs', htold⟩ := hnone hc
      exact ⟨hs', htold.since hlater⟩
    · obtain ⟨hs', hgone, htold⟩ := (hsome c hc).1 hne
      exact ⟨hs', hgone, htold.since hlater⟩
    · obtain ⟨hkept, hfits, hmisfits⟩ := (hsome c hc).2 he
      exact ⟨hkept, fun hf => ⟨(hfits hf).1, (hfits hf).2.since hlater⟩, fun hf => ⟨(hmisfits hf).1, (hmisfits hf).2.since hlater⟩⟩
  · have hint : (identityTaken x s).reg[x.bay].state = .interrogating := by rw [hreg]; exact hst
    refine completes_event hon rfl fun tx sent => ?_
    rw [htaken, handIdentity_of_interrogating hint, if_neg (by rw [hbad]; nofun), countPoll_below hint (by rw [hreg]; exact hc)]
    exact ⟨(setReg_same _ _ _).trans (by rw [hreg]), hmiss⟩
  · have hint : (identityTaken x s).reg[x.bay].state = .interrogating := by rw [hreg]; exact hst
    refine completes_event hon rfl fun tx sent => ?_
    rw [htaken, handIdentity_of_interrogating hint, if_neg (by rw [hbad]; nofun), countPoll_third hint (by rw [hreg]; exact hc)]
    have hpolled := setReg_same (identityTaken x s) x.bay fun g => { g with pollCount := g.pollCount + 1 }
    have hpast : Later s ((identityTaken x s).setReg x.bay fun g => { g with pollCount := g.pollCount + 1 }) :=
      hlater.trans ⟨rfl, rfl, List.prefix_rfl, id⟩
    rw [hreg] at hpolled
    generalize (identityTaken x s).setReg x.bay (fun g => { g with pollCount := g.pollCount + 1 }) = u at hpolled hpast ⊢
    obtain ⟨⟨a, hlost⟩, hstill, -, htold, -⟩ := goLost_does (s := u) (b := x.bay) (by rw [hpolled, hst]; nofun) false _ rfl
    rw [hpolled] at hlost
    generalize goLost x.bay false u = t at hlost hstill htold
    exact ⟨congrArg RegBay.state hlost, (congrArg RegBay.identity hlost).trans rfl, hstill.counts.1, htold.since hpast⟩
  · have hlost : (identityTaken x s).reg[x.bay].state = .lost := by rw [hreg]; exact hst
    have hne : (identityTaken x s).reg[x.bay].state ≠ .interrogating := by rw [hlost]; nofun
    refine completes_event hon rfl fun tx sent => ?_
    rw [htaken, handIdentity_of_lost hlost]
    have hentered := setBayState_reg_interrogating hne .answered
    have hnone : (setBayState x.bay .interrogating .answered (identityTaken x s)).line.bays[x.bay].misses = 0 :=
      ((setBayState_touches x.bay .interrogating .answered (identityTaken x s)).misses x.bay id).trans hmiss
    have htold := (tells_setBayState hne .answered).since hlater
    rw [hreg] at hentered
    generalize setBayState x.bay .interrogating .answered (identityTaken x s) = t at hentered hnone htold
    exact ⟨congrArg RegBay.state hentered, (congrArg RegBay.identity hentered).trans rfl, congrArg RegBay.pollCount hentered, hnone, htold⟩
  · rw [← hreg] at h1 h2 h3 h4
    refine completes_whileOn hon rfl ?_
    rw [htaken, handIdentity_of_other h1 h2 h3 h4, hcarried]
    exact pump_sameButSending _

end Sys2Proof.Machine


/-! PROOF. RUN-ABORT, the deadlines of a run, PROMPT-DONE and RUN-CLEAR (O33). -/

namespace Sys2Proof.Machine

set_option Elab.async false

open Sys2Proof

/-! ## A run that is aborted -/

/-- The record and the notice of a run that has been aborted. -/
def AbortedFor (s t : State) (b : BayId) (r : Run) (reason : RunReason) : Prop :=
  ∃ x, t.runs.runs[b] = some x ∧ x.id = r.id ∧ x.state = .aborted ∧ x.reason = reason ∧ x.ended = some (s.now / 1000) ∧ x.maxDue = none ∧
    x.wakeDue = none ∧ x.graceDue = none ∧ x.prompt = none ∧ x.runawayDue = none ∧
    Tells s t .runEnd [bayTok b, .num r.id, wd "ABORTED", wd reason.word, .num r.number, .num r.rev.revision, .num r.stepIndex, .num x.soilAdded]

section

variable {s u : State} {b : BayId} {r : Run}

theorem abortRun_aborts (hl : liveRun s b = some r) (reason : RunReason) : AbortedFor s (abortRun b reason s) b r reason := by
  obtain ⟨id, sp, hrun⟩ := endRun_run hl .aborted reason .safe .now
  obtain ⟨n, hclose⟩ := r.close_eq .aborted reason s.now
  rw [hclose] at hrun
  exact ⟨_, hrun, rfl, rfl, rfl, rfl, rfl, rfl, rfl, rfl, rfl, tells_endRun hl .aborted reason .safe .now⟩

theorem AbortedFor.since {t : State} {reason : RunReason} (h : AbortedFor u t b r reason) (hu : Later s u) : AbortedFor s t b r reason := by
  obtain ⟨x, hx, hid, hst, hreason, hended, hmax, hwake, hgrace, hprompt, hrunaway, htold⟩ := h
  exact ⟨x, hx, hid, hst, hreason, by rw [hended, hu.now], hmax, hwake, hgrace, hprompt, hrunaway, htold.since hu⟩

/-- An occurrence reported before the run is aborted. -/
theorem abortRun_reported (hl : liveRun s b = some r) (k : EventKind) (reason : RunReason) :
    AbortedFor s (abortRun b reason (report b k s)) b r reason := by
  have hreported := (Touches.refl (m := .alarm b) s).report (Parts.alarm_alarm b) k
  exact (abortRun_aborts (by rw [liveRun, hreported.run b id]; exact hl) reason).since hreported.later

theorem completes_aborted {c : Instr} {g : State → State} {reason : RunReason} (hon : s.phase ≠ .off) (hc : exec c s = .next (whileOn g s))
    (h : AbortedFor s (g s) b r reason) : Completes c s fun t => AbortedFor s t b r reason :=
  completes_event hon hc fun tx sent => by
    obtain ⟨x, hx, hid, hst, hreason, hended, hmax, hwake, hgrace, hprompt, hrunaway, htold⟩ := h
    exact ⟨x, hx, hid, hst, hreason, hended, hmax, hwake, hgrace, hprompt, hrunaway, htold.mono (later_sending _ tx sent)⟩

/-! ## The requests -/

theorem runAbort_served {w : Txt} (hb : NamesBay w b) (hl : liveRun s b = some r) :
    serveVerb .runAbort [w] s = okay .runAbort [bayTok b, .num r.id] (abortRun b .host s) := by
  show serveRunAbort [w] s = _
  unfold serveRunAbort
  rw [withFields_single hb, onBay_of_names rfl, hl]

theorem promptDone_served {w : Txt} (hb : NamesBay w b) (hl : liveRun s b = some r) (hst : r.state = .prompting) :
    serveVerb .promptDone [w] s = okay .promptDone [bayTok b, .num r.id] (advanceRun b s) := by
  show servePromptDone [w] s = _
  unfold servePromptDone
  rw [withFields_single hb, onBay_of_names rfl, hl]
  exact if_pos hst

theorem runClear_served {w : Txt} (hb : NamesBay w b) (h : s.runs.runs[b] = some r) (hf : r.state.final = true) : serveVerb .runClear [w] s =
    okay .runClear [bayTok b, .num r.id] { s with runs := { s.runs with runs := upd s.runs.runs b (fun _ => none) } } := by
  show serveRunClear [w] s = _
  unfold serveRunClear
  rw [withFields_single hb, onBay_of_names rfl, h]
  exact if_pos hf

/-! ## The next step of a run (R74, R75) -/

/-- A run whose step is ordered as a new step (R69). -/
def Run.ordered (clamped : Bool) (r : Run) : Run :=
  { r with orderedId := none, accepted := false, reorder := false, elapsed := .zero, maxDue := none, clamped := clamped }

/-- R69: the record of a run whose step has been ordered. -/
theorem orderStep_run {st : Step} (hl : liveRun s b = some r) (hst : r.step = some st) : ∃ id sp, (orderStep b s).runs.runs[b] =
    some { r.ordered (decide (ceilingOf s b < st.target)) with orderedId := id, setpoint := sp } := by
  have hordered : (s.setRun b (Run.ordered (decide (ceilingOf s b < st.target)))).runs.runs[b] = some (r.ordered (decide (ceilingOf s b < st.target))) := by
    rw [setRun_run, (liveRun_eq_some hl).1]
    rfl
  unfold orderStep
  rw [hl]
  dsimp only
  rw [hst]
  dsimp only
  rw [recompute_run]
  obtain ⟨id, sp, hrun⟩ := run_of_job hordered (((Touches.refl (m := .orders b) _).placeOrder (b := b) ⟨rfl, rfl, rfl, rfl, fun _ => trivial⟩
    (stepOrder r st (stepSetpoint s b st r.latestCore)) .step).runEnd b id)
  exact ⟨id, sp, hrun⟩

theorem advanceRun_next (hl : liveRun s b = some r) (h : r.stepIndex < r.rev.steps.length) : ∃ x, (advanceRun b s).runs.runs[b] = some x ∧
    x.state = .running ∧ x.stepIndex = r.stepIndex + 1 ∧ x.prompt = none ∧ x.accepted = false := by
  have hnext : liveRun (s.setRun b (fun x => { x with state := .running, prompt := none, stepIndex := x.stepIndex + 1 })) b =
      some { r with state := .running, prompt := none, stepIndex := r.stepIndex + 1 } :=
    liveRun_of_live (by rw [setRun_run, (liveRun_eq_some hl).1]; rfl) rfl
  obtain ⟨id, sp, hrun⟩ := orderStep_run hnext (st := r.rev.steps[r.stepIndex]) (List.getElem?_eq_getElem h)
  rw [advanceRun, hl]
  dsimp only
  rw [if_pos h]
  exact ⟨_, hrun, rfl, rfl, rfl, rfl⟩

theorem advanceRun_last (hl : liveRun s b = some r) (h : r.rev.steps.length ≤ r.stepIndex) : ∃ x, (advanceRun b s).runs.runs[b] = some x ∧
    x.state = .done ∧ x.reason = .nothing ∧ x.ended = some (s.now / 1000) := by
  have hprompted : liveRun (s.setRun b (fun x => { x with prompt := none })) b = some { r with prompt := none } :=
    liveRun_of_live (by rw [setRun_run, (liveRun_eq_some hl).1]; rfl) (liveRun_eq_some hl).2
  obtain ⟨id, sp, hrun⟩ := endRun_run hprompted .done .nothing .idleStep .now
  obtain ⟨n, hclose⟩ := Run.close_eq { r with prompt := none } .done .nothing s.now
  rw [State.setRun_now, hclose] at hrun
  rw [advanceRun, hl]
  dsimp only
  rw [if_neg (by omega)]
  exact ⟨_, hrun, rfl, rfl, rfl⟩

end

/-- Settles O33. -/
theorem runDeadlinesAbortTheRun : Obligations.RunDeadlinesAbortTheRun := by
  refine ⟨fun s b r hr hf => ?_, fun s w b r hs hb hr => ⟨fun hst hi => ?_, fun hst hi => ?_, fun hf => ?_⟩⟩
  · have hl := liveRun_of_live hr hf
    refine ⟨fun w hs hb => ?_, fun d hrun hd => ?_, fun d hrun hst hmax hd => ?_⟩
    · refine completes_of_answered (answered_of_served hs (runAbort_served hb hl)) ?_
      have hend := abortRun_aborts hl .host
      generalize abortRun b .host s = t at hend
      obtain ⟨x, hx, hid, hst, hreason, hended, hmax, hwake, hgrace, hprompt, hrunaway, htold⟩ := hend
      exact ⟨x, hx, hid, hst, hreason, hended, hmax, hwake, hgrace, hprompt, hrunaway, htold.mono (later_replying _ t)⟩
    · have hon : s.phase ≠ .off := by rw [hrun]; decide
      have hdue := reached_some hd
      refine ⟨fun hw => ?_, fun seen hp => ?_, fun hg => ?_, fun hw => ?_⟩
      · refine completes_aborted (g := runWakeExpires b) hon rfl ?_
        rw [runWakeExpires, hl]
        dsimp only
        rw [hw, State.sec, hdue, if_pos rfl]
        exact abortRun_aborts hl .noWake
      · refine completes_aborted (g := promptExpires b) hon rfl ?_
        rw [promptExpires, hl]
        dsimp only
        rw [hp, Option.map_some, State.sec, hdue, if_pos rfl]
        exact abortRun_aborts hl .promptTimeout
      · refine completes_aborted (g := runDoorExpires b) hon rfl ?_
        rw [runDoorExpires, hl]
        dsimp only
        rw [hg, State.sec, hdue, if_pos rfl]
        exact abortRun_reported hl .doorTimeout .doorTimeout
      · refine completes_aborted (g := runawayExpires b) hon rfl ?_
        rw [runawayExpires, hl]
        dsimp only
        rw [hw, State.sec, hdue, if_pos rfl]
        exact abortRun_reported hl .tempRunaway .runaway
    · refine completes_aborted (g := maximumTimeExpires b) (by rw [hrun]; decide) rfl ?_
      rw [maximumTimeExpires, hl]
      dsimp only
      rw [hmax, reached_some hd, if_pos ⟨hst, rfl⟩]
      exact abortRun_reported hl .coreNotReached .coreNotReached
  · have hl := liveRun_of_live hr (by rw [hst]; rfl)
    exact completes_of_answered (answered_of_served hs (promptDone_served hb hl hst)) ⟨advanceRun_next hl hi, rfl⟩
  · have hl := liveRun_of_live hr (by rw [hst]; rfl)
    exact completes_of_answered (answered_of_served hs (promptDone_served hb hl hst)) ⟨advanceRun_last hl hi, rfl⟩
  · exact answered_of_served hs (runClear_served hb hr hf)

end Sys2Proof.Machine


/-! PROOF. The ends of a cleaning (O43), and the end and the overrun of a phase (O42). -/

namespace Sys2Proof.Machine

set_option Elab.async false

open Sys2Proof

/-! ## A cleaning that ends -/

/-- The record and the notice of a cleaning that has ended. -/
structure CleanEnded (s t : State) (b : BayId) (c : CleanRec) (st : CleanState) (oc : CleanOutcome) (r : CleanReason) : Prop where
  record : ∃ x, t.clean[b].record = some x ∧ x.program = c.program ∧ x.state = st ∧ x.outcome = oc ∧ x.reason = r ∧ x.ended = some (s.now / 1000)
  hygiene : t.clean[b].hygiene = s.clean[b].hygiene
  told : Tells s t .cleanEnd [bayTok b, wd st.word, wd r.word, wd c.program.word, wd oc.word, .num s.clean[b].hygiene.soil, .yn s.clean[b].hygiene.rinseOwed]

section

variable {s t u : State} {b : BayId} {c : CleanRec} {st : CleanState} {oc : CleanOutcome} {r : CleanReason}

theorem endClean_ended (hl : liveClean s b = some c) (hp : s.clean[b].pendingWindow = none) (st : CleanState) (oc : CleanOutcome) (r : CleanReason)
    (safe : Bool) : CleanEnded s (endClean b st oc r safe .now s) b c st oc r := by
  obtain ⟨id, hrec⟩ := endClean_record hl hp st oc r safe .now
  exact ⟨⟨_, hrec, rfl, rfl, rfl, rfl, rfl⟩, endClean_hygiene st oc r safe .now b, tells_endClean hl st oc r safe .now⟩

/-- A report after the end leaves the record. -/
theorem CleanEnded.reported (h : CleanEnded s t b c st oc r) (k : EventKind) : CleanEnded s (report b k t) b c st oc r := by
  have hreported := (Touches.refl (m := .alarm b) t).report (Parts.alarm_alarm b) k
  obtain ⟨hrec, hhyg, htold⟩ := h
  exact ⟨by rw [hreported.cleaning b id]; exact hrec, (hreported.hygiene b id).trans hhyg, htold.mono hreported.later⟩

/-- A report before the end leaves the cleaning as it was. -/
theorem report_cleaning (hl : liveClean s b = some c) (k : EventKind) : liveClean (report b k s) b = some c ∧
    (report b k s).clean[b].rest = s.clean[b].rest ∧ (report b k s).clean[b].hygiene = s.clean[b].hygiene ∧ Later s (report b k s) := by
  have hreported := (Touches.refl (m := .alarm b) s).report (Parts.alarm_alarm b) k
  exact ⟨by rw [liveClean, hreported.cleaning b id]; exact hl, hreported.clean b id, hreported.hygiene b id, hreported.later⟩

theorem CleanEnded.since (h : CleanEnded u t b c st oc r) (hu : Later s u) (hh : u.clean[b].hygiene = s.clean[b].hygiene) : CleanEnded s t b c st oc r := by
  obtain ⟨⟨x, hx, hprog, hst, hoc, hr, hended⟩, hhyg, htold⟩ := h
  rw [hh] at htold
  exact ⟨⟨x, hx, hprog, hst, hoc, hr, by rw [hended, hu.now]⟩, hhyg.trans hh, htold.since hu⟩

theorem endClean_after_report (hl : liveClean s b = some c) (hp : s.clean[b].pendingWindow = none) (k : EventKind) (st : CleanState) (oc : CleanOutcome)
    (r : CleanReason) (safe : Bool) : CleanEnded s (endClean b st oc r safe .now (report b k s)) b c st oc r := by
  obtain ⟨hlive, hrest, hhyg, hlater⟩ := report_cleaning hl k
  exact (endClean_ended hlive ((congrArg Prod.fst hrest).trans hp) st oc r safe).since hlater hhyg

theorem CleanEnded.sending (h : CleanEnded s t b c st oc r) (tx : Tx) (sent : List OutLine) :
    CleanEnded s { t with host := { t.host with tx := tx, sent := sent } } b c st oc r := ⟨h.record, h.hygiene, h.told.mono (later_sending _ tx sent)⟩

theorem CleanEnded.replying (h : CleanEnded s t b c st oc r) (reply : Reply) : CleanEnded s (replying reply t) b c st oc r :=
  ⟨h.record, h.hygiene, h.told.mono (later_replying _ t)⟩

theorem completes_cleanEnded {i : Instr} {g : State → State} (hrun : s.phase = .running) (hc : exec i s = .next (whileOn g s))
    (h : CleanEnded s (g s) b c st oc r) : Completes i s fun t => CleanEnded s t b c st oc r :=
  completes_event (by rw [hrun]; decide) hc fun tx sent => h.sending tx sent

/-! ## CLEAN-ABORT (R128) -/

theorem cleanAbort_served {w : Txt} (hb : NamesBay w b) (hl : liveClean s b = some c) : serveVerb .cleanAbort [w] s =
    okay .cleanAbort [bayTok b, wd (abortClean b c.state s).2] (abortClean b c.state s).1 := by
  show serveCleanAbort [w] s = _
  unfold serveCleanAbort
  rw [withFields_single hb, onBay_of_names rfl, hl]

end

/-- Settles O43. -/
theorem cleaningsEndWithTheirReason : Obligations.CleaningsEndWithTheirReason := by
  intro s b c hc hf hp
  have hl := liveClean_of_live hc hf
  have ended : ∀ {i : Instr} {st : CleanState} {r : CleanReason}, Completes i s (fun t => CleanEnded s t b c st .nothing r) → Completes i s (fun t =>
      (∃ x, t.clean[b].record = some x ∧ x.state = st ∧ x.reason = r ∧ x.ended = some (s.now / 1000) ∧ x.program = c.program) ∧
      Tells s t .cleanEnd [bayTok b, wd st.word, wd r.word, wd c.program.word, wd "NONE", .num s.clean[b].hygiene.soil,
        .yn s.clean[b].hygiene.rinseOwed]) := fun {i} {st} {r} ⟨t, ht, ⟨x, hx, hprog, hst, hoc, hr, hended⟩, _, htold⟩ =>
    ⟨t, ht, ⟨x, hx, hst, hr, hended, hprog⟩, htold⟩
  refine ⟨fun hrun d hd hdue => ended ?_, fun hrun hst hcool => ended ?_, fun hrun d hd hdue => ended ?_, fun w hs hb => ?_⟩
  · refine completes_cleanEnded (g := cleanWakeExpires b) hrun rfl ?_
    rw [cleanWakeExpires, hl]
    dsimp only
    rw [hd, State.sec, reached_some hdue, if_pos rfl]
    exact (endClean_ended hl hp .failed .nothing .noWake false).reported .cleanFailed
  · refine completes_cleanEnded (g := coolingExpires b) hrun rfl ?_
    rw [coolingExpires, hl]
    dsimp only
    rw [if_pos ⟨hst, hcool⟩]
    exact (endClean_ended hl hp .failed .nothing .coolTimeout true).reported .cleanFailed
  · refine completes_cleanEnded (g := cleanDoorExpires b) hrun rfl ?_
    rw [cleanDoorExpires, hl]
    dsimp only
    rw [hd, State.sec, reached_some hdue, if_pos rfl]
    exact endClean_after_report hl hp .doorTimeout .interrupted .nothing .doorTimeout true
  · have hserved := cleanAbort_served hb hl
    have answered : ∀ {st : CleanState} {r : CleanReason} {fields : List Tok} {u : State}, serveVerb .cleanAbort [w] s = okay .cleanAbort fields u →
        CleanEnded s u b c st .nothing r → Completes (.cleanAbort [w]) s fun t => CleanEnded s t b c st .nothing r := fun hserve hu =>
      completes_of_answered (answered_of_served hs hserve) (hu.replying _)
    refine ⟨fun hst => ended ?_, fun hst => ended ?_, fun hst => ?_⟩
    · obtain hst | hst := hst <;> rw [hst] at hserved
      · exact answered hserved (endClean_ended hl hp .cancelled .nothing .host false)
      · exact answered hserved (endClean_ended hl hp .cancelled .nothing .host true)
    · obtain hst | hst := hst <;> rw [hst] at hserved
      · exact answered hserved (endClean_ended hl hp .interrupted .nothing .host true)
      · exact answered hserved (endClean_ended hl hp .interrupted .nothing .host true)
    · rw [hst] at hserved
      obtain ⟨id, hrec⟩ := forceRinse_record hl .aborted .host
      rw [show abortClean b .washing s = (forceRinse b .aborted .host s, "RINSING") from rfl] at hserved
      generalize forceRinse b .aborted .host s = u at hrec hserved
      exact completes_of_answered (answered_of_served hs hserved) ⟨⟨_, hrec, rfl, rfl⟩, rfl⟩

/-! ## The end of a phase (R121) -/

section

variable {s : State} {b : BayId} {c : CleanRec}

theorem withdrawPhase_queue (h : s.line.bays[b].held = []) : (withdrawPhase b s).line.bays[b].queue.length ≤ s.line.bays[b].queue.length := by
  unfold withdrawPhase
  dsimp only
  split
  · rw [withdraw_queue h]
    exact List.length_filter_le _ _
  · exact le_rfl

/-- R121: the CLEAN-PHASE that the entry to a phase places. -/
theorem enterPhase_orders (hl : liveClean s b = some c) (st : CleanState) (hready : s.reg[b].state = .ready) (hheld : s.line.bays[b].held = [])
    (hq : s.line.bays[b].queue.length < 6) : ∃ o ∈ (enterPhase b st s).line.bays[b].queue,
      o.body = .cleanPhase st.phase (c.program.seconds st) (if st = .washing then dosesFor s b c.program else 0) := by
  have hqueue := withdrawPhase_queue hheld
  have hstate : (withdrawPhase b s).reg[b].state = .ready := by
    rw [(withdrawPhase_orders b s).reg b id]
    exact hready
  rw [enterPhase, hl]
  dsimp only
  generalize withdrawPhase b s = t at hqueue hstate ⊢
  exact exists_mem_placeOrder (s := t.setCleanRec b _) (takesOrders_of_ready hstate) (hqueue.trans_lt hq) _ _

/-- A recompute leaves a CLEAN-PHASE where it stands. -/
theorem recompute_keeps_phase (s : State) (b : BayId) (k : PhaseKind) (d n : Nat) (h : ∃ o ∈ s.line.bays[b].queue, o.body = .cleanPhase k d n) :
    ∃ o ∈ (recompute s).line.bays[b].queue, o.body = .cleanPhase k d n := by
  obtain ⟨o, ho, hb⟩ := h
  exact ⟨o, (recompute_shared s).stays b o ho id (by rw [hb]; rfl), hb⟩

theorem recompute_hygiene (s : State) (b : BayId) : (recompute s).clean[b].hygiene = s.clean[b].hygiene := (recompute_shared s).hygiene b id

theorem enterPhase_hygiene (b : BayId) (st : CleanState) (s : State) : (enterPhase b st s).clean[b].hygiene = s.clean[b].hygiene :=
  ((Touches.refl (m := { Parts.orders b with cleanEnd := fun _ => True }) s).enterPhase
    ⟨⟨rfl, rfl, rfl, rfl, fun _ => trivial⟩, ⟨rfl, rfl⟩, trivial⟩ st).hygiene b id

/-- R125: the hygiene record at the completion of a rinse. -/
def CleanRec.rinsed (c : CleanRec) (h : Hygiene) : Hygiene :=
  { h with rinseOwed := false, soil := if c.forced.isSome then h.soil else c.program.soilAfter h.soil }

theorem rinseCompletion_eq (b : BayId) (c : CleanRec) (s : State) : rinseCompletion b c s = setHygiene b c.rinsed s := rfl

/-- R125: the cleaning whose rinse is complete. -/
theorem rinseCompletion_keeps_bay (hl : liveClean s b = some c) : liveClean (rinseCompletion b c s) b = some c ∧ (rinseCompletion b c s).reg = s.reg ∧
    (rinseCompletion b c s).line = s.line ∧ (rinseCompletion b c s).clean[b].hygiene = c.rinsed s.clean[b].hygiene := by
  have hsame := setHygiene_clean_same b c.rinsed s
  rw [rinseCompletion_eq]
  refine ⟨?_, by rw [setHygiene_eq], by rw [setHygiene_eq], by rw [hsame]⟩
  rw [liveClean, hsame]
  exact hl

theorem endDrying_eq (b : BayId) (c : CleanRec) (s : State) : endDrying b c s =
    endClean b .done ((c.forced.map Prod.fst).getD .complete) ((c.forced.map Prod.snd).getD .nothing) false .now s := by
  unfold endDrying
  cases c.forced <;> rfl

theorem phaseDurationEnds_over (hl : liveClean s b = some c) (hph : c.state.isPhase = true) (ha : c.accepted = true) (hp : c.paused = false)
    (ho : c.overrunAt = none) (hd : c.duration ≤ c.phaseTime.read s.now) : phaseDurationEnds b s =
      if c.complete then endPhase b s else s.setCleanRec b (fun x => { x with overrunAt := some (c.duration + overrunTime) }) := by
  rw [phaseDurationEnds, hl]
  exact if_pos ⟨hph, ha, hp, ho, hd⟩

theorem endPhase_of_washing (hl : liveClean s b = some c) (hst : c.state = .washing) : endPhase b s = recompute (enterPhase b .rinsing s) := by
  rw [endPhase, hl]
  dsimp only
  rw [hst]

theorem endPhase_of_rinsing (hl : liveClean s b = some c) (hst : c.state = .rinsing) :
    endPhase b s = recompute (enterPhase b .drying (rinseCompletion b c s)) := by
  rw [endPhase, hl]
  dsimp only
  rw [hst]

theorem endPhase_of_drying (hl : liveClean s b = some c) (hst : c.state = .drying) : endPhase b s = endDrying b c s := by
  rw [endPhase, hl]
  dsimp only
  rw [hst]

end

/-- Settles O42. -/
theorem phasesEndOrOverrun : Obligations.PhasesEndOrOverrun := by
  intro s b c hrun hc hp
  have hon : s.phase ≠ .off := by rw [hrun]; decide
  dsimp only
  refine ⟨fun hph ha hpaused ho hd => ?_, fun d ho hd => ?_⟩
  · have hl := liveClean_of_live hc (by cases hst : c.state <;> rw [hst] at hph <;> first | rfl | cases hph)
    have hminutes : c.duration = (match c.state with
        | .washing => (match c.program with | .rinse => 0 | .light => 25 | .medium => 45 | .strong => 75)
        | .rinsing => (match c.program with | .rinse => 12 | .light => 15 | .medium => 20 | .strong => 25)
        | .drying => (match c.program with | .rinse => 3 | .light => 8 | .medium => 10 | .strong => 12)
        | _ => 0) * 60000 := by
      unfold CleanRec.duration
      generalize c.state = st
      generalize c.program = p
      cases st <;> cases p <;> rfl
    have hover := phaseDurationEnds_over hl hph ha hpaused ho (hminutes.trans_le hd)
    refine ⟨fun hcomp => ?_, fun hcomp hst => ?_, fun hcomp hst => ?_, fun hcomp hst => ?_⟩
    · refine completes_event hon rfl fun tx sent => ?_
      rw [hover, if_neg (by rw [hcomp]; nofun), hminutes]
      refine ⟨?_, rfl⟩
      exact (setCleanRec_record _ _ _).trans (by rw [hc]; rfl)
    · obtain ⟨id, hrec⟩ := enterPhase_record hl .rinsing
      have horder := enterPhase_orders (s := s) (b := b) hl .rinsing
      have hseconds : c.program.seconds .rinsing = 60 * (match c.program with | .rinse => 12 | .light => 15 | .medium => 20 | .strong => 25) := by
        cases c.program <;> rfl
      refine completes_event hon rfl fun tx sent => ?_
      rw [hover, if_pos hcomp, endPhase_of_washing hl hst]
      generalize enterPhase b .rinsing s = u at hrec horder
      have hkept := recompute_record u b
      have hstays := recompute_keeps_phase u b
      generalize recompute u = t at hkept hstays
      rw [hseconds] at horder
      exact ⟨⟨_, hkept.trans hrec, rfl, rfl, rfl⟩, fun hready hheld hq => hstays _ _ _ (horder hready hheld hq)⟩
    · obtain ⟨hlive, hreg, hline, hhyg⟩ := rinseCompletion_keeps_bay hl
      have hseconds : c.program.seconds .drying = 60 * (match c.program with | .rinse => 3 | .light => 8 | .medium => 10 | .strong => 12) := by
        cases c.program <;> rfl
      refine completes_event hon rfl fun tx sent => ?_
      rw [hover, if_pos hcomp, endPhase_of_rinsing hl hst]
      generalize rinseCompletion b c s = v at hlive hreg hline hhyg
      obtain ⟨id, hrec⟩ := enterPhase_record hlive .drying
      have horder := enterPhase_orders (s := v) (b := b) hlive .drying
      rw [hreg, hline] at horder
      have hhygiene := (enterPhase_hygiene b .drying v).trans hhyg
      generalize enterPhase b .drying v = u at hrec horder hhygiene
      have hkept := recompute_record u b
      have hsoil := (recompute_hygiene u b).trans hhygiene
      have hstays := recompute_keeps_phase u b
      generalize recompute u = t at hkept hstays hsoil
      rw [hseconds] at horder
      refine ⟨congrArg Hygiene.rinseOwed hsoil, ⟨_, hkept.trans hrec, rfl⟩, fun hready hheld hq => hstays _ _ _ (horder hready hheld hq),
        fun hforced => ?_, fun hforced => ?_⟩
      · exact (congrArg Hygiene.soil hsoil).trans (if_pos (Option.isSome_iff_ne_none.2 hforced))
      · refine (congrArg Hygiene.soil hsoil).trans ((if_neg (by rw [hforced]; nofun)).trans ?_)
        cases c.program <;> rfl
    · have hended := endClean_ended hl hp .done ((c.forced.map Prod.fst).getD .complete) ((c.forced.map Prod.snd).getD .nothing) false
      refine completes_event hon rfl fun tx sent => ?_
      rw [hover, if_pos hcomp, endPhase_of_drying hl hst, endDrying_eq]
      exact ⟨(hended.sending tx sent).record, hended.hygiene, (hended.sending tx sent).told⟩
  · have hdue := reached_some hd
    refine ⟨fun hst => ?_, fun hst => ?_, fun hst => ?_⟩
    · have hl := liveClean_of_live hc (by rw [hst]; rfl)
      obtain ⟨id, hrec⟩ := forceRinse_record (report_cleaning hl .cleanFailed).1 .failed .phaseTimeout
      refine completes_event hon rfl fun tx sent => ?_
      rw [overrunExpires, hl]
      dsimp only
      rw [ho, hdue, if_pos rfl, hst]
      dsimp only
      generalize forceRinse b .failed .phaseTimeout (report b .cleanFailed s) = t at hrec
      exact ⟨_, hrec, rfl, rfl⟩
    · have hl := liveClean_of_live hc (by rw [hst]; rfl)
      obtain ⟨⟨x, hx, -, hst', -, hr, -⟩, -, -⟩ := endClean_after_report hl hp .cleanFailed .interrupted .nothing .phaseTimeout true
      refine completes_event hon rfl fun tx sent => ?_
      rw [overrunExpires, hl]
      dsimp only
      rw [ho, hdue, if_pos rfl, hst]
      exact ⟨x, hx, hst', hr⟩
    · have hl := liveClean_of_live hc (by rw [hst]; rfl)
      obtain ⟨⟨x, hx, -, hst', hoc, hr, -⟩, -, -⟩ := endClean_after_report hl hp .cleanFailed .done .failed .phaseTimeout true
      refine completes_event hon rfl fun tx sent => ?_
      rw [overrunExpires, hl]
      dsimp only
      rw [ho, hdue, if_pos rfl, hst]
      exact ⟨x, hx, hst', hoc, hr⟩

end Sys2Proof.Machine


/-! PROOF. TECH-TAKE (O54). -/

namespace Sys2Proof.Machine

set_option Elab.async false

open Sys2Proof

/-! ## A technician's hold (R161) -/

/-- The hold of a technician, as TECH-TAKE leaves it. -/
def TechnicianHas (b : BayId) (t : State) : Prop := t.mon.bays[b].hold = .technician ∧ t.mon.bays[b].releasePending = false

theorem technicianHas_setHold (b : BayId) (s : State) : TechnicianHas b (setHold b .technician false s) := by
  have hbay : (setHold b .technician false s).mon.bays[b] = { s.mon.bays[b] with hold := .technician, releasePending := false } := by
    rw [setHold_mon]
    exact upd_same _ _ _
  exact ⟨congrArg MonBay.hold hbay, congrArg MonBay.releasePending hbay⟩

theorem TechnicianHas.touched {m : Parts} {b : BayId} {s t : State} (h : TechnicianHas b s) (ht : Touches m s t) (hb : ¬ m.hold b) : TechnicianHas b t :=
  ⟨(ht.held hb).trans h.1, (congrArg (fun x : Option Bool × Bool × HoldKind × Bool × List Nat => x.2.2.2.1) (ht.hold b hb)).trans h.2⟩

/-- What setting a hold may change. -/
def Parts.holding (b : BayId) : Parts := { hold := (· = b), store := True }

theorem setHold_holding (b : BayId) (k : HoldKind) (p : Bool) (s : State) : Touches (.holding b) s (setHold b k p s) := (Touches.refl s).setHold rfl trivial k p

section

variable {s u : State} {b : BayId}

/-- R161, R20: the hold of a bay whose job has been ended by force, and the release that follows. -/
theorem heldAfter (hfree : u.reg[b].activity = .nothing) (hhold : u.mon.bays[b].hold ≠ .automation) {before : Activity} (hjob : before ≠ .nothing)
    (t : State) (ht : t = handOnIfEnded before b (takeHold b u)) : TechnicianHas b t ∧ t.reg[b].activity = .nothing ∧
      ∃ v, Touches (.holding b) u v ∧ Touches (.cold b) v t := by
  have hset := setHold_holding b .technician false u
  have hhas := technicianHas_setHold b u
  have hafter : t = handOn .now b (setHold b .technician false u) := by
    rw [ht, show takeHold b u = setHold b .technician false u from if_neg hhold]
    exact if_pos ⟨hjob, (hset.claim b id).trans hfree⟩
  rw [hafter]
  generalize setHold b .technician false u = v at hset hhas
  have hhanded := handOn_barred (s := v) (b := b) (.inr (by rw [hhas.1]; nofun)) .now
  exact ⟨hhas.touched hhanded id, (hhanded.claim b fun hne => hne rfl).trans ((hset.claim b id).trans hfree), v, hset, hhanded⟩

/-! ## The end of the bay's job (R161) -/

theorem endJobHeld_of_cook {r : Run} (h : s.reg[b].activity = .cook) (hl : liveRun s b = some r) (u : State) (hu : u = endJobHeld b s) :
    u.reg[b].activity = .nothing ∧ u.mon.bays[b].hold = s.mon.bays[b].hold ∧
      ∃ x, u.runs.runs[b] = some x ∧ x.state = .aborted ∧ x.reason = .held := by
  have hend : u = endRun b .aborted .held .safe .later s := by
    rw [hu, endJobHeld, h]
  obtain ⟨id, sp, hrec⟩ := endRun_run hl .aborted .held .safe .later
  obtain ⟨n, hclose⟩ := r.close_eq .aborted .held s.now
  have hsettled := settledRun_touches b .aborted .held .safe r s
  have hfree := settledRun_free b .aborted .held .safe r s
  have htold := endRun_later_touches hl .aborted .held .safe
  rw [hclose] at hrec
  rw [hend]
  generalize settledRun b .aborted .held .safe r s = v at hsettled hfree htold
  exact ⟨(htold.claim b not_false).trans hfree, (htold.held not_false).trans (hsettled.held not_false), _, hrec, rfl, rfl⟩

theorem endJobHeld_of_clean {c : CleanRec} (h : s.reg[b].activity = .clean) (hl : liveClean s b = some c) (u : State) (hu : u = endJobHeld b s) :
    u.reg[b].activity = .nothing ∧ u.mon.bays[b].hold = s.mon.bays[b].hold ∧ u.clean[b].hygiene = s.clean[b].hygiene ∧
      ∃ x, u.clean[b].record = some x ∧ x.state = .interrupted ∧ x.reason = .held := by
  obtain ⟨safe, hend⟩ : ∃ safe, u = endClean b .interrupted .nothing .held safe .later s := by
    rw [hu, endJobHeld, h]
    exact ⟨_, rfl⟩
  obtain ⟨id, hrec⟩ := settledClean_record (liveClean_eq_some hl).1 .interrupted .nothing .held safe
  have hsettled := settledClean_touches b .interrupted .nothing .held safe s
  have hfree := settledClean_free b .interrupted .nothing .held safe s
  have htold := endClean_later_touches hl .interrupted .nothing .held safe
  rw [hend]
  generalize settledClean b .interrupted .nothing .held safe s = v at hrec hsettled hfree htold
  exact ⟨(htold.claim b not_false).trans hfree, (htold.held not_false).trans (hsettled.held not_false),
    (htold.hygiene b not_false).trans (hsettled.hygiene b not_false), _, (htold.cleaning b not_false).trans hrec, rfl, rfl⟩

/-- The end of a TRANSFERRING entry leaves the bay's hold. -/
theorem endTransfer_hold {c : Fin 4} (h : s.dist.channels[c].progress[b] ≠ .applying) (p : Progress) (judge : Bool) :
    (endTransfer c b p judge .later s).mon.bays[b].hold = s.mon.bays[b].hold := by
  have hdrawn := ((withdraw_withdrawing b (stoppedTransfer c b p s)).held (b := b) id)
  have hfailed := ((withdrawnTransfer_after c b p s).held (b := b) id)
  have htold := (Touches.refl (m := {}) (leftTransfer c b p s)).transferNotice c b p |>.held (b := b) id
  rw [endTransfer_eq, if_neg (by simpa using h)]
  have hjudged : Touches { claim := (· = b), flow := (· = c), chan := (· = c), slots := True } (transferNotice c b p (leftTransfer c b p s)) (release b
      (if judge = true then judgeDone c (transferNotice c b p (leftTransfer c b p s)) else transferNotice c b p (leftTransfer c b p s))) := by
    refine Touches.release ?_ rfl
    split
    · exact (Touches.refl _).judgeDone rfl rfl trivial
    · exact Touches.refl _
  exact (hjudged.held id).trans (htold.trans (hfailed.trans hdrawn))

theorem endJobHeld_of_update {c : Fin 4} (h : s.reg[b].activity = .update) (hc : channelOf s b = some c)
    (hp : s.dist.channels[c].progress[b] = .transferring) : endJobHeld b s = endTransfer c b (.failed .held) true .later s := by
  rw [endJobHeld, h]
  dsimp only
  rw [hc]
  exact if_pos hp

/-! ## The answers -/

variable {w1 w2 : Txt} {force : Bool}

theorem techTake_served (hb : NamesBay w1 b) (hf : ynField w2 = some (some force)) : serveVerb .techTake [w1, w2] s =
    if s.mon.bays[b].hold = .automation then refuse .techTake .state s
    else if s.reg[b].activity ≠ .nothing ∧ (force = false ∨ applying s b = true) then refuse .techTake .busy s
    else okay .techTake ([bayTok b, wd "TECHNICIAN"] ++ endedWord s.reg[b].activity) (forcedTake b s) :=
  (withFields_pair hb hf s).trans (onBay_of_names rfl _ s)

theorem techTake_taken (hb : NamesBay w1 b) (hf : ynField w2 = some (some force)) (hhold : s.mon.bays[b].hold ≠ .automation)
    (hmay : s.reg[b].activity = .nothing ∨ force = true ∧ applying s b = false) : serveVerb .techTake [w1, w2] s =
      okay .techTake ([bayTok b, wd "TECHNICIAN"] ++ endedWord s.reg[b].activity) (forcedTake b s) := by
  refine (techTake_served hb hf).trans ((if_neg hhold).trans (if_neg ?_))
  rintro ⟨hjob, hno⟩
  obtain hfree | ⟨hforce, happly⟩ := hmay
  · exact hjob hfree
  · rw [hforce, happly] at hno
    exact hno.elim nofun nofun

end

/-- Settles O54. -/
theorem techTakeHoldsTheBay : Obligations.TechTakeHoldsTheBay := by
  intro s w1 w2 b force hs hb hf
  refine ⟨fun hhold => answered_of_served hs ((techTake_served hb hf).trans (if_pos hhold)), fun hhold => ?_⟩
  refine ⟨fun hfree => ?_, fun r hjob hforce happly hr hlive => ?_, fun c hjob hforce happly hc hlive => ?_, fun c hjob hforce happly hc hp => ?_,
    fun hjob hno => answered_of_served hs ((techTake_served hb hf).trans ((if_neg hhold).trans (if_pos ⟨hjob, hno⟩)))⟩
  · have hserved := techTake_taken (s := s) hb hf hhold (.inl hfree)
    have htake : forcedTake b s = setHold b .technician false s := by
      unfold forcedTake endJobHeld handOnIfEnded
      rw [hfree]
      exact (if_neg fun hno => hno.1 rfl).trans (if_neg hhold)
    rw [htake, hfree] at hserved
    refine completes_of_answered (answered_of_served hs hserved) ⟨⟨(technicianHas_setHold b s).1, (technicianHas_setHold b s).2, rfl⟩, ?_, ?_⟩
    · rw [setHold_technician]
      rfl
    · rw [setHold_technician, storePut_eq_withStore]
      rfl
  · have hserved := techTake_taken (s := s) hb hf hhold (.inr ⟨hforce, happly⟩)
    rw [hjob] at hserved
    obtain ⟨hfree, hheld, x, hx, hst, hreason⟩ := endJobHeld_of_cook hjob (liveRun_of_live hr hlive) _ rfl
    obtain ⟨hhas, hreleased, v, hset, hhanded⟩ := heldAfter (b := b) hfree (by rw [hheld]; exact hhold) (before := s.reg[b].activity)
      (by rw [hjob]; nofun) (forcedTake b s) rfl
    refine completes_of_answered (answered_of_served hs hserved) ⟨⟨hhas.1, hhas.2, rfl⟩, hreleased, x, ?_, hst, hreason⟩
    exact (hhanded.run b id).trans ((hset.run b id).trans hx)
  · have hserved := techTake_taken (s := s) hb hf hhold (.inr ⟨hforce, happly⟩)
    rw [hjob] at hserved
    obtain ⟨hfree, hheld, hhyg, x, hx, hst, hreason⟩ := endJobHeld_of_clean hjob (liveClean_of_live hc hlive) _ rfl
    obtain ⟨hhas, hreleased, v, hset, hhanded⟩ := heldAfter (b := b) hfree (by rw [hheld]; exact hhold) (before := s.reg[b].activity)
      (by rw [hjob]; nofun) (forcedTake b s) rfl
    refine completes_of_answered (answered_of_served hs hserved) ⟨⟨hhas.1, hhas.2, rfl⟩, hreleased, ?_, x, ?_, hst, hreason⟩
    · exact (hhanded.hygiene b id).trans ((hset.hygiene b id).trans hhyg)
    · exact (hhanded.cleaning b id).trans ((hset.cleaning b id).trans hx)
  · have hserved := techTake_taken (s := s) hb hf hhold (.inr ⟨hforce, happly⟩)
    rw [hjob] at hserved
    obtain ⟨hhas, hreleased, v, hset, hhanded⟩ := heldAfter (b := b) (u := endJobHeld b s) (before := s.reg[b].activity)
      (by rw [endJobHeld_of_update hjob hc hp]; exact endTransfer_free c b _ true s)
      (by rw [endJobHeld_of_update hjob hc hp, endTransfer_hold (by rw [hp]; nofun)]; exact hhold)
      (by rw [hjob]; nofun) (forcedTake b s) rfl
    rw [endJobHeld_of_update hjob hc hp] at hset
    have hpast := endTransfer_entry (p := .failed .held) rfl c b true .later s
    have htold := tells_endTransfer c b (.failed .held) true .later s
    have hdiscards := fun h1 h2 h3 => endTransfer_discards (s := s) (c := c) (b := b) (p := .failed .held) rfl h1 h2 h3 true .later
    generalize endTransfer c b (.failed .held) true .later s = u at hset hpast htold hdiscards
    have hkept := (hhanded.past c id b ((hset.past c id b ⟨by rw [hpast.1]; rfl, hpast.2⟩).2)).1.trans (hset.past c id b ⟨by rw [hpast.1]; rfl, hpast.2⟩).1
    refine completes_of_answered (answered_of_served hs hserved) ⟨⟨hhas.1, hhas.2, rfl⟩, hreleased, hkept.trans hpast.1, ?_, fun h1 h2 h3 => ?_⟩
    · exact ((htold.mono hset.later).mono hhanded.later).mono (later_replying _ _)
    · obtain ⟨o, ho, hbody⟩ := hdiscards h1 h2 h3
      have hplain : o.body.kind.coalesces = false := by rw [hbody]; rfl
      exact ⟨o, hhanded.stays b o (hset.stays b o ho id hplain) id hplain, hbody⟩

end Sys2Proof.Machine


/-! PROOF. The deadlines of a transfer (O60). -/

namespace Sys2Proof.Machine

set_option Elab.async false

open Sys2Proof

/-! ## The latches of other kinds -/

section

variable {s t u : State} {b : BayId} {j : Fin 16} {k : EventKind}

/-- A latch of a bay has been left as it stood. -/
def LatchKept (b : BayId) (j : Fin 16) (s t : State) : Prop := t.mon.bays[b].latches[j] = s.mon.bays[b].latches[j]

theorem LatchKept.trans (h : LatchKept b j s t) (g : LatchKept b j t u) : LatchKept b j s u := Eq.trans g h

theorem LatchKept.of_bays (h : t.mon.bays = s.mon.bays) : LatchKept b j s t := by rw [LatchKept, h]

theorem LatchKept.of_touches {m : Parts} (h : Touches m s t) (hb : ¬ m.latch b) : LatchKept b j s t := by rw [LatchKept, (h.latch b hb).1]

theorem queueNotice_mon (n : NoticeKind) (f : List Tok) (s : State) : (queueNotice n f s).mon = s.mon := by simp

theorem arbiterOnce_bays (s : State) : (arbiterOnce s).mon.bays = s.mon.bays := by
  unfold arbiterOnce
  split
  · exact (congrArg Monitor.bays (queueNotice_mon _ _ _)).trans rfl
  · rfl

theorem arbiter_bays (s : State) : (arbiter s).mon.bays = s.mon.bays := (arbiterOnce_bays _).trans (arbiterOnce_bays s)

theorem setLatch_kept (hj : j ≠ k.slot) (f : Latch → Latch) (s : State) : LatchKept b j s (s.setLatch b k f) := by
  rw [LatchKept, State.setLatch, State.setMon_mon]
  dsimp only
  rw [upd_same]
  exact upd_other _ _ _ _ hj

theorem announce_kept (hj : j ≠ k.slot) (s : State) : LatchKept b j s (announce b k s) := by
  unfold announce
  split
  · exact .of_bays (congrArg Monitor.bays (queueNotice_mon _ _ _))
  · split
    · exact .of_bays (congrArg Monitor.bays (queueNotice_mon _ _ _))
    · split
      · refine (setLatch_kept hj (fun x => { x with owed := false }) s).trans (.of_bays ((arbiter_bays _).trans ?_))
        exact (congrArg Monitor.bays (queueNotice_mon _ _ _)).trans rfl
      · exact (setLatch_kept hj _ s).trans (.of_bays (congrArg Monitor.bays (queueNotice_mon _ _ _)))

/-- R150: an event sets the latch of its own kind alone. -/
theorem latch_kept (hj : j ≠ k.slot) (forced : Bool) (s : State) : LatchKept b j s (latch b k forced s) := by
  unfold latch
  split
  · exact rfl
  · unfold newlySet
    dsimp only
    split
    · exact (setLatch_kept hj _ s).trans (announce_kept hj _)
    · exact setLatch_kept hj _ s

theorem setCondition_kept (hj : j ≠ k.slot) (v : Bool) (s : State) : LatchKept b j s (setCondition b k v s) := by
  have hconds : LatchKept b j s (s.setMon b (fun m => { m with conds := upd m.conds k.slot (fun _ => v) })) := by
    rw [LatchKept, State.setMon_mon]
    dsimp only
    rw [upd_same]
  unfold setCondition
  split
  · exact rfl
  · dsimp only
    split
    · exact hconds.trans (latch_kept hj false _)
    · exact hconds

theorem ovenSilent_kept (h : j ≠ EventKind.ovenFault.slot) (s : State) : LatchKept b j s (ovenSilent b s) := by
  have hcond := setCondition_kept (b := b) h false s
  unfold ovenSilent
  generalize setCondition b .ovenFault false s = u at hcond
  have hmode : Touches { hold := (· = b), clean := (· = b) } u ((u.setMon b (fun m => { m with service := none })).setClean b (fun c => { c with baseline := none })) :=
    ((Touches.refl u).setMode rfl).setClean rfl (hsen := .inl trivial)
  exact hcond.trans (.of_touches hmode id)

/-- R2, R11: of a bay's latches entry to LOST sets LINE_EXPIRED alone. -/
theorem setBayState_lost_kept (h1 : j ≠ EventKind.lineExpired.slot) (h2 : j ≠ EventKind.supplyMismatch.slot) (h3 : j ≠ EventKind.ovenFault.slot)
    (cause : BayCause) (s : State) : LatchKept b j s (setBayState b .lost cause s) := by
  by_cases hsame : s.reg[b].state = .lost
  · rw [setBayState_of_same hsame]
    rfl
  · have hleft : LatchKept b j s (leaving b .lost cause s) := by
      unfold leaving leaveState
      have hnotice : LatchKept b j s (queueNotice .bay [bayTok b, wd BayState.lost.word, wd cause.word] (s.setReg b (fun r => { r with state := .lost }))) :=
        .of_bays (congrArg Monitor.bays (queueNotice_mon _ _ _))
      split
      · exact hnotice.trans (setCondition_kept h1 _ _)
      · exact hnotice.trans (setCondition_kept h2 _ _)
      · exact hnotice
    rw [setBayState_of_lost hsame]
    generalize leaving b .lost cause s = u at hleft
    exact hleft.trans ((ovenSilent_kept h3 u).trans (setCondition_kept h1 true _))

/-- R11, R21: a bay without a job that goes to LOST. -/
theorem goLost_kept (hfree : s.reg[b].activity = .nothing) (hj : j ≠ EventKind.commissionAbandoned.slot) (h1 : j ≠ EventKind.lineExpired.slot)
    (h2 : j ≠ EventKind.supplyMismatch.slot) (h3 : j ≠ EventKind.ovenFault.slot) (owed : Bool) : LatchKept b j s (goLost b owed s) := by
  have habandoned : LatchKept b j s (abandonContext b s) := by
    unfold abandonContext
    split
    · exact (LatchKept.of_bays rfl).trans (latch_kept hj false (s.setReg b (fun r => { r with context := none })))
    · rfl
  have hnothing : endJobTorn b true (abandonContext b s) = abandonContext b s := by
    unfold endJobTorn
    rw [(abandonContext_touches b s).claim b id, hfree]
  have hstripped := strippedBay_after b true s
  rw [hnothing] at hstripped
  have htorn : LatchKept b j s (teardown b true s) := by
    rw [teardown_eq]
    exact (habandoned.trans (.of_touches hstripped id)).trans (.of_touches ((Touches.refl (m := .shared) _).recomputeBut ⟨trivial, fun _ => trivial⟩ (some b)) id)
  have hentered := htorn.trans (setBayState_lost_kept h1 h2 h3 .expired (teardown b true s))
  unfold goLost tearDownTo
  dsimp only
  generalize setBayState b .lost .expired (teardown b true s) = t at hentered
  split
  · exact hentered.trans (.of_touches (handOn_touches .now b t) id)
  · exact hentered

end

/-! ## The block flow after a miss (R177) -/

section

variable {s : State} {b : BayId} {c : Fin 4}

/-- What of a channel the acknowledgement of its blocks is a matter of. -/
def Channel.ack (x : Channel) : Nat × Nat × Option BayId := (x.acked, x.misses, x.current)

theorem setChannel_ack (d : Fin 4) {f : Channel → Channel} (s : State) (hf : ∀ x, (f x).ack = x.ack := by intro; rfl) :
    (s.setChannel d f).dist.channels[c].ack = s.dist.channels[c].ack := upd_view Channel.ack s.dist.channels d c f (hf _)

theorem applyNote_ack (b : BayId) (body : OrderBody) (note : Note) (n : Nat) (s : State) :
    (applyNote b body note n s).dist.channels[c].ack = s.dist.channels[c].ack := by
  unfold applyNote
  split
  · rfl
  · rfl
  · exact setChannel_ack _ s
  · rfl
  · rfl

theorem placeOrder_ack (b : BayId) (body : OrderBody) (note : Note) (s : State) :
    (placeOrder b body note s).dist.channels[c].ack = s.dist.channels[c].ack := by
  unfold placeOrder
  split
  · dsimp only
    split
    · exact applyNote_ack _ _ _ _ _
    · split
      · exact applyNote_ack _ _ _ _ _
      · rfl
  · rfl

theorem withdraw_ack (b : BayId) (kinds : List OrderKind) (s : State) : (withdraw b kinds s).dist.channels[c].ack = s.dist.channels[c].ack := by
  rw [withdraw_eq]
  unfold offerHeld
  exact State.each_keeps (fun u => u.dist.channels[c].ack = s.dist.channels[c].ack) _ _ (fun h u hu => (placeOrder_ack b h.body h.note u).trans hu) _ rfl

theorem placeBlocks_ack (d : Fin 4) (b : BayId) (s : State) : (placeBlocks d b s).dist.channels[c].ack = s.dist.channels[c].ack := by
  have upTo : ∀ (n : Nat) (u : State), (placeBlocksUpTo d b n u).dist.channels[c].ack = u.dist.channels[c].ack := fun n => by
    induction n with
    | zero => exact fun _ => rfl
    | succ n ih =>
      intro u
      unfold placeBlocksUpTo
      split
      · exact (ih _).trans ((placeOrder_ack _ _ _ _).trans (setChannel_ack d u))
      · rfl
  exact upTo _ s

/-- R177: a miss below the third. -/
theorem blockMiss_below (h : s.dist.channels[c].misses < 2) (offset : Nat) : (blockMiss c b offset s).dist.channels[c].ack =
    (s.dist.channels[c].acked, s.dist.channels[c].misses + 1, s.dist.channels[c].current) := by
  have hmiss : (s.setChannel c (fun x => { x with misses := x.misses + 1, missSince := true })).dist.channels[c] =
      { s.dist.channels[c] with misses := s.dist.channels[c].misses + 1, missSince := true } := upd_same _ _ _
  unfold blockMiss
  dsimp only
  rw [if_pos (by rw [hmiss]; exact Nat.succ_lt_succ h)]
  unfold resend
  rw [placeBlocks_ack, withdraw_ack, setChannel_ack c _, hmiss]
  rfl

/-- R177: the third miss. -/
theorem blockMiss_third (h : 2 ≤ s.dist.channels[c].misses) (offset : Nat) : blockMiss c b offset s =
    endTransfer c b (.failed .noAck) true .now (s.setChannel c (fun x => { x with misses := x.misses + 1, missSince := true })) := by
  have hmiss : (s.setChannel c (fun x => { x with misses := x.misses + 1, missSince := true })).dist.channels[c] =
      { s.dist.channels[c] with misses := s.dist.channels[c].misses + 1, missSince := true } := upd_same _ _ _
  unfold blockMiss
  dsimp only
  exact if_neg (by rw [hmiss]; exact not_lt.mpr (Nat.succ_le_succ h))

/-- What is left by a failure that is reported and followed by a DISCARD-IMAGE (R180). -/
structure Discarded (s t : State) (c : Fin 4) (b : BayId) (p : Progress) : Prop where
  entry : t.dist.channels[c].progress[b] = p
  grace : t.line.bays[b].grace = none
  latched : t.mon.bays[b].latches[EventKind.updateFailed.slot].set = true
  order : s.reg[b].state = .ready → s.line.bays[b].held = [] → s.line.bays[b].queue.length < 6 → ∃ o ∈ t.line.bays[b].queue, o.body = .discardImage

theorem endTransfer_discarded (p : Progress) (hp : p.settled = true) (hd : p.failedWith FailReason.discards = true)
    (hr : p.failedWith FailReason.reports = true) (c : Fin 4) (b : BayId) (s : State) : Discarded s (endTransfer c b p true .now s) c b p :=
  ⟨(endTransfer_entry hp c b true .now s).1, endTransfer_grace c b p true .now s, endTransfer_reports hr true .now,
    fun hready hheld hq => endTransfer_discards hd hready hheld hq true .now⟩

/-! ## An apply that does not return (R29, R179) -/

/-- The end of a transfer for no return latches nothing. -/
theorem endTransfer_noReturn_kept (c : Fin 4) (b : BayId) (judge : Bool) (j : Fin 16) (s : State) :
    LatchKept b j s (endTransfer c b (.failed .noReturn) judge .later s) := by
  have hdrawn : Touches { Parts.withdrawing b with latch := fun _ => False } (stoppedTransfer c b (.failed .noReturn) s)
      (withdrawnTransfer c b (.failed .noReturn) s) := (Touches.refl _).withdraw ⟨rfl, rfl, rfl, rfl, fun _ => trivial⟩ (by simp [Parts.withdrawing])
  have htold := (Touches.refl (m := .leaving b c) (leftTransfer c b (.failed .noReturn) s)).transferNotice c b (.failed .noReturn)
  have hkept : LatchKept b j (stoppedTransfer c b (.failed .noReturn) s) (withdrawnTransfer c b (.failed .noReturn) s) := .of_touches hdrawn id
  have hleft : LatchKept b j s (leftTransfer c b (.failed .noReturn) s) := hkept
  exact hleft.trans ((LatchKept.of_touches htold id).trans (.of_touches (leftTransfer_after c b (.failed .noReturn) judge s) id))

/-- R179: the entry, the bay and its latches after an apply that does not return. -/
theorem graceExpires_does (hc : channelOf s b = some c) (hp : s.dist.channels[c].progress[b] = .applying) (t : State) (ht : t = graceExpires b s) :
    t.reg[b].state = .lost ∧ t.dist.channels[c].progress[b] = .failed .noReturn ∧ Stilled b t ∧ LatchKept b EventKind.updateFailed.slot s t := by
  have hfree := endTransfer_free c b (.failed .noReturn) true (s.setLine b (fun l => { l with grace := none }))
  have hentry := endTransfer_entry (p := .failed .noReturn) rfl c b true .later (s.setLine b (fun l => { l with grace := none }))
  have hkept := endTransfer_noReturn_kept c b true EventKind.updateFailed.slot (s.setLine b (fun l => { l with grace := none }))
  have hgoes : t = goLost b true (endTransfer c b (.failed .noReturn) true .later (s.setLine b (fun l => { l with grace := none }))) := by
    rw [ht]
    unfold graceExpires
    dsimp only
    rw [hc]
    exact if_pos hp
  rw [hgoes]
  generalize endTransfer c b (.failed .noReturn) true .later (s.setLine b (fun l => { l with grace := none })) = u at hfree hentry hkept
  obtain ⟨a, hreg⟩ := tearDownTo_reg (s := u) (b := b) (lost := true) (.inr (.inr rfl)) true .expired
  have hpast : (goLost b true u).dist.channels[c].progress[b] = .failed .noReturn := by
    have htorn := ((teardown_of_idle hfree true).past c id b ⟨by rw [hentry.1]; rfl, hentry.2⟩)
    have hset := (setBayState_touches b .lost .expired (teardown b true u)).past c id b htorn.2
    have hgo : goLost b true u = handOn .now b (setBayState b .lost .expired (teardown b true u)) := by
      unfold goLost tearDownTo
      rw [Bool.true_or, if_pos rfl]
    rw [hgo]
    have hkept := (hset.1.trans htorn.1).trans hentry.1
    generalize setBayState b .lost .expired (teardown b true u) = v at hset hkept
    exact ((handOn_touches .now b v).past c id b hset.2).1.trans hkept
  exact ⟨congrArg RegBay.state hreg, hpast, tearDownTo_stilled (.inr (.inr rfl)) true .expired,
    hkept.trans (goLost_kept hfree (by decide) (by decide) (by decide) (by decide) true)⟩

end

/-- Settles O60. -/
theorem transferDeadlinesAct : Obligations.TransferDeadlinesAct := by
  intro s c b d hrun hcur
  have hon : s.phase ≠ .off := by rw [hrun]; decide
  refine ⟨fun hack hd => ?_, fun hoffer hd => ?_, fun hgrace hd hc hp => ?_⟩
  · have hexpires : ackExpires c s = blockMiss c b s.dist.channels[c].acked s := by
      unfold ackExpires
      dsimp only
      rw [hcur]
      exact if_pos (by rw [hack, reached_some hd])
    refine ⟨fun hm => ?_, fun hm => ?_⟩
    · refine completes_event hon rfl fun tx sent => ?_
      have hchannel := blockMiss_below (s := s) (b := b) hm s.dist.channels[c].acked
      rw [hexpires]
      generalize blockMiss c b s.dist.channels[c].acked s = t at hchannel
      simp only [Channel.ack, Prod.mk.injEq] at hchannel
      obtain ⟨hacked, hmisses, hcurrent⟩ := hchannel
      exact ⟨hmisses, hacked, hcurrent.trans hcur⟩
    · refine completes_event hon rfl fun tx sent => ?_
      rw [hexpires, blockMiss_third hm]
      obtain ⟨hentry, hgrace, hlatched, horder⟩ := endTransfer_discarded (.failed .noAck) rfl rfl rfl c b
        (s.setChannel c (fun x => { x with misses := x.misses + 1, missSince := true }))
      generalize endTransfer c b (.failed .noAck) true .now _ = t at hentry hgrace hlatched horder
      exact ⟨hentry, hgrace, hlatched, horder⟩
  · have hexpires : offerExpires c s = endTransfer c b (.failed .noOffer) true .now s := by
      unfold offerExpires
      dsimp only
      rw [hcur]
      exact if_pos (by rw [hoffer]; exact reached_some hd)
    refine completes_event hon rfl fun tx sent => ?_
    rw [hexpires]
    obtain ⟨hentry, hgrace, hlatched, horder⟩ := endTransfer_discarded (.failed .noOffer) rfl rfl rfl c b s
    generalize endTransfer c b (.failed .noOffer) true .now s = t at hentry hgrace hlatched horder
    exact ⟨hentry, hgrace, hlatched, horder⟩
  · have hexpires : applyGrace b s = graceExpires b s := if_pos (by rw [hgrace]; exact reached_some hd)
    refine completes_event hon rfl fun tx sent => ?_
    rw [hexpires]
    obtain ⟨hlost, hentry, hstill, hkept⟩ := graceExpires_does hc hp _ rfl
    generalize graceExpires b s = t at hlost hentry hstill hkept
    exact ⟨hlost, hentry, hstill.counts.2, fun o ho => by rw [hstill.orders o ho]; nofun, hkept⟩

end Sys2Proof.Machine


/-! PROOF. The calls: what the arbiter leaves of them (R155), the answers to a dispatch, the lane timer and CALL-PROGRESS (O52). -/

namespace Sys2Proof.Machine

set_option Elab.async false

open Sys2Proof

/-! ## What the arbiter makes of the calls (R155) -/

/-- A call that a lane has taken. -/
def Call.taken (c : Call) (l : Fin 2) (n : Nat) : Call := { c with state := .dispatched, lane := some l, number := n }

/-- A call with this id waits. -/
def Waits (s : State) (id : Nat) : Prop := ∃ d ∈ s.mon.calls, d.id = id ∧ d.state = .waiting

/-- From `s` to `t` free lanes have taken waiting calls, and nothing else of the calls, the lanes and the bays has changed. -/
structure Dispatching (s t : State) : Prop where
  bays : t.mon.bays = s.mon.bays
  calls : ∃ g : Call → Call, t.mon.calls = s.mon.calls.map g ∧ ∀ c, g c = c ∨ Waits s c.id ∧ ∃ l n, g c = c.taken l n
  kept : ∀ (l : Fin 2) (z : Lane), s.mon.lanes[l] = some z → t.mon.lanes[l] = some z
  filled : ∀ (l : Fin 2) (z : Lane), t.mon.lanes[l] = some z → s.mon.lanes[l] = some z ∨ Waits s z.call

section

variable {s t u : State} {c : Call} {id : Nat}

theorem Dispatching.refl (s : State) : Dispatching s s :=
  ⟨rfl, ⟨fun c => c, (List.map_id _).symm, fun _ => .inl rfl⟩, fun _ _ h => h, fun _ _ h => .inl h⟩

theorem Dispatching.waits (h : Dispatching s t) (hw : Waits t id) : Waits s id := by
  obtain ⟨g, hcalls, hg⟩ := h.calls
  obtain ⟨d, hd, hid, hst⟩ := hw
  rw [hcalls] at hd
  obtain ⟨d, hmem, rfl⟩ := List.mem_map.1 hd
  obtain hsame | ⟨-, l, n, htaken⟩ := hg d
  · rw [hsame] at hid hst
    exact ⟨d, hmem, hid, hst⟩
  · rw [htaken] at hst
    cases hst

theorem Dispatching.trans (h : Dispatching s t) (k : Dispatching t u) : Dispatching s u := by
  obtain ⟨g, hcalls, hg⟩ := h.calls
  obtain ⟨f, kcalls, hf⟩ := k.calls
  refine ⟨k.bays.trans h.bays, ⟨f ∘ g, by rw [kcalls, hcalls, List.map_map], fun c => ?_⟩, fun l z hz => k.kept l z (h.kept l z hz), fun l z hz => ?_⟩
  · have hid : (g c).id = c.id := by
      obtain hsame | ⟨-, l, n, htaken⟩ := hg c
      · rw [hsame]
      · rw [htaken]
        rfl
    obtain hsame | ⟨hw, l, n, htaken⟩ := hf (g c)
    · simpa only [Function.comp_apply, hsame] using hg c
    · refine .inr ⟨hid ▸ h.waits hw, l, n, ?_⟩
      obtain hg' | ⟨-, m, j, hg'⟩ := hg c <;> rw [Function.comp_apply, htaken, hg'] <;> rfl
  · obtain hz | hz := k.filled l z hz
    · exact h.filled l z hz
    · exact .inr (h.waits hz)

/-- The lane that a dispatch fills, and the call that fills it. -/
theorem dispatch_dispatching {l : Fin 2} (hl : s.mon.lanes[l] = none) (hc : c ∈ s.mon.calls) (hw : c.state = .waiting) : Dispatching s (dispatch l c s) := by
  have hmon : (dispatch l c s).mon = { (s.setCall c.id (fun x => x.taken l (nextDispatch c.number))).mon with
      lanes := upd s.mon.lanes l (fun _ => some { call := c.id, due := s.sec + laneTime }), lastBay := c.bay } := queueNotice_mon _ _ _
  have hlane : ∀ m : Fin 2, (dispatch l c s).mon.lanes[m] = if m = l then some { call := c.id, due := s.sec + laneTime } else s.mon.lanes[m] := fun m => by
    rw [hmon]
    exact upd_get _ _ _ _
  refine ⟨by rw [hmon]; rfl, ⟨fun x => if x.id = c.id then x.taken l (nextDispatch c.number) else x, by rw [hmon]; rfl, fun x => ?_⟩, fun m z hz => ?_,
    fun m z hz => ?_⟩
  · dsimp only
    split
    · next hid => exact .inr ⟨⟨c, hc, hid.symm, hw⟩, l, _, rfl⟩
    · exact .inl rfl
  · rw [hlane, if_neg (by rintro rfl; rw [hl] at hz; cases hz)]
    exact hz
  · rw [hlane] at hz
    split at hz
    · obtain rfl := Option.some_inj.1 hz
      exact .inr ⟨c, hc, rfl, hw⟩
    · exact .inl hz

theorem arbiterOnce_dispatching (s : State) : Dispatching s (arbiterOnce s) := by
  unfold arbiterOnce
  split
  · next l c hl hc => exact dispatch_dispatching (freeLane_eq_some hl) (bestCall_mem hc).1 (bestCall_mem hc).2
  · exact .refl s

theorem arbiter_dispatching (s : State) : Dispatching s (arbiter s) := (arbiterOnce_dispatching s).trans (arbiterOnce_dispatching _)

theorem Dispatching.taken (g : Call → Call) (hg : ∀ c, g c = c ∨ Waits s c.id ∧ ∃ l n, g c = c.taken l n) (c : Call) :
    (g c).id = c.id ∧ (g c).bay = c.bay ∧ (g c).kind = c.kind := by
  obtain h | ⟨-, l, n, h⟩ := hg c <;> rw [h] <;> exact ⟨rfl, rfl, rfl⟩

/-- What a dispatch may make of the call of an id. -/
theorem Dispatching.callOf (h : Dispatching s t) (hc : callOf s id = some c) :
    ∃ y, Machine.callOf t id = some y ∧ (y = c ∨ Waits s id ∧ ∃ l n, y = c.taken l n) := by
  obtain ⟨g, hcalls, hg⟩ := h.calls
  have hid := (callOf_eq_some hc).2
  refine ⟨g c, ?_, hid ▸ hg c⟩
  unfold Machine.callOf at hc ⊢
  rw [hcalls, List.find?_map, show ((fun c : Call => decide (c.id = id)) ∘ g) = fun c => decide (c.id = id) from
    funext fun c => by rw [Function.comp_apply, (taken g hg c).1], hc]
  rfl

theorem Dispatching.callOf_none (h : Dispatching s t) (hc : Machine.callOf s id = none) : Machine.callOf t id = none := by
  obtain ⟨g, hcalls, hg⟩ := h.calls
  unfold Machine.callOf at hc ⊢
  rw [hcalls, List.find?_map, show ((fun c : Call => decide (c.id = id)) ∘ g) = fun c => decide (c.id = id) from
    funext fun c => by rw [Function.comp_apply, (taken g hg c).1], hc]
  rfl

/-- A call that none of its id waits is left by a dispatch as it is. -/
theorem Dispatching.callOf_kept (h : Dispatching s t) (hc : Machine.callOf s id = some c) (hw : ¬ Waits s id) : Machine.callOf t id = some c := by
  obtain ⟨y, hy, rfl | ⟨hwaits, -⟩⟩ := h.callOf hc
  · exact hy
  · exact absurd hwaits hw

/-! ## A call that is changed -/

theorem setCall_calls (s : State) (id : Nat) (f : Call → Call) : (s.setCall id f).mon.calls = s.mon.calls.map (fun c => if c.id = id then f c else c) := rfl

theorem callOf_setCall {f : Call → Call} (hf : ∀ x, (f x).id = x.id) (hc : callOf s id = some c) : callOf (s.setCall id f) id = some (f c) := by
  have hid := (callOf_eq_some hc).2
  unfold callOf at hc ⊢
  rw [setCall_calls, List.find?_map, show ((fun c : Call => decide (c.id = id)) ∘ fun c => if c.id = id then f c else c) = fun c => decide (c.id = id) from
    funext fun c => by
      rw [Function.comp_apply]
      split
      · rw [hf]
      · rfl, hc, Option.map_some, if_pos hid]

/-- Where a change leaves no call of an id waiting, none waits. -/
theorem not_waits_setCall {f : Call → Call} (hf : ∀ x, (f x).id = x.id ∧ (f x).state ≠ .waiting) : ¬ Waits (s.setCall id f) id := by
  rintro ⟨d, hd, hid, hst⟩
  rw [setCall_calls] at hd
  obtain ⟨x, hx, rfl⟩ := List.mem_map.1 hd
  split at hst
  · exact (hf x).2 hst
  · next hne =>
    rw [if_neg hne] at hid
    exact hne hid

end

/-! ## The answers to a dispatch (R156), the lane timer (R157) and a technician's progress (R158) -/

section

variable {s : State} {c : Call} {w1 w2 : Txt}

/-- A call put back among those that wait is waiting, or has been dispatched again. -/
theorem arbiter_waiting {id : Nat} (h : callOf s id = some c) (hw : c.state = .waiting) : ∃ y, callOf (arbiter s) id = some y ∧
    (y = c ∨ ∃ l n, y = c.taken l n) ∧ (y.state = .waiting ∧ y.lane = c.lane ∨ y.state = .dispatched) := by
  obtain ⟨y, hy, rfl | ⟨-, l, n, rfl⟩⟩ := (arbiter_dispatching s).callOf h
  · exact ⟨y, hy, .inl rfl, .inl ⟨hw, rfl⟩⟩
  · exact ⟨_, hy, .inr ⟨l, n, rfl⟩, .inr rfl⟩

theorem withDispatch_served {v : Verb} {act : Call → State → State} (h1 : number w1 = some c.id) (hi : 1 ≤ c.id ∧ c.id ≤ 65535) (h2 : number w2 = some c.number)
    (hn : 1 ≤ c.number ∧ c.number ≤ 255) (hc : callOf s c.id = some c) (hst : c.state = .dispatched) :
    withDispatch v act [w1, w2] s = okay v [.num c.id] (act c s) := by
  have hranges : (within 1 c.id 65535 && within 1 c.number 255) = true := by
    rw [Bool.and_eq_true, within_iff, within_iff]
    exact ⟨hi, hn⟩
  have hcall : dispatched s c.id c.number = some c := by
    unfold dispatched
    rw [hc]
    simp [hst]
  unfold withDispatch
  rw [withFields_pair h1 h2]
  dsimp only
  rw [if_pos hranges, hcall]

theorem callProgress_served {site : Bool} (h1 : number w1 = some c.id) (hi : 1 ≤ c.id ∧ c.id ≤ 65535) (h2 : ynField w2 = some (some site))
    (hc : callOf s c.id = some c) (hst : c.state = .acknowledged) : serveVerb .callProgress [w1, w2] s =
      if site then okay .callProgress [.num c.id, wd "ON_SITE"] (s.setCall c.id (fun x => { x with state := .onSite, deadline := none }))
      else okay .callProgress [.num c.id, wd "ACKNOWLEDGED"]
        (s.setCall c.id (fun x => if x.level = 2 then x else { x with deadline := some (s.sec + escalationTime x.severity) })) := by
  show serveCallProgress [w1, w2] s = _
  unfold serveCallProgress
  rw [withFields_pair h1 h2]
  dsimp only
  rw [if_pos ((within_iff _ _ _).2 hi), hc]
  simp only [Option.filter_some, hst, decide_true, if_true]

theorem laneExpires_over {l : Fin 2} {x : Lane} (hl : s.mon.lanes[l] = some x) (hd : x.due ≤ s.now / 1000) :
    laneExpires l s = arbiter (freeCallLane x.call (s.setCall x.call Call.timeOut)) := by
  unfold laneExpires
  rw [hl]
  exact if_pos hd

theorem Call.timeOut_third {c : Call} (h : c.timeouts + 1 = 3) :
    c.timeOut = { c with state := .waiting, lane := none, timeouts := 0, severity := min (c.severity + 1) 3 } := if_pos h

theorem Call.timeOut_below {c : Call} (h : c.timeouts + 1 ≠ 3) : c.timeOut = { c with state := .waiting, lane := none, timeouts := c.timeouts + 1 } := if_neg h

theorem Call.timeOut_id (c : Call) : c.timeOut.id = c.id := by
  unfold Call.timeOut
  split <;> rfl

end

/-- Settles O52. -/
theorem dispatchedCallsAreAnswered : Obligations.DispatchedCallsAreAnswered := by
  intro s c hc
  refine ⟨fun hs w1 w2 h1 hlo hhi h2 hnlo hnhi hst => ⟨?_, ?_⟩, fun l x hon hl hx hd => ?_, fun hs w h1 hlo hhi hst => ⟨?_, ?_⟩⟩
  · refine completes_of_answered (v := .callAccepted) (answered_of_served hs (withDispatch_served h1 ⟨hlo, hhi⟩ h2 ⟨hnlo, hnhi⟩ hc hst)) ⟨?_, rfl⟩
    exact (arbiter_dispatching _).callOf_kept (callOf_setCall (fun _ => by rfl) hc) (not_waits_setCall fun _ => ⟨rfl, nofun⟩)
  · obtain ⟨y, hy, hsame, hst'⟩ := arbiter_waiting (s := freeCallLane c.id (s.setCall c.id (fun x => { x with state := .waiting, lane := none })))
      (callOf_setCall (fun _ => by rfl) hc) rfl
    refine completes_of_answered (v := .callRefused) (answered_of_served hs (withDispatch_served h1 ⟨hlo, hhi⟩ h2 ⟨hnlo, hnhi⟩ hc hst))
      ⟨⟨y, hy, ?_, hst'⟩, rfl⟩
    obtain rfl | ⟨l, n, rfl⟩ := hsame <;> rfl
  · have hfreed : callOf (freeCallLane x.call (s.setCall x.call Call.timeOut)) c.id = some c.timeOut := by
      rw [hx]
      exact callOf_setCall Call.timeOut_id hc
    obtain ⟨y, hy, hsame, hst'⟩ := arbiter_waiting hfreed c.timeOut_waits.1
    refine completes_event hon rfl fun tx sent => ?_
    rw [laneExpires_over hl hd]
    refine ⟨y, hy, hst'.imp And.left id, fun hthird => ?_, fun hbelow => ?_⟩
    · rw [Call.timeOut_third hthird] at hsame
      obtain rfl | ⟨l, n, rfl⟩ := hsame <;> exact ⟨rfl, rfl⟩
    · rw [Call.timeOut_below hbelow] at hsame
      obtain rfl | ⟨l, n, rfl⟩ := hsame <;> exact ⟨rfl, rfl⟩
  · exact completes_of_answered (answered_of_served hs (callProgress_served h1 ⟨hlo, hhi⟩ (site := true) rfl hc hst))
      ⟨callOf_setCall (fun _ => by rfl) hc, rfl, rfl⟩
  · have hcall := callOf_setCall (f := fun x => if x.level = 2 then x else { x with deadline := some (s.sec + escalationTime x.severity) })
      (fun x => by split <;> rfl) hc
    refine completes_of_answered (answered_of_served hs (callProgress_served h1 ⟨hlo, hhi⟩ (site := false) rfl hc hst))
      ⟨fun hlevel => ?_, fun hlevel => ?_, rfl⟩
    · rw [if_neg hlevel] at hcall
      exact hcall
    · rw [if_pos hlevel] at hcall
      exact hcall

end Sys2Proof.Machine


/-! PROOF. Escalation and CALL-CLOSE (O53). -/

namespace Sys2Proof.Machine

set_option Elab.async false

open Sys2Proof

/-! ## Escalation (R159) -/

section

variable {s : State} {c : Call}

theorem escalationExpires_over {d : Nat} (hc : callOf s c.id = some c) (hd : c.deadline = some d) (h : d ≤ s.now / 1000) :
    escalationExpires c.id s = escalate c s := by
  unfold escalationExpires
  rw [hc]
  exact if_pos (by rw [hd]; exact reached_some h)

/-- A call that has been escalated. -/
def Call.escalated (c : Call) : Call := { c with level := c.level + 1, deadline := none }

theorem later_setCall (id : Nat) (f : Call → Call) (s : State) : Later s (s.setCall id f) := ⟨rfl, rfl, List.prefix_rfl, fun h => h⟩

theorem queueNotice_callOf (k : NoticeKind) (f : List Tok) (s : State) (id : Nat) : callOf (queueNotice k f s) id = callOf s id := by
  rw [callOf, queueNotice_mon]
  rfl

/-- R159: the first escalation sends the call out again. -/
theorem escalate_first (hc : callOf s c.id = some c) (hl : c.level = 0) (t : State) (ht : t = escalate c s) :
    Tells s t .escalated [.num c.id, bayTok c.bay, wd c.kind.word, .num 1, wd "REDISPATCH"] ∧
      ∃ x, callOf t c.id = some x ∧ x.level = 1 ∧ x.deadline = none ∧ (x.state = .waiting ∨ x.state = .dispatched) := by
  have hset : callOf ((s.setCall c.id Call.escalated).setCall c.id (fun x => { x with state := .waiting })) c.id =
      some { c.escalated with state := .waiting } := callOf_setCall (fun _ => by rfl) (callOf_setCall (f := Call.escalated) (fun _ => by rfl) hc)
  have hlater := (later_setCall c.id Call.escalated s).trans (later_setCall c.id (fun x => { x with state := .waiting }) _)
  have hgoes : t = arbiter (escalatedNotice c "REDISPATCH" ((s.setCall c.id Call.escalated).setCall c.id (fun x => { x with state := .waiting }))) :=
    ht.trans (if_pos hl)
  rw [hgoes]
  generalize (s.setCall c.id Call.escalated).setCall c.id (fun x => { x with state := .waiting }) = u at hset hlater
  have htold : Tells s (escalatedNotice c "REDISPATCH" u) .escalated [.num c.id, bayTok c.bay, wd c.kind.word, .num (c.level + 1), wd "REDISPATCH"] :=
    (tells_queueNotice _ _ u).since hlater
  rw [hl] at htold
  have hnoticed : callOf (escalatedNotice c "REDISPATCH" u) c.id = some { c.escalated with state := .waiting } := (queueNotice_callOf _ _ u _).trans hset
  generalize escalatedNotice c "REDISPATCH" u = v at htold hnoticed
  obtain ⟨y, hy, hsame, hst⟩ := arbiter_waiting hnoticed rfl
  refine ⟨htold.mono ((Touches.refl (m := { calls := True }) v).arbiter trivial).later, y, hy, ?_, ?_, hst.imp And.left id⟩
  · obtain rfl | ⟨l, n, rfl⟩ := hsame <;> exact congrArg (· + 1) hl
  · obtain rfl | ⟨l, n, rfl⟩ := hsame <;> rfl

/-- R164: the automation hold names the call among its causes. -/
theorem automationHold_holds (b : BayId) (id : Nat) (s : State) (t : State) (ht : t = automationHold b id s) :
    t.mon.bays[b].hold = .automation ∧ id ∈ t.mon.bays[b].causes ∧ Later s t := by
  have hcaused : ∀ (u : State) (f : MonBay → MonBay), (∀ m, (f m).causes = m.causes ++ [id]) → id ∈ (u.setMon b f).mon.bays[b].causes := fun u f hf => by
    rw [State.setMon_mon]
    dsimp only
    rw [upd_same, hf]
    exact List.mem_append_right _ (List.mem_singleton_self id)
  by_cases hauto : s.mon.bays[b].hold = .automation
  · rw [ht, automationHold, if_pos hauto]
    refine ⟨?_, hcaused s _ fun _ => rfl, ⟨rfl, rfl, List.prefix_rfl, fun h => h⟩⟩
    rw [State.setMon_mon]
    dsimp only
    rw [upd_same]
    exact hauto
  · have hended : Changes s (if s.reg[b].activity = .nothing then placeSafe b s else endJobHeld b s) := by
      split
      · exact (Touches.refl s).placeSafe (Parts.all_orders b) trivial fun _ => trivial
      · exact (Touches.refl s).endJobHeld (Parts.all_oven b).job
    rw [ht, automationHold, if_neg hauto]
    dsimp only
    generalize (if s.reg[b].activity = .nothing then placeSafe b s else endJobHeld b s) = u at hended
    have hcause := hcaused u (fun m => { m with takeDeferred := false, causes := m.causes ++ [id] }) fun _ => rfl
    have hlater : Later s (u.setMon b (fun m => { m with takeDeferred := false, causes := m.causes ++ [id] })) :=
      hended.later.trans ⟨rfl, rfl, List.prefix_rfl, fun h => h⟩
    generalize u.setMon b (fun m => { m with takeDeferred := false, causes := m.causes ++ [id] }) = v at hcause hlater
    have hbay : (setHold b .automation false v).mon.bays[b] = { v.mon.bays[b] with hold := .automation, releasePending := false } := by
      rw [setHold_mon]
      exact upd_same _ _ _
    have hheld := hlater.trans (setHold_holding b .automation false v).later
    generalize setHold b .automation false v = w at hbay hheld
    have hhanded : Touches (.handing b) w (handOnIfEnded s.reg[b].activity b w) := by
      unfold handOnIfEnded
      split
      · exact handOn_touches .now b w
      · exact Touches.refl w
    have hmode := hhanded.hold b not_false
    rw [MonBay.mode, MonBay.mode, Prod.mk.injEq, Prod.mk.injEq, Prod.mk.injEq, Prod.mk.injEq] at hmode
    obtain ⟨-, -, hhold, -, hcauses⟩ := hmode
    refine ⟨hhold.trans (by rw [hbay]), ?_, hheld.trans hhanded.later⟩
    rw [hcauses, hbay]
    exact hcause

/-- R159: the second escalation of the two kinds that hold the bay. -/
theorem escalate_holds (hl : c.level = 1) (hk : c.kind = .tempRunaway ∨ c.kind = .supplyMismatch) (t : State) (ht : t = escalate c s) :
    Tells s t .escalated [.num c.id, bayTok c.bay, wd c.kind.word, .num 2, wd "HOLD"] ∧ t.mon.bays[c.bay].hold = .automation ∧
      c.id ∈ t.mon.bays[c.bay].causes := by
  have hgoes : t = escalatedNotice c "HOLD" (automationHold c.bay c.id (s.setCall c.id Call.escalated)) :=
    ht.trans ((if_neg (by rw [hl]; nofun)).trans (if_pos hk))
  rw [hgoes]
  obtain ⟨hhold, hcause, hlater⟩ := automationHold_holds c.bay c.id (s.setCall c.id Call.escalated) _ rfl
  generalize automationHold c.bay c.id (s.setCall c.id Call.escalated) = u at hhold hcause hlater
  have htold := (tells_queueNotice .escalated [.num c.id, bayTok c.bay, wd c.kind.word, .num (c.level + 1), wd "HOLD"] u).since
    ((later_setCall c.id Call.escalated s).trans hlater)
  have hmon := queueNotice_mon .escalated [.num c.id, bayTok c.bay, wd c.kind.word, .num (c.level + 1), wd "HOLD"] u
  unfold escalatedNotice
  rw [hl] at htold hmon ⊢
  exact ⟨htold, by rw [hmon]; exact hhold, by rw [hmon]; exact hcause⟩

/-- R159: the second escalation of any other kind. -/
theorem escalate_tells (hc : callOf s c.id = some c) (hl : c.level = 1) (h1 : c.kind ≠ .tempRunaway) (h2 : c.kind ≠ .supplyMismatch) (t : State)
    (ht : t = escalate c s) : Tells s t .escalated [.num c.id, bayTok c.bay, wd c.kind.word, .num 2, wd "NOTICE"] ∧
      callOf t c.id = some { c with level := 2, deadline := none } ∧ t.mon.bays = s.mon.bays ∧ t = { s with mon := t.mon, host := t.host } := by
  have hgoes : t = escalatedNotice c "NOTICE" (s.setCall c.id Call.escalated) :=
    ht.trans ((if_neg (by rw [hl]; nofun)).trans (if_neg (by rintro (h | h); exacts [h1 h, h2 h])))
  rw [hgoes]
  have hset : callOf (s.setCall c.id Call.escalated) c.id = some c.escalated := callOf_setCall (fun _ => by rfl) hc
  have hmon := queueNotice_mon .escalated [.num c.id, bayTok c.bay, wd c.kind.word, .num (c.level + 1), wd "NOTICE"] (s.setCall c.id Call.escalated)
  have hcall := queueNotice_callOf .escalated [.num c.id, bayTok c.bay, wd c.kind.word, .num (c.level + 1), wd "NOTICE"] (s.setCall c.id Call.escalated) c.id
  have honly := queueNotice_monitorOnly .escalated [.num c.id, bayTok c.bay, wd c.kind.word, .num (c.level + 1), wd "NOTICE"] (s.setCall c.id Call.escalated)
  have htold := (tells_queueNotice .escalated [.num c.id, bayTok c.bay, wd c.kind.word, .num (c.level + 1), wd "NOTICE"] (s.setCall c.id Call.escalated)).since
    (later_setCall c.id Call.escalated s)
  rw [hset] at hcall
  unfold escalatedNotice
  rw [Call.escalated, hl] at hcall
  rw [hl] at htold hmon honly ⊢
  exact ⟨htold, hcall, by rw [hmon]; rfl, (MonitorOnly.withMon s _).trans honly⟩

end

/-! ## The rescan (R154) -/

/-- What a rescan leaves of the bays and the lanes: of the latches it takes call-owed marks alone. -/
structure Rescanned (s t : State) : Prop where
  later : Later s t
  mode : ∀ b : BayId, t.mon.bays[b].mode = s.mon.bays[b].mode
  set : ∀ (b : BayId) (j : Fin 16), t.mon.bays[b].latches[j].set = s.mon.bays[b].latches[j].set
  owed : ∀ (b : BayId) (j : Fin 16), s.mon.bays[b].latches[j].owed = false → t.mon.bays[b].latches[j] = s.mon.bays[b].latches[j]
  lanes : ∀ (l : Fin 2) (z : Lane), s.mon.lanes[l] = some z → t.mon.lanes[l] = some z

section

variable {s t u : State} {b : BayId} {k : EventKind}

theorem Rescanned.refl (s : State) : Rescanned s s := ⟨.refl s, fun _ => rfl, fun _ _ => rfl, fun _ _ _ => rfl, fun _ _ h => h⟩

theorem Rescanned.trans (h : Rescanned s t) (g : Rescanned t u) : Rescanned s u :=
  ⟨h.later.trans g.later, fun b => (g.mode b).trans (h.mode b), fun b j => (g.set b j).trans (h.set b j),
    fun b j ho => (g.owed b j (by rw [h.owed b j ho]; exact ho)).trans (h.owed b j ho), fun l z hz => g.lanes l z (h.lanes l z hz)⟩

theorem Dispatching.rescanned (h : Dispatching s t) (hl : Later s t) : Rescanned s t :=
  ⟨hl, fun b => by rw [h.bays], fun b j => by rw [h.bays], fun b j _ => by rw [h.bays], h.kept⟩

theorem arbiter_later (s : State) : Later s (arbiter s) := ((Touches.refl (m := { calls := True }) s).arbiter trivial).later

theorem setLatch_latch (b : BayId) (k : EventKind) (f : Latch → Latch) (s : State) (d : BayId) (j : Fin 16) : (s.setLatch b k f).mon.bays[d].latches[j] =
    if d = b ∧ j = k.slot then f s.mon.bays[d].latches[j] else s.mon.bays[d].latches[j] := by
  rw [State.setLatch, State.setMon_mon]
  dsimp only
  rw [upd_get]
  by_cases hd : d = b
  · subst hd
    rw [if_pos rfl]
    dsimp only
    rw [upd_get]
    by_cases hj : j = k.slot
    · subst hj
      rw [if_pos rfl, if_pos ⟨rfl, rfl⟩]
    · rw [if_neg hj, if_neg fun h => hj h.2]
  · rw [if_neg hd, if_neg fun h => hd h.1]

theorem setLatch_mode (b : BayId) (k : EventKind) (f : Latch → Latch) (s : State) (d : BayId) :
    (s.setLatch b k f).mon.bays[d].mode = s.mon.bays[d].mode := upd_view MonBay.mode s.mon.bays b d _ rfl

/-- A call-owed mark is taken from a latch. -/
theorem rescanned_unowed (ho : s.mon.bays[b].latches[k.slot].owed = true) : Rescanned s (s.setLatch b k (fun y => { y with owed := false })) := by
  refine ⟨⟨rfl, rfl, List.prefix_rfl, fun h => h⟩, setLatch_mode b k _ s, fun d j => ?_, fun d j hj => ?_, fun _ _ h => h⟩
  · rw [setLatch_latch]
    split <;> rfl
  · rw [setLatch_latch]
    split
    · next h =>
      obtain ⟨rfl, rfl⟩ := h
      rw [ho] at hj
      cases hj
    · rfl

theorem raiseCall_rescanned (b : BayId) (k : EventKind) (s : State) : Rescanned s (raiseCall b k s) :=
  ⟨⟨rfl, rfl, List.prefix_rfl, fun h => h⟩, fun _ => rfl, fun _ _ => rfl, fun _ _ _ => rfl, fun _ _ h => h⟩

theorem rescanLatch_rescanned (b : BayId) (k : EventKind) (s : State) : Rescanned s (rescanLatch b k s) := by
  unfold rescanLatch
  dsimp only
  split
  · next h =>
    simp only [Bool.and_eq_true] at h
    obtain ⟨⟨⟨-, -⟩, howed⟩, -⟩ := h
    have hunowed := rescanned_unowed howed
    generalize s.setLatch b k (fun y => { y with owed := false }) = t at hunowed
    split
    · have hraised := raiseCall_rescanned b k t
      generalize raiseCall b k t = u at hraised
      exact hunowed.trans (hraised.trans ((arbiter_dispatching u).rescanned (arbiter_later u)))
    · exact hunowed
  · exact .refl s

theorem rescan_rescanned (s : State) : Rescanned s (rescan s) :=
  State.each_keeps (Rescanned s) _ _ (fun b u hu => State.each_keeps (Rescanned s) _ _ (fun k v hv => hv.trans (rescanLatch_rescanned b k v)) u hu) s (.refl s)

/-- Where no latch owes a call, the rescan raises none. -/
theorem rescan_of_unowed (h : ∀ (b : BayId) (j : Fin 16), s.mon.bays[b].latches[j].owed = false) : rescan s = s := by
  have honce : ∀ b k, rescanLatch b k s = s := fun b k => by
    unfold rescanLatch
    dsimp only
    rw [if_neg (by rw [h b k.slot]; simp)]
  have heach : ∀ {α : Type} (l : List α) (f : α → State → State), (∀ a, f a s = s) → s.each l f = s := fun l f hf =>
    State.each_keeps (· = s) l f (fun a u hu => by rw [hu, hf a]) s rfl
  exact heach _ _ fun b => heach _ _ fun k => honce b k

/-! ## CALL-CLOSE (R160) -/

variable {c : Call}

/-- A call that is off the queue, its lane free, before the rescan. -/
def closedCall (c : Call) (s : State) : State :=
  let t := freeCallLane c.id s
  let u := if latchPersists t c.bay c.kind then t else clearLatch c.bay c.kind t
  let v : State := { u with mon := { u.mon with calls := u.mon.calls.filter (fun x => x.id ≠ c.id) } }
  queueNotice .callEnd [.num c.id, bayTok c.bay, wd c.kind.word, wd c.state.word]
    (v.setMon c.bay (fun m => { m with causes := m.causes.filter (fun i => i ≠ c.id) }))

theorem closeCall_eq (c : Call) (s : State) : closeCall c s = arbiter (rescan (closedCall c s)) := rfl

theorem clearLatch_mon (b : BayId) (k : EventKind) (s : State) :
    (clearLatch b k s).mon = (s.setLatch b k (fun x => { x with set := false, owed := false })).mon := by
  unfold clearLatch
  dsimp only
  split
  · exact (examineStandby_frame b _).1
  · rfl

/-- The Monitor's records of a call that is off the queue. -/
def Monitor.closed (m : Monitor) (c : Call) (persists : Bool) : Monitor :=
  { m with
    lanes := Vector.ofFn (fun l => if (m.lanes[l]).any (fun x => x.call = c.id) then none else m.lanes[l]),
    bays := upd (if persists then m.bays else
        upd m.bays c.bay (fun x => { x with latches := upd x.latches c.kind.slot (fun y => { y with set := false, owed := false }) })) c.bay
      (fun x => { x with causes := x.causes.filter (fun i => i ≠ c.id) }),
    calls := m.calls.filter (fun x => x.id ≠ c.id) }

theorem closedCall_mon (c : Call) (s : State) : (closedCall c s).mon = s.mon.closed c (latchPersists s c.bay c.kind) := by
  unfold closedCall
  dsimp only
  rw [queueNotice_mon, show latchPersists (freeCallLane c.id s) c.bay c.kind = latchPersists s c.bay c.kind from rfl]
  cases latchPersists s c.bay c.kind with
  | true => rfl
  | false =>
    have hclear := clearLatch_mon c.bay c.kind (freeCallLane c.id s)
    rw [if_neg nofun]
    generalize clearLatch c.bay c.kind (freeCallLane c.id s) = u at hclear
    rw [State.setMon_mon]
    dsimp only
    rw [hclear]
    rfl

theorem tells_closedCall (c : Call) (s : State) : Tells s (closedCall c s) .callEnd [.num c.id, bayTok c.bay, wd c.kind.word, wd c.state.word] := by
  have hcleared : Later s (if latchPersists (freeCallLane c.id s) c.bay c.kind then freeCallLane c.id s else clearLatch c.bay c.kind (freeCallLane c.id s)) := by
    have hfreed : Later s (freeCallLane c.id s) := ⟨rfl, rfl, List.prefix_rfl, fun h => h⟩
    split
    · exact hfreed
    · exact hfreed.trans ((Touches.refl (m := .all) _).clearLatch ⟨trivial, trivial, trivial, trivial⟩ c.kind).later
  unfold closedCall
  dsimp only
  generalize (if latchPersists (freeCallLane c.id s) c.bay c.kind then freeCallLane c.id s else clearLatch c.bay c.kind (freeCallLane c.id s)) = u at hcleared
  exact (tells_queueNotice _ _ _).since (hcleared.trans ⟨rfl, rfl, List.prefix_rfl, fun h => h⟩)

theorem Monitor.closed_bay (m : Monitor) (c : Call) (p : Bool) : (m.closed c p).bays[c.bay] = { (if p then m.bays[c.bay] else
    { m.bays[c.bay] with latches := upd m.bays[c.bay].latches c.kind.slot (fun y => { y with set := false, owed := false }) }) with
      causes := m.bays[c.bay].causes.filter (fun i => i ≠ c.id) } := by
  cases p with
  | true => exact upd_same _ _ _
  | false =>
    refine (upd_same _ _ _).trans ?_
    rw [if_neg nofun, if_neg nofun, upd_same]

theorem Monitor.closed_causes (m : Monitor) (c : Call) (p : Bool) : c.id ∉ (m.closed c p).bays[c.bay].causes := by
  rw [Monitor.closed_bay]
  simp

theorem Monitor.closed_latch (m : Monitor) (c : Call) (p : Bool) : (m.closed c p).bays[c.bay].latches[c.kind.slot] =
    if p then m.bays[c.bay].latches[c.kind.slot] else { m.bays[c.bay].latches[c.kind.slot] with set := false, owed := false } := by
  rw [Monitor.closed_bay]
  cases p with
  | true => rfl
  | false => exact upd_same _ _ _

theorem Monitor.closed_owed {m : Monitor} (h : ∀ (b : BayId) (j : Fin 16), m.bays[b].latches[j].owed = false) (c : Call) (p : Bool) (b : BayId) (j : Fin 16) :
    (m.closed c p).bays[b].latches[j].owed = false := by
  by_cases hb : b = c.bay
  · subst hb
    rw [Monitor.closed_bay]
    cases p with
    | true => exact h _ _
    | false =>
      show (upd m.bays[c.bay].latches c.kind.slot _)[j].owed = false
      rw [upd_get]
      split
      · rfl
      · exact h _ _
  · refine (congrArg (fun x : MonBay => x.latches[j].owed) (upd_other _ _ _ _ hb)).trans ?_
    cases p with
    | true => exact h _ _
    | false =>
      rw [if_neg nofun, upd_other _ _ _ _ hb]
      exact h _ _

theorem Monitor.closed_lane (m : Monitor) (c : Call) (p : Bool) (l : Fin 2) (z : Lane) : (m.closed c p).lanes[l] = some z ↔
    m.lanes[l] = some z ∧ z.call ≠ c.id := by
  show (Vector.ofFn fun l => _)[l] = some z ↔ _
  rw [Fin.getElem_fin, Vector.getElem_ofFn]
  cases hl : m.lanes[l] with
  | none => simp [hl, -Fin.getElem_fin]
  | some x =>
    by_cases hx : x.call = c.id
    · simp only [hl, Option.any_some, hx, decide_true, if_true]
      constructor
      · nofun
      · rintro ⟨h, hne⟩
        exact absurd (Option.some_inj.1 h ▸ hx) hne
    · simp only [hl, Option.any_some, hx, decide_false, Bool.false_eq_true, if_false]
      constructor
      · exact fun h => ⟨h, Option.some_inj.1 h ▸ hx⟩
      · exact And.left

theorem closedCall_lane (c : Call) (s : State) (l : Fin 2) (z : Lane) :
    (closedCall c s).mon.lanes[l] = some z ↔ s.mon.lanes[l] = some z ∧ z.call ≠ c.id := by
  rw [closedCall_mon]
  exact s.mon.closed_lane c _ l z

theorem mem_closedCall {d : Call} : d ∈ (closedCall c s).mon.calls ↔ d ∈ s.mon.calls ∧ d.id ≠ c.id := by
  rw [closedCall_mon]
  exact List.mem_filter.trans (and_congr_right fun _ => by simp)

/-- R160: a close where no latch owes a call. -/
theorem closeCall_of_unowed (h : ∀ (b : BayId) (j : Fin 16), s.mon.bays[b].latches[j].owed = false) (c : Call) : Dispatching (closedCall c s) (closeCall c s) := by
  rw [closeCall_eq, rescan_of_unowed (s := closedCall c s) (by rw [closedCall_mon]; exact Monitor.closed_owed h c _)]
  exact arbiter_dispatching _

theorem closeCall_rescanned (c : Call) (s : State) : Rescanned (closedCall c s) (closeCall c s) := by
  rw [closeCall_eq]
  have hscanned := rescan_rescanned (closedCall c s)
  generalize rescan (closedCall c s) = u at hscanned
  exact hscanned.trans ((arbiter_dispatching u).rescanned (arbiter_later u))

theorem callClose_served {w : Txt} (hw : number w = some c.id) (h1 : 1 ≤ c.id) (h2 : c.id ≤ 65535) (hc : callOf s c.id = some c) :
    serveVerb .callClose [w] s = okay .callClose [.num c.id] (closeCall c s) := by
  show serveCallClose [w] s = _
  unfold serveCallClose
  rw [withFields_single hw, if_pos ((within_iff _ _ _).2 ⟨h1, h2⟩), hc]

theorem EventKind.level_iff (k : EventKind) :
    k ∈ [EventKind.lineExpired, .presencePartial, .supplyMismatch, .ovenFault, .cleanDue, .detergentLow, .rinseOwed] ↔ k.level = true := by
  cases k <;> decide

theorem latchPersists_iff (s : State) (b : BayId) (k : EventKind) :
    latchPersists s b k = true ↔ s.mon.bays[b].latches[k.slot].set = true ∧ k.level = true ∧ condition s b k = true := by
  rw [latchPersists, Bool.and_eq_true, Bool.and_eq_true, and_assoc]

end

/-- Settles O53. -/
theorem callsEscalateAndClose : Obligations.CallsEscalateAndClose := by
  intro s c hc
  refine ⟨fun d hrun hd hdue => ?_, fun w hs hw h1 h2 => ?_⟩
  · have hon : s.phase ≠ .off := by rw [hrun]; decide
    have hexpires := escalationExpires_over hc hd hdue
    refine ⟨fun hl => ?_, fun hl hk => ?_, fun hl hk1 hk2 => ?_⟩ <;> refine completes_event hon rfl fun tx sent => ?_ <;> rw [hexpires]
    · obtain ⟨htold, hcall⟩ := escalate_first hc hl _ rfl
      exact ⟨htold.mono (later_sending _ tx sent), hcall⟩
    · obtain ⟨htold, hhold, hcause⟩ := escalate_holds (s := s) hl hk _ rfl
      exact ⟨htold.mono (later_sending _ tx sent), hhold, hcause⟩
    · obtain ⟨htold, hcall, hbays, honly⟩ := escalate_tells hc hl hk1 hk2 _ rfl
      exact ⟨htold.mono (later_sending _ tx sent), hcall, hbays, by rw [honly]⟩
  · have hscanned := closeCall_rescanned c s
    have htold := (tells_closedCall c s).mono hscanned.later
    have hmon := closedCall_mon c s
    have hserved := callClose_served (s := s) hw h1 h2 hc
    have hquiet := fun h => closeCall_of_unowed (s := s) h c
    generalize closeCall c s = t at hscanned htold hserved hquiet
    refine completes_of_answered (answered_of_served hs hserved) ⟨?_, rfl, htold.mono (later_replying _ _), ?_, ?_, ?_⟩
    · have hmode := hscanned.mode c.bay
      simp only [MonBay.mode, Prod.mk.injEq] at hmode
      obtain ⟨-, -, -, -, hcauses⟩ := hmode
      show c.id ∉ t.mon.bays[c.bay].causes
      rw [hcauses, hmon]
      exact Monitor.closed_causes _ _ _
    · have hset := hscanned.set c.bay c.kind.slot
      have howed := hscanned.owed c.bay c.kind.slot
      rw [hmon, Monitor.closed_latch] at hset howed
      dsimp only
      rw [EventKind.level_iff, ← latchPersists_iff]
      refine ⟨fun hstays => ?_, fun hstays => ?_⟩
      · rw [if_pos hstays] at hset howed
        exact ⟨hset.trans ((latchPersists_iff s _ _).1 hstays).1, howed⟩
      · rw [if_neg hstays] at hset howed
        exact ⟨hset, congrArg Latch.owed (howed rfl)⟩
    · exact fun l z hz hne => hscanned.lanes l z ((closedCall_lane c s l z).2 ⟨hz, hne⟩)
    · intro hunowed
      have hdispatched := hquiet hunowed
      have hwaits : ∀ id, Waits (closedCall c s) id → id ≠ c.id ∧ ∃ d ∈ s.mon.calls, d.id ≠ c.id ∧ d.state = .waiting := fun id ⟨d, hd, hid, hst⟩ => by
        obtain ⟨hmem, hne⟩ := mem_closedCall.1 hd
        exact ⟨hid ▸ hne, d, hmem, hne, hst⟩
      refine ⟨hdispatched.callOf_none ?_, fun l z hz => ?_, fun hnone l z hl hz => ?_⟩
      · refine List.find?_eq_none.2 fun d hd => ?_
        simpa using (mem_closedCall.1 hd).2
      · obtain hz | hz := hdispatched.filled l z hz
        · exact ((closedCall_lane c s l z).1 hz).2
        · exact (hwaits _ hz).1
      · refine Option.eq_none_iff_forall_ne_some.2 fun y hy => ?_
        obtain hy | hy := hdispatched.filled l y hy
        · obtain ⟨hold, hne⟩ := (closedCall_lane c s l y).1 hy
          obtain rfl := Option.some_inj.1 (hl.symm.trans hold)
          exact hne hz
        · obtain ⟨-, d, hd, hne, hst⟩ := hwaits _ hy
          exact hnone d hd hne hst

end Sys2Proof.Machine


/-! SUPPORT. What the announcement of a latch tells, and what it makes of the call queue and the latch (R150, R153, R154). -/

namespace Sys2Proof.Machine

set_option Elab.async false

open Sys2Proof

/-! ## The id of a raised call (R154) -/

section

variable {s t u : State} {b : BayId} {k : EventKind}

/-- A queue with room has an id that no call holds, whatever the next id is. -/
theorem raiseId_free (h : s.mon.calls.length < 32) : raiseId s ∉ s.mon.calls.map Call.id := by
  have heq : (fun n => s.mon.calls.any (fun c => c.id = n)) = fun n => decide (n ∈ s.mon.calls.map Call.id) := by
    funext n
    rw [Bool.eq_iff_iff]
    simp
  have hlen : (s.mon.calls.map Call.id).length < 32 := by rw [List.length_map]; exact h
  rw [raiseId, freeCallId_eq, nextCallId_eq, heq, callRoom, firstFree]
  generalize s.mon.calls.map Call.id = l at hlen
  split
  · refine firstFree_notMem (fuel := 31) ?_ ?_ (by omega) (by decide) <;> (unfold wrapNext; split <;> omega)
  · next hfree => simpa using hfree

/-- A raised call is found by its id. -/
theorem callOf_raiseCall (h : s.mon.calls.length < 32) (b : BayId) (k : EventKind) : ∃ c, callOf (raiseCall b k s) (raiseId s) = some c ∧ c.bay = b ∧
    c.kind = k ∧ c.severity = (settingOf s k).severity ∧ c.raised = s.now / 1000 ∧ c.state = .waiting := by
  have hfree := raiseId_free h
  have hnone : callOf s (raiseId s) = none := List.find?_eq_none.2 fun c hc hid => hfree (List.mem_map.2 ⟨c, hc, of_decide_eq_true hid⟩)
  unfold callOf at hnone ⊢
  unfold raiseCall
  dsimp only
  rw [List.find?_append, hnone, Option.none_or]
  exact ⟨_, List.find?_cons_of_pos (decide_eq_true rfl), rfl, rfl, rfl, rfl, rfl⟩

/-! ## The four announcements of a latch (R150) -/

/-- What an EVENT notice tells of a latch. -/
def eventFields (b : BayId) (k : EventKind) (severity : Nat) (x : Latch) (call : String) (id : Nat) : List Tok :=
  [bayTok b, wd k.word, .num severity, wd (if x.forced then "FORCED" else "DETECTED"), wd call, .num id, .num (if k = .ovenFault then x.code else 0)]

theorem tells_eventNotice (b : BayId) (k : EventKind) (call : String) (id : Nat) (s : State) :
    Tells s (eventNotice b k call id s) .event (eventFields b k (settingOf s k).severity s.mon.bays[b].latches[k.slot] call id) := tells_queueNotice _ _ s

theorem eventNotice_mon (b : BayId) (k : EventKind) (call : String) (id : Nat) (s : State) : (eventNotice b k call id s).mon = s.mon := queueNotice_mon _ _ s

theorem announce_notice (h : (settingOf s k).route = .notice) (b : BayId) : announce b k s = eventNotice b k "NONE" 0 s := by
  unfold announce
  rw [h]

theorem announce_joined (h : (settingOf s k).route = .call) {c : Call} (hc : callFor s b k = some c) : announce b k s = eventNotice b k "JOINED" c.id s := by
  unfold announce
  rw [h, hc]

/-- A call that has been raised, before the arbiter runs. -/
def raised (b : BayId) (k : EventKind) (s : State) : State :=
  eventNotice b k "RAISED" (raiseId s) (raiseCall b k (s.setLatch b k (fun x => { x with owed := false })))

theorem announce_raised (h : (settingOf s k).route = .call) (hc : callFor s b k = none) (hl : s.mon.calls.length < 32) :
    announce b k s = arbiter (raised b k s) := by
  unfold announce
  rw [h, hc]
  exact if_pos hl

theorem announce_deferred (h : (settingOf s k).route = .call) (hc : callFor s b k = none) (hl : 32 ≤ s.mon.calls.length) :
    announce b k s = eventNotice b k "DEFERRED" 0 (s.setLatch b k (fun x => { x with owed := true })) := by
  unfold announce
  rw [h, hc]
  exact if_neg (not_lt.mpr hl)

/-! ### A raised call -/

theorem setLatch_same (b : BayId) (k : EventKind) (f : Latch → Latch) (s : State) :
    (s.setLatch b k f).mon.bays[b].latches[k.slot] = f s.mon.bays[b].latches[k.slot] := by
  rw [setLatch_latch]
  exact if_pos ⟨rfl, rfl⟩

theorem later_setLatch (b : BayId) (k : EventKind) (f : Latch → Latch) (s : State) : Later s (s.setLatch b k f) := ⟨rfl, rfl, List.prefix_rfl, fun h => h⟩

theorem raised_mon (b : BayId) (k : EventKind) (s : State) :
    (raised b k s).mon = (raiseCall b k (s.setLatch b k (fun x => { x with owed := false }))).mon := eventNotice_mon _ _ _ _ _

theorem tells_raised (b : BayId) (k : EventKind) (s : State) :
    Tells s (raised b k s) .event (eventFields b k (settingOf s k).severity s.mon.bays[b].latches[k.slot] "RAISED" (raiseId s)) := by
  have htold := tells_eventNotice b k "RAISED" (raiseId s) (raiseCall b k (s.setLatch b k (fun x => { x with owed := false })))
  have hlatch : (raiseCall b k (s.setLatch b k (fun x => { x with owed := false }))).mon.bays[b].latches[k.slot] =
      { s.mon.bays[b].latches[k.slot] with owed := false } := setLatch_same b k _ s
  rw [hlatch] at htold
  exact htold.since ((later_setLatch b k _ s).trans (raiseCall_rescanned b k _).later)

theorem callOf_raised (h : s.mon.calls.length < 32) (b : BayId) (k : EventKind) : ∃ c, callOf (raised b k s) (raiseId s) = some c ∧ c.bay = b ∧
    c.kind = k ∧ c.severity = (settingOf s k).severity ∧ c.raised = s.now / 1000 ∧ c.state = .waiting := by
  obtain ⟨c, hc, hrest⟩ := callOf_raiseCall (s := s.setLatch b k (fun x => { x with owed := false })) h b k
  refine ⟨c, ?_, hrest⟩
  rw [callOf, raised_mon]
  exact hc

/-- R154: a raised call stands in the queue, waiting or dispatched. -/
theorem callOf_arbiter_raised (h : s.mon.calls.length < 32) (b : BayId) (k : EventKind) : ∃ c, callOf (arbiter (raised b k s)) (raiseId s) = some c ∧
    c.bay = b ∧ c.kind = k ∧ c.severity = (settingOf s k).severity ∧ c.raised = s.now / 1000 ∧ (c.state = .waiting ∨ c.state = .dispatched) := by
  obtain ⟨c, hc, hbay, hkind, hsev, hraised, hst⟩ := callOf_raised h b k
  obtain ⟨y, hy, hsame, hst'⟩ := arbiter_waiting hc hst
  refine ⟨y, hy, ?_, ?_, ?_, ?_, hst'.imp And.left fun h => h⟩ <;> obtain rfl | ⟨l, n, rfl⟩ := hsame <;> assumption

theorem arbiter_raised_latch (b : BayId) (k : EventKind) (s : State) :
    (arbiter (raised b k s)).mon.bays[b].latches[k.slot] = { s.mon.bays[b].latches[k.slot] with owed := false } := by
  rw [(arbiter_dispatching _).bays, raised_mon]
  exact setLatch_same b k _ s

theorem tells_arbiter_raised (b : BayId) (k : EventKind) (s : State) : Tells s (arbiter (raised b k s)) .event
    (eventFields b k (settingOf s k).severity s.mon.bays[b].latches[k.slot] "RAISED" (raiseId s)) := (tells_raised b k s).mono (arbiter_later _)

theorem tells_deferred (b : BayId) (k : EventKind) (s : State) :
    Tells s (eventNotice b k "DEFERRED" 0 (s.setLatch b k (fun x => { x with owed := true }))) .event
      (eventFields b k (settingOf s k).severity s.mon.bays[b].latches[k.slot] "DEFERRED" 0) := by
  have htold := tells_eventNotice b k "DEFERRED" 0 (s.setLatch b k (fun x => { x with owed := true }))
  rw [setLatch_same] at htold
  exact htold.since (later_setLatch b k _ s)

/-! ## What an announcement makes of the latch -/

/-- Whether an announced latch owes a call. -/
def owes (s : State) (b : BayId) (k : EventKind) : Bool :=
  decide ((settingOf s k).route = .call) && (callFor s b k).isNone && decide (32 ≤ s.mon.calls.length)

/-- R150, R154: the announcement of a latch changes no more of it than its call-owed mark. -/
theorem announce_latch (b : BayId) (k : EventKind) (s : State) : ∃ owed, (announce b k s).mon.bays[b].latches[k.slot] =
    { s.mon.bays[b].latches[k.slot] with owed := owed } ∧ (s.mon.bays[b].latches[k.slot].owed = false → owed = owes s b k) := by
  cases hr : (settingOf s k).route with
  | notice => exact ⟨_, by rw [announce_notice hr, eventNotice_mon], fun h => h.trans (by simp [owes, hr])⟩
  | call =>
    cases hc : callFor s b k with
    | some c => exact ⟨_, by rw [announce_joined hr hc, eventNotice_mon], fun h => h.trans (by simp [owes, hr, hc])⟩
    | none =>
      by_cases hl : s.mon.calls.length < 32
      · exact ⟨false, by rw [announce_raised hr hc hl, arbiter_raised_latch], fun _ => by simp [owes, hr, hc, hl]⟩
      · have hfull := not_lt.mp hl
        exact ⟨true, by rw [announce_deferred hr hc hfull, eventNotice_mon, setLatch_same], fun _ => by simp [owes, hr, hc, hfull]⟩

end

end Sys2Proof.Machine


/-! PROOF. Latches that are newly set, the rescan of a latch, the fault code, the arbiter, and the local mode (O51). -/

namespace Sys2Proof.Machine

set_option Elab.async false

open Sys2Proof

/-! ## A latch newly set (R150) -/

section

variable {s t : State} {b : BayId} {k : EventKind}

/-- The code that a newly set latch takes (R149). -/
def newCode (b : BayId) (k : EventKind) (s : State) : Nat := if k = .ovenFault ∧ condition s b k = true then s.mon.bays[b].code else 0

/-- A latch as it is newly set. -/
def newLatch (b : BayId) (k : EventKind) (forced : Bool) (s : State) : Latch :=
  { set := true, time := s.now / 1000, forced := forced, code := newCode b k s, owed := false }

/-- The state with the latch newly set, before it is announced. -/
def latched (b : BayId) (k : EventKind) (forced : Bool) (s : State) : State := s.setLatch b k (fun _ => newLatch b k forced s)

theorem latch_of_clear (h : s.mon.bays[b].latches[k.slot].set = false) (forced : Bool) : latch b k forced s =
    if (settingOf s k).enabled then announce b k (latched b k forced s) else latched b k forced s := if_neg (by rw [h]; nofun)

theorem eventFields_new (b : BayId) (k : EventKind) (forced : Bool) (s : State) (call : String) (id : Nat) :
    eventFields b k (settingOf s k).severity (newLatch b k forced s) call id = [bayTok b, wd k.word, .num (settingOf s k).severity,
      wd (if forced then "FORCED" else "DETECTED"), wd call, .num id, .num (newCode b k s)] := by
  have hcode : (if k = .ovenFault then newCode b k s else 0) = newCode b k s := by
    unfold newCode
    split
    · rfl
    · next h => rw [if_neg fun hk => h hk.1]
  unfold eventFields newLatch
  dsimp only
  rw [hcode]

theorem latched_told {u : State} {call : String} {id : Nat} {forced : Bool}
    (h : Tells (latched b k forced s) u .event (eventFields b k (settingOf s k).severity (latched b k forced s).mon.bays[b].latches[k.slot] call id)) :
    Tells s u .event [bayTok b, wd k.word, .num (settingOf s k).severity, wd (if forced then "FORCED" else "DETECTED"), wd call, .num id,
      .num (newCode b k s)] := by
  rw [latched, setLatch_same, eventFields_new] at h
  exact h.since (later_setLatch b k _ s)

/-! ## The code of OVEN_FAULT (R149) -/

theorem announce_code (b : BayId) (k : EventKind) (s : State) (d : BayId) : (announce b k s).mon.bays[d].code = s.mon.bays[d].code := by
  have hset : ∀ f : Latch → Latch, (s.setLatch b k f).mon.bays[d].code = s.mon.bays[d].code := fun f => upd_view MonBay.code s.mon.bays b d _ rfl
  have hnotice : ∀ (call : String) (id : Nat) (u : State), (eventNotice b k call id u).mon.bays[d].code = u.mon.bays[d].code := fun call id u =>
    congrArg (fun m : Monitor => m.bays[d].code) (eventNotice_mon b k call id u)
  unfold announce
  split
  · exact hnotice _ _ _
  · split
    · exact hnotice _ _ _
    · split
      · exact (congrArg (fun v : Vector MonBay 12 => v[d].code) (arbiter_dispatching _).bays).trans ((hnotice _ _ _).trans (hset _))
      · exact (hnotice _ _ _).trans (hset _)

theorem latch_code (b : BayId) (k : EventKind) (forced : Bool) (s : State) (d : BayId) : (latch b k forced s).mon.bays[d].code = s.mon.bays[d].code := by
  have hset : (latched b k forced s).mon.bays[d].code = s.mon.bays[d].code := upd_view MonBay.code s.mon.bays b d _ rfl
  cases h : s.mon.bays[b].latches[k.slot].set with
  | true => rw [latch, if_pos h]
  | false =>
    rw [latch_of_clear h]
    split
    · exact (announce_code b k _ d).trans hset
    · exact hset

theorem setCondition_code (b : BayId) (k : EventKind) (v : Bool) (s : State) (d : BayId) : (setCondition b k v s).mon.bays[d].code = s.mon.bays[d].code := by
  have hset : (s.setMon b (fun m => { m with conds := upd m.conds k.slot (fun _ => v) })).mon.bays[d].code = s.mon.bays[d].code :=
    upd_view MonBay.code s.mon.bays b d _ rfl
  unfold setCondition
  split
  · rfl
  · dsimp only
    split
    · exact (latch_code b k false _ d).trans hset
    · exact hset

/-- The bay with the fault code of its latest record. -/
def coded (b : BayId) (code : Nat) (s : State) : State := s.setMon b (fun m => { m with code := code })

theorem coded_bay (b : BayId) (code : Nat) (s : State) : (coded b code s).mon.bays[b] = { s.mon.bays[b] with code := code } := upd_same _ _ _

theorem takeFault_nonzero {code : Nat} (h : code ≠ 0) : takeFault b code s =
    if condition s b .ovenFault then
      if s.mon.bays[b].code = code then s
      else match callFor s b .ovenFault with
        | some c => ((coded b code s).setLatch b .ovenFault (fun x => { x with code := code })).setCall c.id (fun x => { x with latestCode := some code })
        | none => (coded b code s).setLatch b .ovenFault (fun x => { x with code := code })
    else setCondition b .ovenFault true (coded b code s) := by
  rw [takeFault, if_neg h]
  rfl

/-- R149: a fault that begins sets the latch with its code. -/
theorem fault_begins {code : Nat} (hc : condition s b .ovenFault = false) (hl : s.mon.bays[b].latches[EventKind.ovenFault.slot].set = false) :
    (setCondition b .ovenFault true (coded b code s)).mon.bays[b].latches[EventKind.ovenFault.slot].set = true ∧
      (setCondition b .ovenFault true (coded b code s)).mon.bays[b].latches[EventKind.ovenFault.slot].code = code := by
  have hcond : condition (coded b code s) b .ovenFault = false := by
    rw [condition, coded_bay]
    exact hc
  have hnow := setConds_condition (coded b code s) b .ovenFault .ovenFault true
  rw [if_pos rfl] at hnow
  have hbay : ((coded b code s).setMon b (fun m => { m with conds := upd m.conds EventKind.ovenFault.slot (fun _ => true) })).mon.bays[b] =
      { s.mon.bays[b] with code := code, conds := upd s.mon.bays[b].conds EventKind.ovenFault.slot (fun _ => true) } := by
    refine (upd_same _ _ _).trans ?_
    rw [coded_bay]
  rw [setCondition, if_neg (by rw [hcond]; nofun)]
  dsimp only
  rw [if_pos rfl]
  generalize (coded b code s).setMon b (fun m => { m with conds := upd m.conds EventKind.ovenFault.slot (fun _ => true) }) = u at hnow hbay
  have hclear : u.mon.bays[b].latches[EventKind.ovenFault.slot].set = false := by
    rw [hbay]
    exact hl
  have hcode : newCode b .ovenFault u = code := by
    rw [newCode, if_pos ⟨rfl, hnow⟩, hbay]
  have hlatch : ∃ owed, (latch b .ovenFault false u).mon.bays[b].latches[EventKind.ovenFault.slot] = { newLatch b .ovenFault false u with owed := owed } := by
    rw [latch_of_clear hclear]
    split
    · obtain ⟨owed, howed, -⟩ := announce_latch b .ovenFault (latched b .ovenFault false u)
      rw [latched, setLatch_same] at howed
      exact ⟨owed, howed⟩
    · exact ⟨false, setLatch_same _ _ _ _⟩
  obtain ⟨owed, hlatch⟩ := hlatch
  rw [hlatch]
  exact ⟨rfl, hcode⟩

end

/-! ## The order of the calls (R155) -/

section

/-- What is kept of a list by the search for the best. -/
def BestOf {α : Type} (better : α → α → Bool) (l : List α) (c : α) : Prop :=
  ∃ first rest, l = first ++ c :: rest ∧ (∀ d ∈ first, better c d = true) ∧ ∀ d ∈ rest, better d c = false

/-- The first of the best is found, where `better` orders the candidates. -/
theorem foldl_keepBest_best {α : Type} {better : α → α → Bool} (htrans : ∀ a b c, better a b = true → better b c = true → better a c = true)
    (hweak : ∀ a b c, better a b = true → better c b = false → better a c = true) (l : List α) {y : α} :
    ∃ c, l.foldl (keepBest better) (some y) = some c ∧ BestOf better (y :: l) c := by
  suffices h : ∀ (l pre : List α) (y : α), BestOf better pre y → ∃ c, l.foldl (keepBest better) (some y) = some c ∧ BestOf better (pre ++ l) c by
    obtain ⟨c, hc, hbest⟩ := h l [y] y ⟨[], [], rfl, nofun, nofun⟩
    exact ⟨c, hc, hbest⟩
  intro l
  induction l with
  | nil => exact fun pre y hy => ⟨y, rfl, by rw [List.append_nil]; exact hy⟩
  | cons x l ih =>
    intro pre y ⟨first, rest, hpre, hfirst, hrest⟩
    rw [List.foldl_cons, show pre ++ x :: l = pre ++ [x] ++ l by simp]
    unfold keepBest
    dsimp only
    cases hx : better x y with
    | true =>
      refine ih _ x ⟨pre, [], rfl, fun d hd => ?_, nofun⟩
      rw [hpre] at hd
      obtain hd | hd | hd := (List.mem_append.1 hd).imp id List.mem_cons.1
      · exact htrans x y d hx (hfirst d hd)
      · rw [hd]
        exact hx
      · exact hweak x y d hx (hrest d hd)
    | false =>
      refine ih _ y ⟨first, rest ++ [x], by rw [hpre]; simp, hfirst, fun d hd => ?_⟩
      obtain hd | hd := List.mem_append.1 hd
      · exact hrest d hd
      · rw [List.mem_singleton.1 hd]
        exact hx

theorem Call.before_iff (last : BayId) (c d : Call) : c.before last d = true ↔
    d.severity < c.severity ∨ c.severity = d.severity ∧ (c.bay.val + 11 - last.val) % 12 < (d.bay.val + 11 - last.val) % 12 := by
  rw [Call.before, Bool.or_eq_true, Bool.and_eq_true, decide_eq_true_eq, decide_eq_true_eq, beq_iff_eq]
  rfl

theorem Call.before_false (last : BayId) (c d : Call) : c.before last d = false ↔
    ¬ (d.severity < c.severity ∨ c.severity = d.severity ∧ (c.bay.val + 11 - last.val) % 12 < (d.bay.val + 11 - last.val) % 12) := by
  rw [← Call.before_iff, Bool.not_eq_true]

variable {s : State} {c : Call}

theorem bestCall_none : bestCall s = none ↔ s.mon.calls.filter (fun c => decide (c.state = .waiting)) = [] := by
  rw [bestCall_eq]
  constructor
  · intro h
    by_contra hne
    have hsome := foldl_keepBest_isSome (fun c d : Call => c.before s.mon.lastBay d) (s.mon.calls.filter fun c => decide (c.state = .waiting)) none (.inr hne)
    rw [h] at hsome
    cases hsome
  · intro h
    rw [h]
    rfl

/-- R155: the best call is the first of those before which none stands. -/
theorem bestCall_best (h : bestCall s = some c) :
    BestOf (fun c d => c.before s.mon.lastBay d) (s.mon.calls.filter (fun c => decide (c.state = .waiting))) c := by
  rw [bestCall_eq] at h
  cases hl : s.mon.calls.filter (fun c => decide (c.state = .waiting)) with
  | nil =>
    rw [hl] at h
    cases h
  | cons x l =>
    rw [hl] at h
    obtain ⟨d, hd, hbest⟩ := foldl_keepBest_best (better := fun c d : Call => c.before s.mon.lastBay d)
      (fun a b c hab hbc => by rw [Call.before_iff] at hab hbc ⊢; omega)
      (fun a b c hab hcb => by rw [Call.before_iff] at hab ⊢; rw [Call.before_false] at hcb; omega) l (y := x)
    obtain rfl := Option.some_inj.1 (h.symm.trans hd)
    exact hbest

theorem freeLane_none : freeLane s = none ↔ ∀ l : Fin 2, s.mon.lanes[l] ≠ none := by
  unfold freeLane
  rw [List.find?_eq_none]
  simp only [Option.isNone_iff_eq_none, List.mem_cons, List.not_mem_nil, or_false, forall_eq_or_imp, forall_eq, Fin.forall_fin_two]

theorem freeLane_lowest {l : Fin 2} (h : freeLane s = some l) : s.mon.lanes[l] = none ∧ ∀ m : Fin 2, m < l → s.mon.lanes[m] ≠ none := by
  refine ⟨freeLane_eq_some h, fun m hm hnone => ?_⟩
  obtain rfl : m = 0 := by omega
  have hzero : freeLane s = some 0 := List.find?_cons_of_pos (by rw [Option.isNone_iff_eq_none]; exact hnone)
  rw [hzero] at h
  obtain rfl := Option.some_inj.1 h
  exact absurd hm (lt_irrefl _)

/-- R155: one run of the arbiter. -/
theorem arbiterOnce_dispatches {l : Fin 2} (hl : freeLane s = some l) (hc : bestCall s = some c) (hid : callOf s c.id = some c) (t : State)
    (ht : t = arbiterOnce s) : callOf t c.id = some (c.taken l (nextDispatch c.number)) ∧
      t.mon.lanes[l] = some { call := c.id, due := s.now / 1000 + 120 } ∧ t.mon.lastBay = c.bay ∧
      Tells s t .callDispatch [.num c.id, .num (nextDispatch c.number), .num (l.val + 1), bayTok c.bay, wd c.kind.word, .num c.severity, .num c.level] := by
  have hgoes : t = dispatch l c s := by
    rw [ht, arbiterOnce, hl, hc]
  have hmon : (dispatch l c s).mon = { (s.setCall c.id (fun x => x.taken l (nextDispatch c.number))).mon with
      lanes := upd s.mon.lanes l (fun _ => some { call := c.id, due := s.sec + laneTime }), lastBay := c.bay } := queueNotice_mon _ _ _
  have hcall := callOf_setCall (f := fun x => x.taken l (nextDispatch c.number)) (fun _ => by rfl) hid
  rw [hgoes]
  refine ⟨?_, ?_, by rw [hmon], (tells_queueNotice _ _ _).since ⟨rfl, rfl, List.prefix_rfl, fun h => h⟩⟩
  · rw [callOf, hmon]
    exact hcall
  · rw [hmon]
    exact upd_same _ _ _

theorem arbiterOnce_idle (h : freeLane s = none ∨ bestCall s = none) : arbiterOnce s = s := by
  unfold arbiterOnce
  split
  · next hl hc => exact absurd h (by rw [hl, hc]; rintro (h | h) <;> cases h)
  · rfl

/-- A dispatch fills the lane that was free. -/
theorem arbiterOnce_fills {l : Fin 2} (hl : freeLane s = some l) (hc : bestCall s = some c) : (arbiterOnce s).mon.lanes[l] ≠ none := by
  have hmon : (dispatch l c s).mon.lanes = upd s.mon.lanes l (fun _ => some { call := c.id, due := s.sec + laneTime }) :=
    congrArg Monitor.lanes (queueNotice_mon _ _ _)
  rw [arbiterOnce, hl, hc]
  dsimp only
  rw [hmon, upd_same]
  nofun

/-- R155: the arbiter ends where no lane is free or no call waits. -/
theorem arbiter_ends (s : State) : freeLane (arbiter s) = none ∨ bestCall (arbiter s) = none := by
  rw [show arbiter s = arbiterOnce (arbiterOnce s) from rfl]
  by_cases hidle : freeLane (arbiterOnce s) = none ∨ bestCall (arbiterOnce s) = none
  · rw [arbiterOnce_idle hidle]
    exact hidle
  · have hstart : ¬ (freeLane s = none ∨ bestCall s = none) := fun h => hidle (by rw [arbiterOnce_idle h]; exact h)
    simp only [not_or, ← Option.isSome_iff_ne_none, Option.isSome_iff_exists] at hidle hstart
    obtain ⟨⟨l, hl⟩, c, hc⟩ := hstart
    obtain ⟨⟨m, hm⟩, d, hd⟩ := hidle
    have hfirst := arbiterOnce_fills hl hc
    have hsecond := arbiterOnce_fills hm hd
    have hne : l ≠ m := fun e => hfirst (e ▸ freeLane_eq_some hm)
    have hboth : ∀ j : Fin 2, j = l ∨ j = m := by omega
    refine .inl (freeLane_none.2 fun j => ?_)
    obtain rfl | rfl := hboth j
    · obtain ⟨z, hz⟩ := Option.ne_none_iff_exists'.1 hfirst
      rw [(arbiterOnce_dispatching (arbiterOnce s)).kept j z hz]
      nofun
    · exact hsecond

end

/-! ## The local mode (R162) -/

section

variable {s : State} {b : BayId}

/-- R161: the end of a bay's job by a hold leaves its hold. -/
theorem endJobHeld_hold (b : BayId) (s : State) : (endJobHeld b s).mon.bays[b].hold = s.mon.bays[b].hold := by
  unfold endJobHeld
  split
  · rfl
  · cases hl : liveRun s b with
    | none => rw [endRun, hl]
    | some r => exact ((endRun_later_touches hl .aborted .held .safe).held not_false).trans ((settledRun_touches b .aborted .held .safe r s).held not_false)
  · generalize (liveClean s b).any (fun c => decide (c.state ≠ .requested)) = safe
    cases hl : liveClean s b with
    | none => rw [endClean, hl]
    | some c =>
      exact ((endClean_later_touches hl .interrupted .nothing .held safe).held not_false).trans
        ((settledClean_touches b .interrupted .nothing .held safe s).held not_false)
  · split
    · next c hc =>
      split
      · next hp => exact endTransfer_hold (by rw [hp]; nofun) _ _
      · rfl
    · rfl

/-- R161, R162: a bay taken from its job is the technician's. -/
theorem technicianHas_forcedTake (h : s.mon.bays[b].hold ≠ .automation) : TechnicianHas b (forcedTake b s) := by
  have hheld : takeHold b (endJobHeld b s) = setHold b .technician false (endJobHeld b s) := if_neg (by rw [endJobHeld_hold]; exact h)
  have hhas := technicianHas_setHold b (endJobHeld b s)
  unfold forcedTake handOnIfEnded
  rw [hheld]
  generalize setHold b .technician false (endJobHeld b s) = u at hhas
  split
  · exact hhas.touched (handOn_touches .now b u) id
  · exact hhas

/-- What follows the end of a bay's job in a forced take. -/
theorem forcedTake_after (h : s.mon.bays[b].hold ≠ .automation) (hjob : s.reg[b].activity ≠ .nothing) (hfree : (endJobHeld b s).reg[b].activity = .nothing) :
    ∃ v, Touches (.holding b) (endJobHeld b s) v ∧ Touches (.cold b) v (forcedTake b s) :=
  (heldAfter hfree (by rw [endJobHeld_hold]; exact h) hjob (forcedTake b s) rfl).2.2

theorem takeMode_true (h : s.mon.bays[b].service ≠ some true) : takeMode b true s = (serviceTake b s).setMon b (fun m => { m with service := some true }) := by
  unfold takeMode
  dsimp only
  rw [if_pos rfl, if_neg h]

theorem takeMode_false (h : s.mon.bays[b].service = some true) : takeMode b false s = (serviceLeave b s).setMon b (fun m => { m with service := some false }) := by
  unfold takeMode
  dsimp only
  rw [if_neg nofun, if_pos h]

theorem serviceTake_forced (h1 : s.mon.bays[b].hold ≠ .automation) (h2 : applying s b = false) : serviceTake b s = forcedTake b s := by
  unfold serviceTake
  rw [if_neg h1, h2]
  exact if_neg nofun

end

/-! ## The parts of R150, R149, R154 and R162 -/

section

variable {s : State} {b : BayId} {k : EventKind}

/-- R150, R154: the latch as an event leaves it. -/
theorem latch_latch (h : s.mon.bays[b].latches[k.slot].set = false) (forced : Bool) : (latch b k forced s).mon.bays[b].latches[k.slot] =
    { newLatch b k forced s with owed := (settingOf s k).enabled && owes s b k } := by
  rw [latch_of_clear h]
  cases (settingOf s k).enabled with
  | false => exact setLatch_same b k _ s
  | true =>
    obtain ⟨owed, hlatch, howed⟩ := announce_latch b k (latched b k forced s)
    rw [latched, setLatch_same] at hlatch howed
    rw [if_pos rfl, latched, hlatch, howed rfl]
    rfl

theorem latch_announced (h : s.mon.bays[b].latches[k.slot].set = false) (he : (settingOf s k).enabled = true) (forced : Bool) :
    latch b k forced s = announce b k (latched b k forced s) := by
  rw [latch_of_clear h, he, if_pos rfl]

/-- R154: the rescan of a latch that owes a call. -/
theorem rescanLatch_owed (hx : s.mon.bays[b].latches[k.slot].set = true) (ho : s.mon.bays[b].latches[k.slot].owed = true)
    (hl : s.mon.calls.length < 32) (hc : callFor s b k = none) : rescanLatch b k s =
      if (settingOf s k).enabled && decide ((settingOf s k).route = .call) then arbiter (raiseCall b k (s.setLatch b k (fun y => { y with owed := false })))
      else s.setLatch b k (fun y => { y with owed := false }) := by
  have hdo : (decide (s.mon.calls.length < callRoom) && s.mon.bays[b].latches[k.slot].set && s.mon.bays[b].latches[k.slot].owed &&
      (callFor s b k).isNone) = true := by
    rw [hx, ho, hc, show decide (s.mon.calls.length < callRoom) = true from decide_eq_true hl]
    rfl
  exact if_pos hdo

theorem rescanLatch_none (h : s.mon.bays[b].latches[k.slot].set = false ∨ s.mon.bays[b].latches[k.slot].owed = false ∨ 32 ≤ s.mon.calls.length ∨
    callFor s b k ≠ none) : rescanLatch b k s = s := by
  refine if_neg fun hdo => ?_
  rw [Bool.and_eq_true, Bool.and_eq_true, Bool.and_eq_true, decide_eq_true_eq, Option.isNone_iff_eq_none] at hdo
  obtain ⟨⟨⟨hl, hx⟩, ho⟩, hc⟩ := hdo
  obtain h | h | h | h := h
  · rw [h] at hx
    cases hx
  · rw [h] at ho
    cases ho
  · exact absurd hl (not_lt.mpr h)
  · exact h hc

/-- R149: the code of a fault that stays, in the latch and in the open call. -/
theorem takeFault_stays {code : Nat} (h : code ≠ 0) (hc : condition s b .ovenFault = true) (hne : s.mon.bays[b].code ≠ code) (t : State)
    (ht : t = takeFault b code s) : t.mon.bays[b].code = code ∧ condition t b .ovenFault = true ∧
      t.mon.bays[b].latches[EventKind.ovenFault.slot].code = code ∧
      ∀ c, callFor s b .ovenFault = some c → callOf s c.id = some c → callOf t c.id = some { c with latestCode := some code } := by
  have hlatch := setLatch_same b .ovenFault (fun x => { x with code := code }) (coded b code s)
  have hbay : ((coded b code s).setLatch b .ovenFault (fun x => { x with code := code })).mon.bays[b] =
      { s.mon.bays[b] with code := code, latches := upd s.mon.bays[b].latches EventKind.ovenFault.slot (fun x => { x with code := code }) } := by
    refine (upd_same _ _ _).trans ?_
    rw [coded_bay]
  have hcond : condition ((coded b code s).setLatch b .ovenFault (fun x => { x with code := code })) b .ovenFault = true := by
    rw [condition, hbay]
    exact hc
  have hcalls : ((coded b code s).setLatch b .ovenFault (fun x => { x with code := code })).mon.calls = s.mon.calls := rfl
  rw [ht, takeFault_nonzero h, if_pos hc, if_neg hne]
  generalize (coded b code s).setLatch b .ovenFault (fun x => { x with code := code }) = u at hlatch hbay hcond hcalls
  have hcode : u.mon.bays[b].code = code := by rw [hbay]
  split
  · next c hfor =>
    refine ⟨hcode, hcond, congrArg Latch.code hlatch, fun d hd hof => ?_⟩
    obtain rfl := Option.some_inj.1 (hfor.symm.trans hd)
    exact callOf_setCall (fun _ => by rfl) (by rw [callOf, hcalls]; exact hof)
  · next hfor => exact ⟨hcode, hcond, congrArg Latch.code hlatch, fun d hd => by rw [hfor] at hd; cases hd⟩

theorem takeFault_same {code : Nat} (h : code ≠ 0) (hc : condition s b .ovenFault = true) (he : s.mon.bays[b].code = code) : takeFault b code s = s := by
  rw [takeFault_nonzero h, if_pos hc, if_pos he]

theorem takeFault_begins {code : Nat} (h : code ≠ 0) (hc : condition s b .ovenFault = false) :
    takeFault b code s = setCondition b .ovenFault true (coded b code s) := by
  rw [takeFault_nonzero h, if_neg (by rw [hc]; nofun)]

theorem takeFault_zero (b : BayId) (s : State) : takeFault b 0 s = setCondition b .ovenFault false s := if_pos rfl

/-- R149: the condition and the code of a fault code. -/
theorem takeFault_code (b : BayId) (code : Nat) (s : State) : condition (takeFault b code s) b .ovenFault = decide (code ≠ 0) ∧
    (code ≠ 0 → (takeFault b code s).mon.bays[b].code = code) := by
  by_cases h : code = 0
  · subst h
    rw [takeFault_zero, condition_setCondition, if_pos rfl]
    exact ⟨rfl, fun hne => absurd rfl hne⟩
  · rw [decide_eq_true h]
    cases hc : condition s b .ovenFault with
    | true =>
      by_cases he : s.mon.bays[b].code = code
      · rw [takeFault_same h hc he]
        exact ⟨hc, fun _ => he⟩
      · obtain ⟨hcode, hcond, -⟩ := takeFault_stays h hc he _ rfl
        exact ⟨hcond, fun _ => hcode⟩
    | false =>
      rw [takeFault_begins h hc]
      refine ⟨(condition_setCondition _ b .ovenFault .ovenFault true).trans (if_pos rfl), fun _ => ?_⟩
      rw [setCondition_code, coded_bay]

end

/-- Settles O51. -/
theorem latchesRaiseCallsAndLanesTakeThem : Obligations.LatchesRaiseCallsAndLanesTakeThem := by
  intro s b k
  dsimp only
  refine ⟨fun forced => ⟨fun hx => if_pos hx, fun hx => ⟨?_, fun he => ?_, fun he hr => ?_, fun he hr => ?_⟩⟩, fun v => ⟨fun h => if_pos h, ?_, ?_⟩,
    ⟨fun hx ho hl hc => ?_, rescanLatch_none⟩, fun code => ?_, ?_, ?_⟩
  · rw [latch_latch hx, owes]
    simp only [Bool.and_assoc]
    rfl
  · rw [latch_of_clear hx, he, if_neg nofun]
    exact ⟨rfl, rfl⟩
  · have htold := latched_told (tells_eventNotice b k "NONE" 0 (latched b k forced s))
    rw [latch_announced hx he, announce_notice (s := latched b k forced s) hr]
    exact ⟨by rw [eventNotice_mon]; rfl, htold⟩
  · rw [latch_announced hx he]
    refine ⟨fun c hc => ?_, fun hc hl => ?_, fun hc hl => ?_⟩
    · have htold := latched_told (tells_eventNotice b k "JOINED" c.id (latched b k forced s))
      rw [announce_joined (s := latched b k forced s) hr hc]
      exact ⟨by rw [eventNotice_mon]; rfl, htold⟩
    · have htold := latched_told (tells_arbiter_raised b k (latched b k forced s))
      rw [announce_raised (s := latched b k forced s) hr hc hl]
      exact ⟨htold, callOf_arbiter_raised (s := latched b k forced s) hl b k⟩
    · have htold := latched_told (tells_deferred b k (latched b k forced s))
      rw [announce_deferred (s := latched b k forced s) hr hc hl]
      exact ⟨by rw [eventNotice_mon]; rfl, htold⟩
  · rw [condition_setCondition, if_pos rfl]
  · rintro hc rfl
    exact setCondition_sets hc
  · rw [rescanLatch_owed hx ho hl hc]
    refine ⟨?_, fun he hr => ?_, fun hno => ?_⟩
    · split
      · exact (congrArg (fun v : Vector MonBay 12 => v[b].latches[k.slot]) (arbiter_dispatching _).bays).trans (setLatch_same b k _ s)
      · exact setLatch_same b k _ s
    · rw [he, hr, if_pos (by decide)]
      obtain ⟨c, hcall, hbay, hkind, hsev, -⟩ := callOf_raiseCall (s := s.setLatch b k (fun y => { y with owed := false })) hl b k
      obtain ⟨y, hy, rfl | ⟨-, l, n, rfl⟩⟩ := (arbiter_dispatching _).callOf hcall
      · exact ⟨_, hy, hbay, hkind, hsev⟩
      · exact ⟨_, hy, hbay, hkind, hsev⟩
    · rw [if_neg (by obtain h | h := hno <;> rw [h] <;> simp)]
      rfl
  · obtain ⟨hcond, hcode⟩ := takeFault_code b code s
    refine ⟨hcond, hcode, fun h hc hl => ?_, fun h hc hne => (takeFault_stays h hc hne _ rfl).2.2⟩
    rw [takeFault_begins h hc]
    exact fault_begins hc hl
  · exact ⟨Call.before_iff, bestCall_none, fun c hc => bestCall_best hc, freeLane_none, fun l hl => freeLane_lowest hl,
      fun l c hl hc hid => arbiterOnce_dispatches hl hc hid _ rfl, arbiterOnce_idle, arbiter_ends s⟩
  · have hset : ∀ (u : State) (f : MonBay → MonBay), (u.setMon b f).mon.bays[b] = f u.mon.bays[b] := fun u f => upd_same _ _ _
    refine ⟨fun service => ?_, fun hserv => ⟨fun hauto => ?_, fun hauto happly => ?_, fun hauto happly => ?_⟩, fun hserv => ⟨fun hhold => ?_, fun hhold => ?_⟩⟩
    · exact congrArg MonBay.service (hset _ _)
    · rw [takeMode_true hserv, hset, serviceTake, if_pos hauto]
    · rw [takeMode_true hserv, hset, serviceTake, if_neg hauto, if_pos happly, hset]
    · have hhas := technicianHas_forcedTake hauto
      have hafter := forcedTake_after hauto
      rw [takeMode_true hserv, serviceTake_forced hauto happly]
      generalize forcedTake b s = t at hhas hafter
      refine ⟨by rw [hset]; exact hhas.1, by rw [hset]; exact hhas.2, fun r hact hr hf => ?_, fun c hact hc hf => ?_, fun c hact hc hp => ?_⟩
      · obtain ⟨hfree, -, x, hx, hst, hreason⟩ := endJobHeld_of_cook hact (liveRun_of_live hr hf) _ rfl
        obtain ⟨v, hset', hhanded⟩ := hafter (by rw [hact]; nofun) hfree
        exact ⟨x, (hhanded.run b id).trans ((hset'.run b id).trans hx), hst, hreason⟩
      · obtain ⟨hfree, -, -, x, hx, hst, hreason⟩ := endJobHeld_of_clean hact (liveClean_of_live hc hf) _ rfl
        obtain ⟨v, hset', hhanded⟩ := hafter (by rw [hact]; nofun) hfree
        exact ⟨x, (hhanded.cleaning b id).trans ((hset'.cleaning b id).trans hx), hst, hreason⟩
      · have hend := endJobHeld_of_update hact hc hp
        obtain ⟨v, hset', hhanded⟩ := hafter (by rw [hact]; nofun) (by rw [hend]; exact endTransfer_free c b _ true s)
        obtain ⟨hentry, hcur⟩ := endTransfer_entry (p := .failed .held) rfl c b true .later s
        rw [← hend] at hentry hcur
        obtain ⟨hv, hpast⟩ := hset'.past c id b ⟨by rw [hentry]; rfl, hcur⟩
        exact ((hhanded.past c id b hpast).1.trans hv).trans hentry
    · have hheld : serviceLeave b s = setHold b .technician true (s.setMon b (fun m => { m with takeDeferred := false })) := if_pos hhold
      have hbay : (serviceLeave b s).mon.bays[b] = { s.mon.bays[b] with takeDeferred := false, hold := .technician, releasePending := true } := by
        rw [hheld, setHold_mon, hset, hset]
      rw [takeMode_false hserv, hset, hbay]
      refine ⟨by rw [← hhold], ?_⟩
      show (serviceLeave b s).store = _
      rw [hheld, setHold_technician]
      exact storePut_store_congr (s := s) (t := s.setMon b _) rfl rfl _
    · rw [takeMode_false hserv, hset, serviceLeave, if_neg hhold, hset]

end Sys2Proof.Machine


/-! PROOF. SET-EVENT, ACK-EVENT and FORCE-EVENT (O50). -/

namespace Sys2Proof.Machine

set_option Elab.async false

open Sys2Proof

/-! ## Announcements over several bays -/

/-- Calls have joined the queue for bays of `D`, at most `n` of them, and lanes may have taken some. -/
def Grown (D : BayId → Prop) (n : Nat) (s t : State) : Prop := ∃ (g : Call → Call) (extra : List Call), t.mon.calls = s.mon.calls.map g ++ extra ∧
  (∀ c, (g c).id = c.id ∧ (g c).bay = c.bay ∧ (g c).kind = c.kind) ∧ (∀ c ∈ extra, D c.bay) ∧ extra.length ≤ n

/-- From `s` to `t` latches of the bays of `D` have been announced. -/
structure Announced (D : BayId → Prop) (n : Nat) (s t : State) : Prop where
  later : Later s t
  settings : t.mon.settings = s.mon.settings
  store : t.store = s.store
  grown : Grown D n s t
  other : ∀ b : BayId, ¬ D b → t.mon.bays[b].latches = s.mon.bays[b].latches
  marks : ∀ (b : BayId) (j : Fin 16), ∃ owed, t.mon.bays[b].latches[j] = { s.mon.bays[b].latches[j] with owed := owed }

section

variable {D E : BayId → Prop} {m n : Nat} {s t u : State} {b : BayId} {k : EventKind}

theorem Grown.of_same (h : t.mon.calls = s.mon.calls) : Grown D n s t := ⟨fun c => c, [], by simp [h], fun _ => ⟨rfl, rfl, rfl⟩, nofun, Nat.zero_le _⟩

theorem Grown.of_dispatching (h : Dispatching s t) : Grown D n s t := by
  obtain ⟨g, hcalls, hg⟩ := h.calls
  exact ⟨g, [], by simp [hcalls], Dispatching.taken g hg, nofun, Nat.zero_le _⟩

theorem Grown.trans (h : Grown D m s t) (k : Grown D n t u) : Grown D (m + n) s u := by
  obtain ⟨g, extra, hcalls, hg, hbay, hlen⟩ := h
  obtain ⟨f, more, kcalls, hf, kbay, klen⟩ := k
  refine ⟨f ∘ g, extra.map f ++ more, by rw [kcalls, hcalls, List.map_append, List.map_map, List.append_assoc],
    fun c => ?_, fun c hc => ?_, by rw [List.length_append, List.length_map]; omega⟩
  · obtain ⟨hid, hb, hk⟩ := hf (g c)
    obtain ⟨gid, gb, gk⟩ := hg c
    exact ⟨hid.trans gid, hb.trans gb, hk.trans gk⟩
  · obtain hc | hc := List.mem_append.1 hc
    · obtain ⟨x, hx, rfl⟩ := List.mem_map.1 hc
      rw [(hf x).2.1]
      exact hbay x hx
    · exact kbay c hc

theorem Grown.mono (h : Grown D m s t) (hD : ∀ b, D b → E b) (hn : m ≤ n) : Grown E n s t := by
  obtain ⟨g, extra, hcalls, hg, hbay, hlen⟩ := h
  exact ⟨g, extra, hcalls, hg, fun c hc => hD _ (hbay c hc), hlen.trans hn⟩

theorem Grown.length (h : Grown D n s t) : s.mon.calls.length ≤ t.mon.calls.length ∧ t.mon.calls.length ≤ s.mon.calls.length + n := by
  obtain ⟨g, extra, hcalls, -, -, hlen⟩ := h
  rw [hcalls, List.length_append, List.length_map]
  omega

/-- The call of a bay whose latches are not announced. -/
theorem Grown.callFor (h : Grown D n s t) (hb : ¬ D b) (k : EventKind) : (callFor t b k).map Call.id = (callFor s b k).map Call.id := by
  obtain ⟨g, extra, hcalls, hg, hbay, -⟩ := h
  have hmore : extra.find? (fun c => decide (c.bay = b ∧ c.kind = k)) = none :=
    List.find?_eq_none.2 fun c hc hfound => hb ((of_decide_eq_true hfound).1 ▸ hbay c hc)
  unfold Machine.callFor
  rw [hcalls, List.find?_append, hmore, Option.or_none, List.find?_map, Option.map_map]
  have hpred : ((fun c : Call => decide (c.bay = b ∧ c.kind = k)) ∘ g) = fun c => decide (c.bay = b ∧ c.kind = k) := funext fun c => by
    rw [Function.comp_apply, (hg c).2.1, (hg c).2.2]
  rw [hpred, show Call.id ∘ g = Call.id from funext fun c => (hg c).1]

theorem Grown.mem (h : Grown D n s t) {c : Call} (hc : c ∈ s.mon.calls) : ∃ d ∈ t.mon.calls, d.id = c.id ∧ d.bay = c.bay ∧ d.kind = c.kind := by
  obtain ⟨g, extra, hcalls, hg, -, -⟩ := h
  exact ⟨g c, by rw [hcalls]; exact List.mem_append_left _ (List.mem_map_of_mem hc), hg c⟩

theorem Announced.refl (s : State) : Announced D n s s :=
  ⟨.refl s, rfl, rfl, .of_same rfl, fun _ _ => rfl, fun b j => ⟨s.mon.bays[b].latches[j].owed, rfl⟩⟩

theorem Announced.trans (h : Announced D m s t) (k : Announced D n t u) : Announced D (m + n) s u :=
  ⟨h.later.trans k.later, k.settings.trans h.settings, k.store.trans h.store, h.grown.trans k.grown, fun b hb => (k.other b hb).trans (h.other b hb),
    fun b j => by
      obtain ⟨x, hx⟩ := h.marks b j
      obtain ⟨y, hy⟩ := k.marks b j
      exact ⟨y, by rw [hy, hx]⟩⟩

theorem Announced.mono (h : Announced D m s t) (hD : ∀ b, D b → E b) (hn : m ≤ n) : Announced E n s t :=
  ⟨h.later, h.settings, h.store, h.grown.mono hD hn, fun b hb => h.other b fun hd => hb (hD b hd), h.marks⟩

theorem announce_grown (b : BayId) (k : EventKind) (s : State) : Grown (· = b) 1 s (announce b k s) := by
  cases hr : (settingOf s k).route with
  | notice => exact .of_same (by rw [announce_notice hr, eventNotice_mon])
  | call =>
    cases hc : callFor s b k with
    | some c => exact .of_same (by rw [announce_joined hr hc, eventNotice_mon])
    | none =>
      by_cases hl : s.mon.calls.length < 32
      · rw [announce_raised hr hc hl]
        have hraised : Grown (· = b) 1 s (raised b k s) := ⟨fun c => c, _, by rw [raised_mon]; exact congrArg (· ++ _) (List.map_id _).symm,
          fun _ => ⟨rfl, rfl, rfl⟩, fun c hc => by rw [List.mem_singleton.1 hc], le_rfl⟩
        exact hraised.trans (n := 0) (.of_dispatching (arbiter_dispatching _))
      · exact .of_same (by rw [announce_deferred hr hc (not_lt.mp hl), eventNotice_mon]; rfl)

theorem announce_announced (b : BayId) (k : EventKind) (s : State) : Announced (· = b) 1 s (announce b k s) := by
  have ht := (Touches.refl (m := .alarm b) s).announce (Parts.alarm_alarm b) k
  refine ⟨ht.later, ht.settings, ht.store id, announce_grown b k s, fun d hd => (ht.latch d hd).1, fun d j => ?_⟩
  by_cases hd : d = b
  · subst hd
    by_cases hj : j = k.slot
    · subst hj
      obtain ⟨owed, howed, -⟩ := announce_latch d k s
      exact ⟨owed, howed⟩
    · exact ⟨_, by rw [announce_kept hj s]⟩
  · exact ⟨_, by rw [(ht.latch d hd).1]⟩

/-- R153: a set latch of the kind is announced. -/
def announceSet (k : EventKind) (b : BayId) (s : State) : State := if s.mon.bays[b].latches[k.slot].set then announce b k s else s

theorem enabledNow_eq (k : EventKind) (s : State) : enabledNow k s = s.each allBays (announceSet k) := rfl

theorem announceSet_announced (k : EventKind) (b : BayId) (s : State) : Announced (· = b) 1 s (announceSet k b s) := by
  unfold announceSet
  split
  · exact announce_announced b k s
  · exact .refl s

theorem each_announced (k : EventKind) (l : List BayId) (s : State) : Announced (· ∈ l) l.length s (s.each l (announceSet k)) := by
  induction l generalizing s with
  | nil => exact .refl s
  | cons b l ih =>
    have hfirst := (announceSet_announced k b s).mono (E := (· ∈ b :: l)) (fun d hd => hd ▸ List.mem_cons_self) le_rfl
    have hrest := (ih (announceSet k b s)).mono (E := (· ∈ b :: l)) (fun d hd => List.mem_cons_of_mem b hd) le_rfl
    exact (hfirst.trans hrest).mono (fun _ h => h) (by rw [List.length_cons]; omega)

/-- The bays before a bay, and those after it. -/
theorem allBays_split (b : BayId) : allBays = allBays.take b.val ++ b :: allBays.drop (b.val + 1) ∧ (allBays.take b.val).length = b.val ∧
    b ∉ allBays.take b.val ∧ b ∉ allBays.drop (b.val + 1) := by
  revert b
  decide

/-- R153: the bay of a latch among the announcements of its kind. -/
theorem enabledNow_at (k : EventKind) (b : BayId) (s : State) : ∃ u, Announced (· ≠ b) b.val s u ∧
    Announced (· ≠ b) 12 (announceSet k b u) (enabledNow k s) := by
  obtain ⟨hsplit, hlen, hbefore, hafter⟩ := allBays_split b
  refine ⟨s.each (allBays.take b.val) (announceSet k), ?_, ?_⟩
  · exact (each_announced k _ s).mono (fun d hd e => hbefore (e ▸ hd)) hlen.le
  · have heach : enabledNow k s = (announceSet k b (s.each (allBays.take b.val) (announceSet k))).each (allBays.drop (b.val + 1)) (announceSet k) := by
      rw [enabledNow_eq]
      conv_lhs => rw [hsplit]
      rw [State.each, List.foldl_append]
      rfl
    rw [heach]
    refine (each_announced k _ _).mono (fun d hd e => hafter (e ▸ hd)) ?_
    rw [List.length_drop]
    exact Nat.sub_le _ _

end

/-! ## SET-EVENT (R148) -/

section

variable {s : State} {k : EventKind} {e : EventSetting}

/-- The state with the settings of a kind changed and handed over. -/
def withSetting (k : EventKind) (e : EventSetting) (s : State) : State :=
  storePut (.event k.slot e) { s with mon := { s.mon with settings := upd s.mon.settings k.slot (fun _ => e) } }

theorem withSetting_eq (k : EventKind) (e : EventSetting) (s : State) : withSetting k e s =
    { s with mon := { s.mon with settings := upd s.mon.settings k.slot (fun _ => e) }, store := (storePut (.event k.slot e) s).store } := by
  rw [withSetting, storePut_eq_withStore]
  exact congrArg (fun x : Store => { s with mon := { s.mon with settings := upd s.mon.settings k.slot (fun _ => e) }, store := x })
    (storePut_store_congr (s := s) (t := { s with mon := { s.mon with settings := upd s.mon.settings k.slot (fun _ => e) } }) rfl rfl _)

theorem settingOf_withSetting (k : EventKind) (e : EventSetting) (s : State) : settingOf (withSetting k e s) k = e := by
  rw [withSetting_eq]
  exact upd_same _ _ _

/-- R148: what a change of severity hands to the Allocator leaves the Monitor, the store and the notices. -/
theorem severityChanged_mon (k : EventKind) (s : State) :
    (severityChanged k s).mon = s.mon ∧ (severityChanged k s).store = s.store ∧ Later s (severityChanged k s) := by
  refine State.each_keeps (fun t => t.mon = s.mon ∧ t.store = s.store ∧ Later s t) _ _ (fun b t ⟨hmon, hstore, hlater⟩ => ?_) s ⟨rfl, rfl, .refl s⟩
  split
  · have ht := (Touches.refl (m := { heat := fun _ => True, line := fun _ => True }) t).examineStandby (b := b) trivial trivial
    exact ⟨(examineStandby_frame b t).1.trans hmon, (ht.store id).trans hstore, hlater.trans ht.later⟩
  · exact ⟨hmon, hstore, hlater⟩

/-- What SET-EVENT does once the settings are stored. -/
theorem setEvent_after (k : EventKind) (e : EventSetting) (s : State) (t : State) (ht : t = setEvent k e s) : ∃ u,
    u = (if e.enabled && !(settingOf s k).enabled then enabledNow k (withSetting k e s) else withSetting k e s) ∧
      t.mon = u.mon ∧ t.store = u.store ∧ Later u t := by
  refine ⟨_, rfl, ?_⟩
  have hgoes : t = if (settingOf s k).severity ≠ e.severity ∧ ((settingOf s k).severity = 3 ∨ e.severity = 3) then
      severityChanged k (if e.enabled && !(settingOf s k).enabled then enabledNow k (withSetting k e s) else withSetting k e s)
      else (if e.enabled && !(settingOf s k).enabled then enabledNow k (withSetting k e s) else withSetting k e s) := ht
  generalize (if e.enabled && !(settingOf s k).enabled then enabledNow k (withSetting k e s) else withSetting k e s) = u at hgoes
  rw [hgoes]
  split
  · exact severityChanged_mon k u
  · exact ⟨rfl, rfl, .refl u⟩

theorem enabledNow_announced (k : EventKind) (s : State) : Announced (fun _ => True) 12 s (enabledNow k s) :=
  (each_announced k allBays s).mono (fun _ _ => trivial) le_rfl

/-- R153: latches of a kind with the route NOTICE raise no call. -/
theorem enabledNow_calls (h : (settingOf s k).route = .notice) : (enabledNow k s).mon.calls = s.mon.calls := by
  have hkept : (s.each allBays (announceSet k)).mon.settings = s.mon.settings ∧ (s.each allBays (announceSet k)).mon.calls = s.mon.calls := by
    refine State.each_keeps (fun t => t.mon.settings = s.mon.settings ∧ t.mon.calls = s.mon.calls) _ _ (fun b t ⟨hset, hcalls⟩ => ?_) s ⟨rfl, rfl⟩
    refine ⟨(announceSet_announced k b t).settings.trans hset, ?_⟩
    unfold announceSet
    split
    · rw [announce_notice (by rw [settingOf, hset]; exact h), eventNotice_mon]
      exact hcalls
    · exact hcalls
  rw [enabledNow_eq]
  exact hkept.2

/-- R153: what enabling a kind does with a set latch of it. -/
theorem enabledNow_tells {b : BayId} (hx : s.mon.bays[b].latches[k.slot].set = true) (t : State) (ht : t = enabledNow k s) :
    let told (call : String) (id : Nat) : Prop :=
      Tells s t .event (eventFields b k (settingOf s k).severity s.mon.bays[b].latches[k.slot] call id)
    ((settingOf s k).route = .notice → told "NONE" 0) ∧
    ((settingOf s k).route = .call →
      (∀ c, callFor s b k = some c → told "JOINED" c.id) ∧
      (callFor s b k = none → s.mon.calls.length + b.val < 32 → ∃ id, told "RAISED" id ∧ ∃ c ∈ t.mon.calls, c.id = id ∧ c.bay = b ∧ c.kind = k) ∧
      (callFor s b k = none → 32 ≤ s.mon.calls.length → told "DEFERRED" 0 ∧ t.mon.bays[b].latches[k.slot].owed = true)) := by
  obtain ⟨u, hbefore, hafter⟩ := enabledNow_at k b s
  rw [← ht] at hafter
  have hlatch : u.mon.bays[b].latches[k.slot] = s.mon.bays[b].latches[k.slot] := by rw [hbefore.other b (fun h => h rfl)]
  have hsetting : settingOf u k = settingOf s k := by rw [settingOf, hbefore.settings, settingOf]
  have hcall := hbefore.grown.callFor (b := b) (fun h => h rfl) k
  have hlength := hbefore.grown.length
  have hset : announceSet k b u = announce b k u := if_pos (by rw [hlatch]; exact hx)
  rw [hset] at hafter
  have told : ∀ {call : String} {id : Nat}, Tells u (announce b k u) .event (eventFields b k (settingOf u k).severity u.mon.bays[b].latches[k.slot] call id) →
      Tells s t .event (eventFields b k (settingOf s k).severity s.mon.bays[b].latches[k.slot] call id) := fun h => by
    rw [hsetting, hlatch] at h
    exact (h.since hbefore.later).mono hafter.later
  rw [← hsetting]
  refine ⟨fun hr => ?_, fun hr => ⟨fun c hc => ?_, fun hc hl => ?_, fun hc hl => ?_⟩⟩
  · rw [hsetting]
    exact told (by rw [announce_notice hr]; exact tells_eventNotice b k "NONE" 0 u)
  · rw [hc, Option.map_some, Option.map_eq_some_iff] at hcall
    obtain ⟨d, hd, hid⟩ := hcall
    rw [hsetting, ← hid]
    exact told (by rw [announce_joined hr hd]; exact tells_eventNotice b k "JOINED" d.id u)
  · rw [hc, Option.map_none, Option.map_eq_none_iff] at hcall
    have hroom : u.mon.calls.length < 32 := by omega
    have hraised := announce_raised (b := b) hr hcall hroom
    obtain ⟨c, hof, hbay, hkind, -⟩ := callOf_arbiter_raised hroom b k
    obtain ⟨hmem, hid⟩ := callOf_eq_some hof
    rw [← hraised] at hmem
    obtain ⟨d, hd, hdid, hdbay, hdkind⟩ := hafter.grown.mem hmem
    refine ⟨raiseId u, ?_, d, hd, hdid.trans hid, hdbay.trans hbay, hdkind.trans hkind⟩
    rw [hsetting]
    exact told (by rw [hraised]; exact tells_arbiter_raised b k u)
  · rw [hc, Option.map_none, Option.map_eq_none_iff] at hcall
    have hdeferred := announce_deferred (b := b) hr hcall (by omega)
    refine ⟨?_, ?_⟩
    · rw [hsetting]
      exact told (by rw [hdeferred]; exact tells_deferred b k u)
    · rw [hafter.other b (fun h => h rfl), hdeferred, eventNotice_mon, setLatch_same]

theorem setEvent_served {w1 w2 w3 w4 : Txt} {sv : Nat} {rt : CallRoute} {en : Bool} (h1 : kindField w1 = some (some k)) (h2 : number w2 = some sv)
    (hlo : 1 ≤ sv) (hhi : sv ≤ 3) (h3 : wordField [CallRoute.notice, .call] CallRoute.word w3 = some (some rt)) (h4 : ynField w4 = some (some en)) :
    serveVerb .setEvent [w1, w2, w3, w4] s =
      okay .setEvent [wd k.word, .num sv, wd rt.word, .yn en] (setEvent k { severity := sv, route := rt, enabled := en } s) := by
  show serveSetEvent [w1, w2, w3, w4] s = _
  unfold serveSetEvent
  rw [withFields_of_parse (a := (some k, sv, some rt, some en)) (by simp [fld, fin, h1, h2, h3, h4])]
  exact if_pos ((within_iff _ _ _).2 ⟨hlo, hhi⟩)

end

/-! ## ACK-EVENT (R151) -/

section

variable {s : State} {b : BayId} {k : EventKind}

theorem clearLatch_latch (b : BayId) (k j : EventKind) (s : State) : (clearLatch b k s).mon.bays[b].latches[j.slot] =
    if j = k then { s.mon.bays[b].latches[j.slot] with set := false, owed := false } else s.mon.bays[b].latches[j.slot] := by
  have hmon := clearLatch_mon b k s
  rw [show (clearLatch b k s).mon.bays[b].latches[j.slot] = (s.setLatch b k (fun x => { x with set := false, owed := false })).mon.bays[b].latches[j.slot] from
    congrArg (fun m : Monitor => m.bays[b].latches[j.slot]) hmon, setLatch_latch]
  by_cases h : j = k
  · rw [if_pos h, if_pos ⟨rfl, congrArg _ h⟩]
  · rw [if_neg h, if_neg fun hj => h (EventKind.slot_injective hj.2)]

/-- What an acknowledgement leaves of the Monitor but for the latches of the bay. -/
structure Cleared (b : BayId) (s t : State) : Prop where
  conds : t.mon.bays[b].conds = s.mon.bays[b].conds
  other : ∀ d : BayId, d ≠ b → t.mon.bays[d] = s.mon.bays[d]
  calls : t.mon.calls = s.mon.calls

theorem clearLatch_cleared (b : BayId) (k : EventKind) (s : State) : Cleared b s (clearLatch b k s) := by
  have hmon := clearLatch_mon b k s
  refine ⟨?_, fun d hd => ?_, by rw [hmon]; rfl⟩
  · exact (congrArg (fun m : Monitor => m.bays[b].conds) hmon).trans (upd_view MonBay.conds s.mon.bays b b _ rfl)
  · exact (congrArg (fun m : Monitor => m.bays[d]) hmon).trans (upd_other _ _ _ _ hd)

theorem acknowledge_cleared (b : BayId) (k : EventKind) (s : State) : Cleared b s (acknowledge b k s) := by
  unfold acknowledge
  split
  · exact ⟨rfl, fun _ _ => rfl, rfl⟩
  · exact clearLatch_cleared b k s

theorem acknowledge_latch (b : BayId) (k j : EventKind) (s : State) : (acknowledge b k s).mon.bays[b].latches[j.slot] =
    if j = k ∧ latchPersists s b j = false then { s.mon.bays[b].latches[j.slot] with set := false, owed := false } else s.mon.bays[b].latches[j.slot] := by
  unfold acknowledge
  by_cases hj : j = k
  · subst hj
    by_cases hp : latchPersists s b j = true
    · rw [if_pos hp, if_neg (by rw [hp]; nofun)]
    · rw [if_neg hp, if_pos ⟨rfl, Bool.eq_false_of_not_eq_true hp⟩, clearLatch_latch, if_pos rfl]
  · rw [if_neg (c := j = k ∧ latchPersists s b j = false) fun h => hj h.1]
    split
    · rfl
    · rw [clearLatch_latch, if_neg hj]

theorem latchPersists_cleared {t : State} (hc : t.mon.bays[b].conds = s.mon.bays[b].conds)
    (hl : t.mon.bays[b].latches[k.slot].set = s.mon.bays[b].latches[k.slot].set) : latchPersists t b k = latchPersists s b k := by
  rw [latchPersists, latchPersists, condition, condition, hc, hl]

/-- R151: the acknowledgement of several latches. -/
theorem each_acknowledge (b : BayId) (l : List EventKind) (s : State) : Cleared b s (s.each l (acknowledge b)) ∧ ∀ j : EventKind,
    (s.each l (acknowledge b)).mon.bays[b].latches[j.slot] =
      if j ∈ l ∧ latchPersists s b j = false then { s.mon.bays[b].latches[j.slot] with set := false, owed := false } else s.mon.bays[b].latches[j.slot] := by
  induction l generalizing s with
  | nil => exact ⟨⟨rfl, fun _ _ => rfl, rfl⟩, fun j => (if_neg fun h => List.not_mem_nil h.1).symm⟩
  | cons k l ih =>
    obtain ⟨⟨hconds, hother, hcalls⟩, hlatch⟩ := ih (acknowledge b k s)
    obtain ⟨hc, ho, hq⟩ := acknowledge_cleared b k s
    refine ⟨⟨hconds.trans hc, fun d hd => (hother d hd).trans (ho d hd), hcalls.trans hq⟩, fun j => (hlatch j).trans ?_⟩
    have hone := acknowledge_latch b k j s
    by_cases hfirst : j = k ∧ latchPersists s b j = false
    · rw [if_pos hfirst] at hone
      rw [hone, if_pos (c := j ∈ k :: l ∧ _) ⟨by rw [hfirst.1]; exact List.mem_cons_self, hfirst.2⟩]
      split <;> rfl
    · rw [if_neg hfirst] at hone
      rw [hone, latchPersists_cleared hc (by rw [hone])]
      refine if_congr ?_ rfl rfl
      rw [List.mem_cons]
      tauto

theorem ackField_one {w : Txt} (h : kindField w = some (some k)) : ackField w = some (some (.one k)) := by
  rw [ackField, h]
  rfl

theorem ackEvent_served {w1 w2 : Txt} (hb : NamesBay w1 b) (hk : kindField w2 = some (some k)) : serveVerb .ackEvent [w1, w2] s =
    okay .ackEvent [bayTok b, wd k.word, wd (if latchPersists s b k then "PERSISTS" else "CLEARED")] (acknowledge b k s) :=
  (withFields_pair hb (ackField_one hk) s).trans (onBay_of_names rfl _ s)

theorem ackEvent_all_served {w : Txt} (hb : NamesBay w b) : serveVerb .ackEvent [w, "ALL".toList] s = okay .ackEvent
    (if (persisting s b).isEmpty then [bayTok b, wd "ALL", wd "CLEARED"] else [bayTok b, wd "ALL", wd "PERSISTS"] ++ (persisting s b).map (fun k => wd k.word))
    (s.each EventKind.all (acknowledge b)) :=
  (withFields_pair (b := some AckTarget.all) hb (by decide) s).trans (onBay_of_names rfl _ s)

theorem forceEvent_served {w1 w2 : Txt} (hb : NamesBay w1 b) (hk : kindField w2 = some (some k)) : serveVerb .forceEvent [w1, w2] s =
    okay .forceEvent [bayTok b, wd k.word, wd (if s.mon.bays[b].latches[k.slot].set then "ALREADY" else "SET")] (latch b k true s) :=
  (withFields_pair hb hk s).trans (onBay_of_names rfl _ s)

end

/-- Settles O50. -/
theorem eventSettingsAndLatches : Obligations.EventSettingsAndLatches := by
  refine fun s hs => ⟨fun w1 w2 w3 w4 k sv rt en h1 h2 hlo hhi h3 h4 => ?_, fun w1 w2 b k hb hk => ?_, fun w1 w2 b hb hall => ?_⟩
  · have hserved := setEvent_served (s := s) h1 h2 hlo hhi h3 h4
    obtain ⟨u, hu, hmon, hstore, hlater⟩ := setEvent_after k { severity := sv, route := rt, enabled := en } s _ rfl
    generalize setEvent k { severity := sv, route := rt, enabled := en } s = t at hserved hmon hstore hlater
    have hv := withSetting_eq k { severity := sv, route := rt, enabled := en } s
    have hsetting := settingOf_withSetting k { severity := sv, route := rt, enabled := en } s
    generalize withSetting k { severity := sv, route := rt, enabled := en } s = v at hu hv hsetting
    have hvmon : v.mon = { s.mon with settings := upd s.mon.settings k.slot (fun _ => { severity := sv, route := rt, enabled := en }) } := by rw [hv]
    have hvlater : Later s v := by
      rw [hv]
      exact ⟨rfl, rfl, List.prefix_rfl, id⟩
    have hannounced : Announced (fun _ => True) 12 v u := by
      rw [hu]
      split
      · exact enabledNow_announced k v
      · exact .refl v
    refine completes_of_answered (answered_of_served hs hserved) ⟨?_, ?_, rfl, fun b j => ?_, fun hno => ?_, fun hen hold b hx => ?_⟩
    · show t.mon.settings = _
      rw [hmon, hannounced.settings, hvmon]
      rfl
    · show t.store = _
      rw [hstore, hannounced.store, hv]
    · show (t.mon.bays[b].latches[j.slot]).set = _ ∧ (t.mon.bays[b].latches[j.slot]).time = _
      obtain ⟨owed, howed⟩ := hannounced.marks b j.slot
      rw [hmon, howed, hvmon]
      exact ⟨rfl, rfl⟩
    · show t.mon.calls = _ ∧ t.mon.bays = _
      rw [if_neg (by obtain h | h := hno <;> rw [h] <;> simp)] at hu
      rw [hmon, hu, hvmon]
      exact ⟨rfl, rfl⟩
    · rw [if_pos (by rw [hen, hold]; rfl)] at hu
      have hlatch : v.mon.bays[b].latches[k.slot] = s.mon.bays[b].latches[k.slot] := by rw [hvmon]
      have hfor : callFor v b k = callFor s b k := by rw [callFor, callFor, hvmon]
      have hlength : v.mon.calls.length = s.mon.calls.length := by rw [hvmon]
      obtain ⟨hnotice, hcall⟩ := enabledNow_tells (s := v) (k := k) (b := b) (by rw [hlatch]; exact hx) u hu
      have hcalls := enabledNow_calls (s := v) (k := k)
      rw [← hu] at hcalls
      rw [hsetting, hlatch] at hnotice hcall
      rw [hfor, hlength] at hcall
      rw [hsetting] at hcalls
      have told : ∀ {call : String} {id : Nat}, Tells v u .event (eventFields b k sv s.mon.bays[b].latches[k.slot] call id) →
          Tells s (replying _ t) .event (eventFields b k sv s.mon.bays[b].latches[k.slot] call id) := fun h =>
        ((h.since hvlater).mono hlater).mono (later_replying (.ok .setEvent [wd k.word, .num sv, wd rt.word, .yn en]) t)
      refine ⟨fun hr => ⟨told (hnotice hr), ?_⟩, fun hr => ?_⟩
      · show t.mon.calls = _
        rw [hmon, hcalls hr, hvmon]
      · obtain ⟨hjoined, hraised, hdeferred⟩ := hcall hr
        refine ⟨fun c hc => told (hjoined c hc), fun hc hl => ?_, fun hc hl => ?_⟩
        · obtain ⟨id, htold, c, hmem, hrest⟩ := hraised hc hl
          exact ⟨id, told htold, c, by show c ∈ t.mon.calls; rw [hmon]; exact hmem, hrest⟩
        · obtain ⟨htold, howed⟩ := hdeferred hc hl
          exact ⟨told htold, by show t.mon.bays[b].latches[k.slot].owed = true; rw [hmon]; exact howed⟩
  · have hack := ackEvent_served (s := s) hb hk
    have hforce := forceEvent_served (s := s) hb hk
    have hpersists := latchPersists_iff s b k
    refine ⟨fun hno => ?_, fun hyes => ?_, fun hx => ?_, fun hx => ?_⟩
    · have hclear : latchPersists s b k = false := Bool.eq_false_of_not_eq_true fun h => hno (hpersists.1 h)
      have hlatch := acknowledge_latch b k k s
      obtain ⟨-, hother, -⟩ := acknowledge_cleared b k s
      rw [if_pos ⟨rfl, hclear⟩] at hlatch
      rw [hclear] at hack
      exact completes_of_answered (answered_of_served hs hack) ⟨hlatch, hother, rfl⟩
    · rw [hpersists.2 hyes, acknowledge, if_pos (hpersists.2 hyes)] at hack
      exact answered_of_served hs hack
    · rw [hx, latch, if_pos hx] at hforce
      exact answered_of_served hs hforce
    · rw [hx] at hforce
      have hlatch := latch_latch hx true
      have honly := latch_monitorOnly b k true s
      have hconds := ((Touches.refl (m := .alarm b) s).raise (Parts.alarm_alarm b) k true).cond b id
      generalize latch b k true s = t at hforce hlatch honly hconds
      refine completes_of_answered (answered_of_served hs hforce) ⟨congrArg Latch.set hlatch, congrArg Latch.forced hlatch, congrArg Latch.time hlatch,
        hconds, ?_, ?_, rfl⟩ <;> rw [honly] <;> rfl
  · rw [hall]
    have hserved := ackEvent_all_served (s := s) hb
    obtain ⟨⟨-, hother, hcalls⟩, hlatch⟩ := each_acknowledge b EventKind.all s
    generalize s.each EventKind.all (acknowledge b) = t at hserved hother hcalls hlatch
    refine completes_of_answered (answered_of_served hs hserved) ⟨fun k => (hlatch k).trans ?_, hother, hcalls, ?_⟩
    · have hmem : k ∈ EventKind.all := by cases k <;> decide
      show _ = if latchPersists s b k = true then _ else _
      cases hp : latchPersists s b k with
      | true => rw [if_neg (by rintro ⟨-, h⟩; cases h), if_pos rfl]
      | false => rw [if_pos ⟨hmem, rfl⟩, if_neg nofun]
    · show some _ = some (Reply.ok .ackEvent (if EventKind.all.any (latchPersists s b) then
        [bayTok b, wd "ALL", wd "PERSISTS"] ++ (persisting s b).map (fun k => wd k.word) else [bayTok b, wd "ALL", wd "CLEARED"]))
      have hany : (persisting s b).isEmpty = !EventKind.all.any (latchPersists s b) := by
        rw [Bool.eq_iff_iff, List.isEmpty_iff, persisting, List.filter_eq_nil_iff]
        simp
      rw [hany]
      cases EventKind.all.any (latchPersists s b) <;> rfl

end Sys2Proof.Machine


/-! The loading of a recipe from the host (R54-R56). -/

namespace Sys2Proof.Machine
set_option Elab.async false

open Sys2Proof

/-- R55, R56: an open load is given up, and the slots it reserved are free again. -/
def State.loadClosed (l : Load) (s : State) : State :=
  { s with lib := { s.lib with load := none, free := s.lib.free + l.count, reserved := s.lib.reserved - l.count } }

theorem abandonLoad_of_some {s : State} {l : Load} (h : s.lib.load = some l) : abandonLoad s = s.loadClosed l := by
  rw [abandonLoad, h]
  rfl

theorem loadExpires_of_reached {s : State} {l : Load} (h : s.lib.load = some l) (hd : l.deadline ≤ s.now / 1000) :
    loadExpires s = s.loadClosed l := by
  have hdue : reached (s.lib.load.map Load.deadline) s.sec = true := by
    rw [h]
    exact reached_some hd
  rw [loadExpires, if_pos hdue, abandonLoad_of_some h]

theorem recipeBegin_served {s : State} {f : List Txt} {n k : Nat} {r : Revision} (hp : parseRecipeBegin f = some (n, some r, k))
    (hok : headerOk n r.revision r.name r.soilClass r.minFirmware k = true) (hc : beginCheck s.lib n r.revision k = none) :
    serveRecipeBegin f s = (openLoad n k r s, .ok .recipeBegin [.num n, wd "NEXT", .num 1]) := by
  rw [serveRecipeBegin, withFields_of_parse hp]
  simp only [hok, hc, if_true]
  rfl

theorem recipeStep_without_load {s : State} {f : List Txt} {k : Nat} {st : Option Step} (hp : parseRecipeStep f = some (k, st))
    (h : s.lib.load = none) : serveRecipeStep f s = (s, .no (.verb .recipeStep) .sequence []) := by
  rw [serveRecipeStep, withFields_of_parse hp]
  simp only [h]
  rfl

section
variable {s : State} {l : Load} (h : s.lib.load = some l)
include h

theorem recipeCancel_served : serveRecipeCancel [] s = (s.loadClosed l, .ok .recipeCancel [.num l.number]) := by
  rw [serveRecipeCancel, withFields_of_parse (fin_nil ())]
  simp only [h, abandonLoad_of_some h]
  rfl

theorem recipeStep_out_of_order {f : List Txt} {k : Nat} {st : Option Step} (hp : parseRecipeStep f = some (k, st)) (hk : k ≠ l.next) :
    serveRecipeStep f s = (s.loadClosed l, .no (.verb .recipeStep) .sequence []) := by
  rw [serveRecipeStep, withFields_of_parse hp]
  simp only [h, if_pos hk, abandonLoad_of_some h]
  rfl

theorem recipeStep_out_of_range {f : List Txt} {st : Option Step} (hp : parseRecipeStep f = some (l.next, st))
    (hst : ∀ x, st = some x → stepOk l.head.probe x = false) :
    serveRecipeStep f s = (s, .no (.verb .recipeStep) .range []) := by
  rw [serveRecipeStep, withFields_of_parse hp]
  simp only [h, ne_eq, not_true_eq_false, if_false]
  cases st with
  | none => rfl
  | some x =>
    simp only [hst x rfl, Bool.false_eq_true, if_false]
    rfl

theorem recipeStep_in_range {f : List Txt} {st : Step} (hp : parseRecipeStep f = some (l.next, some st)) (hst : stepOk l.head.probe st = true) :
    serveRecipeStep f s = takeStep l st s := by
  rw [serveRecipeStep, withFields_of_parse hp]
  simp only [h, ne_eq, not_true_eq_false, if_false, hst, if_true]

end

/-- Settles O28: each request in its owner's hands, and the deadline. -/
theorem recipeLoadsReserveTheirSlots : Obligations.RecipeLoadsReserveTheirSlots := by
  refine fun s hs => ⟨fun f n k r hp hok hc => answered_of_served hs (recipeBegin_served hp hok hc),
    fun h f k st hp => answered_of_served hs (recipeStep_without_load hp h), fun l h => ⟨?_, ?_, ?_, ?_, ?_⟩⟩
  · exact answered_of_served hs (recipeCancel_served h)
  · intro hd
    refine completes_whileOn (by rw [hs.running]; decide) rfl ?_
    rw [loadExpires_of_reached h hd]
    exact pump_sameButSending _
  · exact fun f k st hp hk => answered_of_served hs (recipeStep_out_of_order h hp hk)
  · exact fun f st hp hst => answered_of_served hs (recipeStep_out_of_range h hp hst)
  · intro f st hp hst hlt
    refine answered_of_served hs ((recipeStep_in_range h hp hst).trans ?_)
    rw [takeStep, if_pos hlt]
    rfl

end Sys2Proof.Machine


/-! The poll cycle (R24-R27). -/

namespace Sys2Proof.Machine
set_option Elab.async false

open Sys2Proof

theorem deliveryReport_dist (b : BayId) (o : Order) (s : State) : deliveryReport b o s = { s with dist := (deliveryReport b o s).dist } := by
  unfold deliveryReport
  split
  · split
    · rfl
    · unfold deliverBlock
      split <;> rfl
  · rfl

/-- R27: the first carrying of an order is told to the Distributor alone. -/
theorem deliveries_dist (b : BayId) (l : List Order) (s : State) :
    s.each l (deliveryReport b) = { s with dist := (s.each l (deliveryReport b)).dist } :=
  State.each_keeps (fun t => t = { s with dist := t.dist }) l (deliveryReport b)
    (fun o t ht => by
      have h := deliveryReport_dist b o t
      rw [ht] at h ⊢
      exact h) s rfl

/-- R27: a poll of bay `b` with its answer awaited. -/
def pollOf (s : State) (b : BayId) : Exchange :=
  { bay := b, carried := s.line.bays[b].queue.take 2, wasLost := decide (s.reg[b].state = .lost), limit := answerEnds s b, answer := .awaited }

/-- R27: the orders that a poll carries have been delivered. -/
def carriedQueue (l : List Order) : List Order := (l.take 2).map (fun o => { o with delivered := true }) ++ l.drop 2

theorem carriedQueue_ids (l : List Order) : (carriedQueue l).map Order.id = l.map Order.id := by
  calc (carriedQueue l).map Order.id
      = (l.take 2).map Order.id ++ (l.drop 2).map Order.id := by simp [carriedQueue, Function.comp_def]
    _ = l.map Order.id := by rw [← List.map_append, List.take_append_drop]

theorem carriedQueue_delivered (l : List Order) : ∀ o ∈ (carriedQueue l).take 2, o.delivered = true := by
  have hhead : (carriedQueue l).take 2 = (l.take 2).map (fun o => { o with delivered := true }) := by
    match l with
    | [] => rfl
    | [_] => rfl
    | _ :: _ :: _ => rfl
  rw [hhead]
  intro o ho
  obtain ⟨x, _, rfl⟩ := List.mem_map.1 ho
  rfl

/-- R27: bay `b` as a poll leaves it. -/
def LineBay.polled (now : Nat) (l : LineBay) : LineBay := { l with queue := carriedQueue l.queue, lostFrom := now, lostDue := false }

/-- R27: a poll of bay `b` is sent, its deliveries not yet told. -/
def polled (b : BayId) (s : State) : State :=
  { s with line := { s.line with exchange := some (pollOf s b), bays := upd s.line.bays b (fun l => l.polled s.now) } }

theorem sendPoll_eq (b : BayId) (s : State) : sendPoll b s = { polled b s with dist := (sendPoll b s).dist } :=
  deliveries_dist b (s.line.bays[b].queue.take 2) (polled b s)

theorem polled_queue (b : BayId) (s : State) : (polled b s).line.bays[b].queue = carriedQueue s.line.bays[b].queue :=
  congrArg LineBay.queue (upd_same s.line.bays b (fun l => l.polled s.now))

theorem sendNext_regular {s : State} {b : BayId} (hw : windowIsOpen s = false) (h : nextPoll s = some b) :
    sendNext s = sendPoll b { s with line.cursor := b.val + 1 } := by
  rw [sendNext, if_neg (by simp [hw]), h]

theorem sendNext_extra {s : State} {b : BayId} (hw : windowIsOpen s = false) (h : nextPoll s = none) (ho : s.line.extraOver = false)
    (hb : (extraOrder s.line.extraAfter).find? (extraEligible s) = some b) (hfit : answerEnds s b < s.line.boundary * 1000) :
    sendNext s = sendPoll b { s with line.cursor := 12, line.extraAfter := some b } := by
  have hfits : extraFits { s with line.cursor := 12 } b = true := decide_eq_true hfit
  have hfind : (extraOrder s.line.extraAfter).find? (extraEligible { s with line.cursor := 12 }) = some b := hb
  rw [sendNext, if_neg (by simp [hw]), h]
  show sendExtra { s with line.cursor := 12 } = _
  rw [sendExtra, if_neg (by simp [ho])]
  simp only [hfind]
  exact if_pos hfits

/-- R24: the bay that a cycle begins with, by its place; 12 where none is due. -/
def firstDue (s : State) : Nat :=
  match allBays.find? (pollDue s) with
  | some b => b.val
  | none => 12

theorem startCycle_of_due {s : State} (hb : s.line.boundary ≤ s.now) (hc : s.line.cursor = 12) (hw : windowIsOpen s = false) :
    startCycle s = { s with line := { s.line with boundary := s.now + 1000, extraOver := false, cursor := firstDue s } } := by
  have hnext : nextPoll { s with line.cursor := 0, line.boundary := s.now + 1000, line.extraOver := false } = allBays.find? (pollDue s) := by
    refine congrArg (fun p => List.find? p allBays) (funext fun b => ?_)
    show (decide (0 ≤ b.val) && pollDue s b) = pollDue s b
    simp
  rw [startCycle, if_pos ⟨hb, hc, hw⟩, skipBays, hnext]
  rfl

/-- Settles O24: each part from the step that sends its poll. -/
theorem pollsAreSentInTheCycle : Obligations.PollsAreSentInTheCycle := by
  refine fun s hon => ⟨fun hb hc hw => ?_, fun b hw h => ?_, fun b hw h ho hb hfit => ?_, fun b hl hd => ?_⟩
  · refine completes_event hon rfl fun tx sent => ?_
    rw [startCycle_of_due hb hc hw]
    exact ⟨rfl, rfl, rfl, rfl⟩
  · refine completes_event hon rfl fun tx sent => ?_
    rw [sendNext_regular hw h, sendPoll_eq]
    have hq := polled_queue b { s with line.cursor := b.val + 1 }
    refine ⟨rfl, rfl, ?_, ?_, rfl⟩
    · exact (congrArg (List.map Order.id) hq).trans (carriedQueue_ids _)
    · exact hq.symm ▸ carriedQueue_delivered s.line.bays[b].queue
  · refine completes_event hon rfl fun tx sent => ?_
    rw [sendNext_extra hw h ho hb hfit, sendPoll_eq]
    exact ⟨rfl, rfl⟩
  · refine completes_event hon rfl fun tx sent => ?_
    rw [lostPoll, if_pos ⟨hl, hd⟩]
    exact ⟨upd_same .., rfl⟩

end Sys2Proof.Machine


/-! The order queues (R35-R39). -/

namespace Sys2Proof.Machine
set_option Elab.async false

open Sys2Proof

/-! ## What placing an order does to a queue -/

/-- R35, R36: a queue after an order with this body has been offered to it: it stands as it was, has the order at its tail, or has it in the place
of those of its coalescing kind. -/
inductive Placing (body : OrderBody) (l : List Order) : List Order → Prop
  | same : Placing body l l
  | joins (o : Order) (hbody : o.body = body) (hnew : o.delivered = false) : Placing body l (l ++ [o])
  | replaces (o : Order) (hbody : o.body = body) (hnew : o.delivered = false) (hc : body.kind.coalesces = true) :
    Placing body l (l.map (fun x => if x.body.is body.kind then o else x))

theorem placeOrder_placing (b : BayId) (body : OrderBody) (note : Note) (s : State) :
    Placing body s.line.bays[b].queue (placeOrder b body note s).line.bays[b].queue := by
  by_cases ht : takesOrders s b = true
  · by_cases hc : (body.kind.coalesces && s.line.bays[b].queue.any (fun x => x.body.is body.kind)) = true
    · rw [placeOrder_replaces ht hc, applyNote_queue, State.setLine_line, upd_same]
      exact .replaces (nextOrder s b body) rfl rfl (Bool.and_eq_true_iff.1 hc).1
    · by_cases hq : s.line.bays[b].queue.length < 6
      · rw [placeOrder_joins_queue ht hc hq]
        exact .joins (nextOrder s b body) rfl rfl
      · rw [placeOrder_held ht hc (not_lt.1 hq), State.setLine_line, upd_same]
        exact .same
  · rw [placeOrder_of_not_taken (Bool.not_eq_true _ ▸ ht)]
    exact .same

namespace Placing
variable {body : OrderBody} {l l' : List Order}

theorem length_le (h : Placing body l l') : l'.length ≤ l.length + 1 := by
  cases h <;> simp

theorem mem (h : Placing body l l') {x : Order} (hx : x ∈ l') : x ∈ l ∨ x.body = body := by
  cases h with
  | same => exact .inl hx
  | joins o hbody hnew =>
    rcases List.mem_append.1 hx with hx | hx
    · exact .inl hx
    · exact .inr (List.mem_singleton.1 hx ▸ hbody)
  | replaces o hbody hnew hc =>
    obtain ⟨y, hy, rfl⟩ := List.mem_map.1 hx
    split
    · exact .inr hbody
    · exact .inl hy

/-- An order whose kind is not replaced stays in the queue. -/
theorem keeps (h : Placing body l l') {x : Order} (hx : x ∈ l) (hk : body.kind.coalesces = true → x.body.kind ≠ body.kind) : x ∈ l' := by
  cases h with
  | same => exact hx
  | joins o hbody hnew => exact List.mem_append_left _ hx
  | replaces o hbody hnew hc => exact List.mem_map.2 ⟨x, hx, if_neg (by simpa [OrderBody.is] using hk hc)⟩

/-- A body stays in the queue where what replaces its kind has the same body. -/
theorem holds (h : Placing body l l') {a : OrderBody} (ha : ∃ x ∈ l, x.body = a) (hk : body.kind.coalesces = true → a.kind = body.kind → body = a) :
    ∃ x ∈ l', x.body = a := by
  obtain ⟨x, hx, rfl⟩ := ha
  cases h with
  | same => exact ⟨x, hx, rfl⟩
  | joins o hbody hnew => exact ⟨x, List.mem_append_left _ hx, rfl⟩
  | replaces o hbody hnew hc =>
    refine ⟨_, List.mem_map.2 ⟨x, hx, rfl⟩, ?_⟩
    split
    next his => exact hbody.trans (hk hc (of_decide_eq_true his))
    next => rfl

end Placing

/-- R37: a queue with this SAFE at its head, and behind it orders that no poll has carried. -/
def SafeFirst (safe : Order) (l : List Order) : Prop := ∃ rest, l = safe :: rest ∧ ∀ x ∈ rest, x.delivered = false

theorem SafeFirst.placing {safe : Order} (hs : safe.body = .safe) {body : OrderBody} {l l' : List Order} (h : SafeFirst safe l) (hp : Placing body l l') :
    SafeFirst safe l' := by
  obtain ⟨rest, rfl, hrest⟩ := h
  cases hp with
  | same => exact ⟨rest, rfl, hrest⟩
  | joins o hbody hnew =>
    refine ⟨rest ++ [o], rfl, fun x hx => ?_⟩
    rcases List.mem_append.1 hx with hx | hx
    · exact hrest x hx
    · exact List.mem_singleton.1 hx ▸ hnew
  | replaces o hbody hnew hc =>
    have hkeep : ¬ safe.body.is body.kind = true := by
      rw [hs, OrderBody.is, decide_eq_true_eq]
      intro hk
      rw [← hk] at hc
      exact absurd hc (by decide)
    refine ⟨_, by rw [List.map_cons, if_neg hkeep], fun x hx => ?_⟩
    obtain ⟨y, hy, rfl⟩ := List.mem_map.1 hx
    split
    · exact hnew
    · exact hrest y hy

/-! ## Held orders -/

theorem holdOrder_mem (h : HeldOrder) (held : List HeldOrder) : h ∈ holdOrder h held := by
  unfold holdOrder
  dsimp only
  split
  next hany =>
    obtain ⟨x, hx, hsame⟩ := List.any_eq_true.1 hany
    exact List.mem_map.2 ⟨x, hx, if_pos hsame⟩
  next => simp

/-- What placing keeps of a queue, the offer of the held orders keeps. -/
theorem offered_keeps {b : BayId} (P : List Order → Prop) (held : List HeldOrder)
    (hP : ∀ h ∈ held, ∀ l l', P l → Placing h.body l l' → P l') {s : State} (hs : P s.line.bays[b].queue) :
    P (s.each held (fun h t => placeOrder b h.body h.note t)).line.bays[b].queue := by
  induction held generalizing s with
  | nil => exact hs
  | cons h held ih =>
    exact ih (fun g hg => hP g (List.mem_cons_of_mem h hg)) (hP h List.mem_cons_self _ _ hs (placeOrder_placing b h.body h.note s))

theorem offerHeld_keeps_queue {b : BayId} {s : State} (P : List Order → Prop)
    (hP : ∀ h ∈ s.line.bays[b].held, ∀ l l', P l → Placing h.body l l' → P l') (hs : P s.line.bays[b].queue) : P (offerHeld b s).line.bays[b].queue :=
  offered_keeps P _ hP (by rw [State.setLine_line, upd_same]; exact hs)

/-- R35: a held order that no other replaces is placed where the queue has room. -/
theorem offerHeld_places {b : BayId} {s : State} {h : HeldOrder} {rest : List HeldOrder} (ht : takesOrders s b = true) (hh : s.line.bays[b].held = h :: rest)
    (hc : h.body.kind.coalesces = false) (hq : s.line.bays[b].queue.length < 6) : nextOrder s b h.body ∈ (offerHeld b s).line.bays[b].queue := by
  have hcleared : (s.setLine b (fun l => { l with held := [] })).line.bays[b] = { s.line.bays[b] with held := [] } := upd_same ..
  rw [offerHeld, hh, State.each_cons]
  refine offered_keeps (fun l => nextOrder s b h.body ∈ l) rest (fun g _ l l' hx hp => hp.keeps hx fun hg hk => ?_) ?_
  · exact absurd (hc.symm.trans ((congrArg OrderKind.coalesces hk).trans hg)) (by decide)
  · have hroom : (s.setLine b (fun l => { l with held := [] })).line.bays[b].queue.length < 6 := by rw [hcleared]; exact hq
    rw [placeOrder_queue_of_plain (s := s.setLine b (fun l => { l with held := [] })) ht hc hroom, nextOrder, hcleared]
    simp [nextOrder]

/-- What placing a BLOCK keeps of a queue, the block flow keeps. -/
theorem flowBlocks_keeps_queue {b : BayId} (P : List Order → Prop) (hP : ∀ o d l l', P l → Placing (.block o d) l l' → P l') {s : State}
    (hs : P s.line.bays[b].queue) : P (flowBlocks b s).line.bays[b].queue := by
  have hplaced : ∀ (c : Fin 4) (n : Nat) (t : State), P t.line.bays[b].queue → P (placeBlocksUpTo c b n t).line.bays[b].queue := by
    intro c n
    induction n with
    | zero => exact fun t ht => ht
    | succ n ih =>
      intro t ht
      rw [placeBlocksUpTo]
      split
      · exact ih _ (hP _ _ _ _ ht (placeOrder_placing b _ .plain (t.setChannel c _)))
      · exact ht
  unfold flowBlocks
  split
  · exact hplaced _ _ s hs
  · exact hs

/-! ## The reports of a SAFE -/

/-- R38: what the report of a discarded order can do: nothing of the bay's line, or the placing of an order, a HEAT-ALLOW with the allowance as it
stands. -/
inductive Reported (b : BayId) (s : State) : State → Prop
  | unplaced (t : State) (hline : t.line = s.line) (hreg : t.reg = s.reg) (hheat : t.heat = s.heat) : Reported b s t
  | placed (body : OrderBody) (note : Note) (hk : body.kind = .heatAllow → body = .heatAllow s.heat.bays[b].allowance) :
    Reported b s (placeOrder b body note s)

theorem Reported.where_wanted (p : Prop) [Decidable p] {b : BayId} {s : State} (body : OrderBody) (note : Note)
    (hk : body.kind = .heatAllow → body = .heatAllow s.heat.bays[b].allowance) : Reported b s (if p then placeOrder b body note s else s) := by
  split
  · exact .placed body note hk
  · exact .unplaced s rfl rfl rfl

theorem discardReport_reported (b : BayId) (o : Order) (s : State) : Reported b s (discardReport b o s) := by
  obtain ⟨id, body, delivered⟩ := o
  cases body with
  | identify => exact .where_wanted _ .identify .plain nofun
  | safe => exact .unplaced s rfl rfl rfl
  | step => exact .where_wanted _ _ .step nofun
  | setpoint =>
    unfold discardReport
    dsimp only
    split
    · exact .where_wanted _ _ .plain nofun
    · exact .unplaced s rfl rfl rfl
  | heatAllow => exact .placed _ .plain fun _ => rfl
  | power => exact .where_wanted _ _ .plain nofun
  | cleanPhase => exact .where_wanted _ _ .cleanPhase nofun
  | block offset =>
    show Reported b s (discardBlock b offset s)
    unfold discardBlock
    split
    · exact .unplaced s rfl rfl rfl
    · split <;> exact .unplaced _ rfl rfl rfl
  | applyOffer => exact .where_wanted _ _ .plain nofun
  | applyGo => exact .where_wanted _ _ .applyGo nofun
  | discardImage =>
    unfold discardReport
    dsimp only
    split
    · exact .where_wanted _ _ (.discard _) nofun
    · exact .unplaced s rfl rfl rfl
  | panelDeny => exact .unplaced s rfl rfl rfl

/-- What the reports of a SAFE leave a queue with. -/
theorem Reported.keeps_queue {b : BayId} {s t : State} (h : Reported b s t) (P : List Order → Prop) (hs : P s.line.bays[b].queue)
    (hP : ∀ body l l', (body.kind = .heatAllow → body = .heatAllow s.heat.bays[b].allowance) → P l → Placing body l l' → P l') :
    P t.line.bays[b].queue := by
  cases h with
  | unplaced t hline hreg hheat => exact hline ▸ hs
  | placed body note hk => exact hP body _ _ hk hs (placeOrder_placing b body note s)

theorem Reported.same_reg {b : BayId} {s t : State} (h : Reported b s t) : t.reg = s.reg := by
  cases h with
  | unplaced t hline hreg hheat => exact hreg
  | placed body note hk => exact (placeOrder_frame b body note s).2.2.2.2.1

theorem Reported.same_heat {b : BayId} {s t : State} (h : Reported b s t) : t.heat = s.heat := by
  cases h with
  | unplaced t hline hreg hheat => exact hheat
  | placed body note hk => exact placeOrder_heat b body note s

/-- A queue that takes `n` more orders, with none held. -/
structure Roomy (b : BayId) (n : Nat) (s : State) : Prop where
  room : s.line.bays[b].queue.length + n ≤ 6
  held : s.line.bays[b].held = []

theorem placeOrder_held_of_room {b : BayId} {s : State} (hq : s.line.bays[b].queue.length < 6) (body : OrderBody) (note : Note) :
    (placeOrder b body note s).line.bays[b].held = s.line.bays[b].held := by
  by_cases ht : takesOrders s b = true
  · by_cases hc : (body.kind.coalesces && s.line.bays[b].queue.any (fun x => x.body.is body.kind)) = true
    · rw [placeOrder_replaces ht hc, applyNote_held, State.setLine_line, upd_same]
    · rw [placeOrder_joins ht hc hq, applyNote_held, State.setLine_line, upd_same]
  · rw [placeOrder_of_not_taken (Bool.not_eq_true _ ▸ ht)]

theorem Roomy.reported {b : BayId} {n : Nat} {s t : State} (hs : Roomy b (n + 1) s) (h : Reported b s t) : Roomy b n t := by
  obtain ⟨hroom, hheld⟩ := hs
  cases h with
  | unplaced t hline hreg hheat => exact ⟨by rw [hline]; omega, by rw [hline, hheld]⟩
  | placed body note hk =>
    have hlen := (placeOrder_placing b body note s).length_le
    exact ⟨by omega, (placeOrder_held_of_room (by omega) body note).trans hheld⟩

/-- The reports of the discarded orders, in turn. -/
theorem reports_keep {b : BayId} (l : List Order) {s : State} (P : List Order → Prop) (hs : P s.line.bays[b].queue)
    (hP : ∀ body l l', (body.kind = .heatAllow → body = .heatAllow s.heat.bays[b].allowance) → P l → Placing body l l' → P l') :
    P (s.each l (discardReport b)).line.bays[b].queue := by
  induction l generalizing s with
  | nil => exact hs
  | cons o l ih =>
    have h := discardReport_reported b o s
    exact ih (h.keeps_queue P hs hP) (h.same_heat ▸ hP)

theorem reports_roomy {b : BayId} (l : List Order) {s : State} (hs : Roomy b l.length s) : Roomy b 0 (s.each l (discardReport b)) := by
  induction l generalizing s with
  | nil => exact hs
  | cons o l ih => exact ih (hs.reported (discardReport_reported b o s))

/-- R38: an order placed again by the report of one of the discarded orders stands in the queue after all of them. -/
theorem reports_place {b : BayId} {a : OrderBody} (l : List Order) {s : State} (hs : Roomy b l.length s)
    (ha : a.kind.coalesces = true → a = .heatAllow s.heat.bays[b].allowance) {o : Order} (ho : o ∈ l)
    (hreport : ∀ t : State, t.reg = s.reg → t.heat = s.heat → t.line.bays[b].queue.length < 6 →
      ∃ x ∈ (discardReport b o t).line.bays[b].queue, x.body = a) :
    ∃ x ∈ (s.each l (discardReport b)).line.bays[b].queue, x.body = a := by
  induction l generalizing s with
  | nil => exact absurd ho List.not_mem_nil
  | cons q l ih =>
    have h := discardReport_reported b q s
    rcases List.mem_cons.1 ho with rfl | ho
    · refine reports_keep l (fun r => ∃ x ∈ r, x.body = a) (hreport s rfl rfl ?_) fun body l l' hk hx hp => hp.holds hx fun hc hkind => ?_
      · have hroom := hs.room
        rw [List.length_cons] at hroom
        omega
      · have hallow := ha ((congrArg OrderKind.coalesces hkind).trans hc)
        have hbody := hk (hkind.symm.trans (congrArg OrderBody.kind hallow))
        rw [hbody, hallow, h.same_heat]
    · exact ih (hs.reported h) (h.same_heat ▸ ha) ho fun t hreg hheat hq => hreport t (hreg.trans h.same_reg) (hheat.trans h.same_heat) hq

/-! ## SAFE and withdrawal -/

/-- R37: the queue emptied for a SAFE. -/
def safeAlone (b : BayId) (s : State) : State :=
  s.setLine b (fun x => { x with queue := [nextOrder s b .safe], nextId := nextOrderId x.nextId })

theorem safeAlone_bay (b : BayId) (s : State) : (safeAlone b s).line.bays[b] =
    { s.line.bays[b] with queue := [nextOrder s b .safe], nextId := nextOrderId s.line.bays[b].nextId } := upd_same ..

/-- R38: the queue behind a SAFE once the discards have been reported. -/
def safeReported (b : BayId) (s : State) : State := (safeAlone b s).each s.line.bays[b].queue (discardReport b)

theorem placeSafe_of_taken {b : BayId} {s : State} (ht : takesOrders s b = true) : placeSafe b s = reportSpace b (safeReported b s) := if_pos ht

theorem placeSafe_first {b : BayId} {s : State} (ht : takesOrders s b = true) :
    SafeFirst (nextOrder s b .safe) (placeSafe b s).line.bays[b].queue := by
  rw [placeSafe_of_taken ht]
  have hstep : ∀ body l l', SafeFirst (nextOrder s b .safe) l → Placing body l l' → SafeFirst (nextOrder s b .safe) l' :=
    fun body l l' hl hp => hl.placing rfl hp
  have halone : SafeFirst (nextOrder s b .safe) (safeAlone b s).line.bays[b].queue := by
    rw [safeAlone_bay]
    exact ⟨[], rfl, nofun⟩
  have hreported := reports_keep s.line.bays[b].queue (SafeFirst (nextOrder s b .safe)) halone fun body l l' _ => hstep body l l'
  exact flowBlocks_keeps_queue _ (fun o d => hstep (.block o d)) (offerHeld_keeps_queue _ (fun h _ => hstep h.body) hreported)

/-- R38: an order that the report of a discarded one places again stands behind the SAFE. -/
theorem placeSafe_places {b : BayId} {s : State} {a : OrderBody} (ht : takesOrders s b = true) (hq : s.line.bays[b].queue.length ≤ 5)
    (hh : s.line.bays[b].held = []) (ha : a.kind.coalesces = true → a = .heatAllow s.heat.bays[b].allowance)  {o : Order} (ho : o ∈ s.line.bays[b].queue) (hreport : ∀ t : State, t.reg = s.reg → t.heat = s.heat → t.line.bays[b].queue.length < 6 →
      ∃ x ∈ (discardReport b o t).line.bays[b].queue, x.body = a) :
    ∃ x ∈ (placeSafe b s).line.bays[b].queue, x.body = a := by
  rw [placeSafe_of_taken ht]
  have hroomy : Roomy b s.line.bays[b].queue.length (safeAlone b s) := by
    refine ⟨?_, ?_⟩
    · rw [safeAlone_bay]
      show 1 + s.line.bays[b].queue.length ≤ 6
      omega
    · rw [safeAlone_bay]
      exact hh
  have hplaced := reports_place s.line.bays[b].queue hroomy ha ho hreport
  have hnone := (reports_roomy _ hroomy).held
  refine flowBlocks_keeps_queue (fun l => ∃ x ∈ l, x.body = a) (fun o d l l' hx hp => hp.holds hx fun hc => absurd (show false = true from hc) nofun) ?_
  rw [safeReported, offerHeld_of_none hnone]
  exact hplaced

theorem SafeFirst.behind {safe : Order} {l : List Order} {a : OrderBody} (ha : ∃ x ∈ l, x.body = a) (hne : safe.body ≠ a) {rest : List Order}
    (hl : l = safe :: rest) : ∃ x ∈ rest, x.body = a := by
  obtain ⟨x, hx, rfl⟩ := ha
  rcases List.mem_cons.1 (hl ▸ hx) with rfl | hx
  · exact absurd rfl hne
  · exact ⟨x, hx, rfl⟩

theorem withdraw_removes (b : BayId) (kinds : List OrderKind) (s : State) : ∀ x ∈ (withdraw b kinds s).line.bays[b].queue, x.body.kind ∉ kinds := by
  have hbay : (s.setLine b (LineBay.without kinds)).line.bays[b] = s.line.bays[b].without kinds := upd_same ..
  have hgone : ∀ a : OrderBody, (!kinds.any (fun k => a.is k)) = true → a.kind ∉ kinds := by
    intro a h hk
    rw [Bool.not_eq_true', List.any_eq_false] at h
    exact h _ hk (decide_eq_true rfl)
  rw [withdraw_eq]
  refine offerHeld_keeps_queue (fun l => ∀ x ∈ l, x.body.kind ∉ kinds) (fun h hh l l' hl hp x hx => ?_) ?_
  · rw [hbay] at hh
    rcases hp.mem hx with hx | hx
    · exact hl x hx
    · exact hx ▸ hgone h.body (List.mem_filter.1 hh).2
  · rw [hbay]
    exact fun x hx => hgone x.body (List.mem_filter.1 hx).2

theorem withdraw_keeps_others {b : BayId} {kinds : List OrderKind} {s : State} {x : Order} (hx : x ∈ s.line.bays[b].queue) (hk : x.body.kind ∉ kinds)
    (hc : x.body.kind.coalesces = false) : x ∈ (withdraw b kinds s).line.bays[b].queue := by
  have hbay : (s.setLine b (LineBay.without kinds)).line.bays[b] = s.line.bays[b].without kinds := upd_same ..
  rw [withdraw_eq]
  refine offerHeld_keeps_queue (fun l => x ∈ l) (fun h _ l l' hl hp => hp.keeps hl fun hg heq => ?_) ?_
  · exact absurd (hc.symm.trans ((congrArg OrderKind.coalesces heq).trans hg)) (by decide)
  · rw [hbay]
    refine List.mem_filter.2 ⟨hx, ?_⟩
    rw [Bool.not_eq_true', List.any_eq_false]
    exact fun k hmem his => hk (of_decide_eq_true his ▸ hmem)

/-! ## The obligation -/

theorem coalesces_iff (k : OrderKind) : k.coalesces = true ↔ k = .setpoint ∨ k = .heatAllow ∨ k = .power ∨ k = .panelDeny := by
  cases k <;> decide

/-- R36: the bay's line once an order has taken the place of the queued one of its kind. -/
theorem replaced_bay {s : State} {b : BayId} {body : OrderBody} (ht : takesOrders s b = true) (hc : body.kind.coalesces = true)
    (hx : ∃ x ∈ s.line.bays[b].queue, x.body.kind = body.kind) (note : Note) :
    (placeOrder b body note s).line.bays[b].queue =
      s.line.bays[b].queue.map (fun x => if x.body.kind = body.kind then nextOrder s b body else x) ∧
    (placeOrder b body note s).line.bays[b].nextId = nextOrderId s.line.bays[b].nextId := by
  obtain ⟨x, hx, hk⟩ := hx
  have hcoal : (body.kind.coalesces && s.line.bays[b].queue.any (fun x => x.body.is body.kind)) = true :=
    Bool.and_eq_true_iff.2 ⟨hc, List.any_eq_true.2 ⟨x, hx, decide_eq_true hk⟩⟩
  rw [placeOrder_replaces ht hcoal, applyNote_queue, applyNote_nextId, State.setLine_line, upd_same]
  simp [OrderBody.is]

theorem not_coalescing {s : State} {b : BayId} {body : OrderBody} (h : ¬ (body.kind.coalesces = true ∧ ∃ x ∈ s.line.bays[b].queue, x.body.kind = body.kind)) :
    ¬ (body.kind.coalesces && s.line.bays[b].queue.any (fun x => x.body.is body.kind)) = true := by
  intro hc
  obtain ⟨hcoal, hany⟩ := Bool.and_eq_true_iff.1 hc
  obtain ⟨x, hx, his⟩ := List.any_eq_true.1 hany
  exact h ⟨hcoal, x, hx, of_decide_eq_true his⟩

/-- Settles O23: what placing, holding, SAFE and withdrawal each make of the queue. -/
theorem ordersQueueCoalesceAndAreHeld : Obligations.OrdersQueueCoalesceAndAreHeld := by
  refine ⟨coalesces_iff, fun s b body note => ⟨fun kinds => ⟨withdraw_removes b kinds s, fun x hx hk hc => withdraw_keeps_others hx hk hc⟩, fun hst => ?_,
    fun hne hns => ?_⟩⟩
  · have ht : ¬ takesOrders s b = true := fun h => hst.elim ((takesOrders_iff s b).1 h).1 ((takesOrders_iff s b).1 h).2
    exact ⟨placeOrder_of_not_taken (Bool.not_eq_true _ ▸ ht) body note, if_neg ht⟩
  have ht : takesOrders s b = true := (takesOrders_iff s b).2 ⟨hne, hns⟩
  refine ⟨fun hc hx => replaced_bay ht hc hx note, fun hcx => ⟨fun hq => ?_, fun hq => ?_⟩, ?_, fun h rest hh hc hq => ?_⟩
  · have hc := not_coalescing hcx
    refine ⟨placeOrder_joins_queue ht hc hq note, ?_⟩
    rw [placeOrder_joins ht hc hq, applyNote_nextId, State.setLine_line, upd_same]
    rfl
  · have hc := not_coalescing hcx
    rw [placeOrder_held ht hc hq]
    have hbay : (s.setLine b (fun l => { l with held := holdOrder { body := body, note := note } l.held })).line.bays[b] =
      { s.line.bays[b] with held := holdOrder { body := body, note := note } s.line.bays[b].held } := upd_same ..
    refine ⟨by rw [hbay], ⟨{ body := body, note := note }, ?_, rfl, rfl⟩, rfl⟩
    rw [hbay]
    exact holdOrder_mem _ _
  · obtain ⟨rest, hqueue, hnew⟩ := placeSafe_first ht
    refine ⟨rest, hqueue, hnew, fun hq hh => ⟨fun ⟨o, ho, hbody⟩ hint => ?_, fun ⟨o, ho, n, hbody⟩ => ?_⟩⟩
    · refine SafeFirst.behind (placeSafe_places ht hq hh (fun hc => absurd hc (by decide)) ho fun t hreg hheat hroom => ?_) (by intro h; cases h) hqueue
      have htt : takesOrders t b = true := by
        rw [takesOrders, hreg]
        exact ht
      rw [discardReport, hbody]
      dsimp only
      rw [if_pos (hreg ▸ hint)]
      exact exists_mem_placeOrder htt hroom .identify .plain
    · refine SafeFirst.behind (placeSafe_places ht hq hh (fun _ => rfl) ho fun t hreg hheat hroom => ?_) (by intro h; cases h) hqueue
      have htt : takesOrders t b = true := by
        rw [takesOrders, hreg]
        exact ht
      rw [discardReport, hbody, ← hheat]
      exact exists_mem_placeOrder htt hroom _ .plain
  · exact ⟨_, offerHeld_places ht hh hc hq, rfl, rfl⟩

end Sys2Proof.Machine


/-! The division of the heat budget (R103, R105). -/

namespace Sys2Proof.Machine
set_option Elab.async false

open Sys2Proof

/-! ## The division as arithmetic -/

theorem uniformShare_le (budget sum : Nat) : uniformShare budget sum ≤ 16 := by
  unfold uniformShare
  split <;> omega

theorem uniformShare_paid (budget sum : Nat) : uniformShare budget sum * sum ≤ budget := by
  unfold uniformShare
  split
  next h => simp [h]
  next => exact (Nat.mul_le_mul_right sum (Nat.min_le_right _ _)).trans (Nat.div_mul_le_self budget sum)

theorem uniformShare_largest {budget sum : Nat} (h : uniformShare budget sum < 16) : budget < (uniformShare budget sum + 1) * sum := by
  unfold uniformShare at h ⊢
  split at h
  next => omega
  next hsum =>
    rw [if_neg hsum, min_eq_right (by omega)]
    exact (Nat.div_lt_iff_lt_mul (Nat.pos_of_ne_zero hsum)).1 (Nat.lt_succ_self _)

/-- R103: the leftover walk serves the members it visits first, up to the first that does not fit. -/
theorem leftoverWalk_split (budget : Nat) (l : List Member) : ∃ taken rest : List Member, l = taken ++ rest ∧
    (leftoverWalk budget l).1 = taken.map Member.bay ∧ budget = (leftoverWalk budget l).2 + ratedSum taken ∧
    ∀ m ∈ rest.head?, (leftoverWalk budget l).2 < m.rated := by
  induction l generalizing budget with
  | nil => exact ⟨[], [], rfl, rfl, rfl, nofun⟩
  | cons m l ih =>
    by_cases hfits : m.rated ≤ budget
    · obtain ⟨taken, rest, hl, hbays, hleft, hhead⟩ := ih (budget - m.rated)
      rw [leftoverWalk, if_pos hfits]
      refine ⟨m :: taken, rest, by rw [hl]; rfl, by rw [List.map_cons, ← hbays], ?_, hhead⟩
      have hsum : ratedSum (m :: taken) = m.rated + ratedSum taken := by simp [ratedSum]
      dsimp only
      omega
    · rw [leftoverWalk, if_neg hfits]
      exact ⟨[], m :: l, rfl, rfl, rfl, fun x hx => by
        cases hx
        exact not_le.1 hfits⟩

/-- R103 for one class, of the members in the order in which the walk visits them. -/
theorem classShare_divides (l : List Member) (ptr : BayId) (budget : Nat) (hsum : ratedSum (walkOrder l ptr) = ratedSum l) :
    ∃ taken rest : List Member, walkOrder l ptr = taken ++ rest ∧ (classShare l ptr budget).share ≤ 16 ∧
      (classShare l ptr budget).extra = taken.map Member.bay ∧
      budget = (classShare l ptr budget).left + (classShare l ptr budget).share * ratedSum (walkOrder l ptr) + ratedSum taken ∧
      ((classShare l ptr budget).share < 16 → budget < ((classShare l ptr budget).share + 1) * ratedSum (walkOrder l ptr) ∧
        ∀ m ∈ rest.head?, (classShare l ptr budget).left < m.rated) ∧
      ((classShare l ptr budget).share = 16 → taken = []) ∧
      (classShare l ptr budget).ptr = (taken.map Member.bay).getLastD ptr := by
  have hle := uniformShare_le budget (ratedSum l)
  have hpaid := uniformShare_paid budget (ratedSum l)
  rw [hsum]
  unfold classShare
  dsimp only
  split
  next hlt =>
    obtain ⟨taken, rest, hl, hbays, hleft, hhead⟩ := leftoverWalk_split (budget - uniformShare budget (ratedSum l) * ratedSum l) (walkOrder l ptr)
    refine ⟨taken, rest, hl, hle, hbays, ?_, fun _ => ⟨uniformShare_largest hlt, hhead⟩, fun h => absurd h hlt.ne, by rw [hbays]⟩
    dsimp only
    omega
  next hge => exact ⟨[], walkOrder l ptr, rfl, hle, rfl, (Nat.sub_add_cancel hpaid).symm, fun h => absurd h hge, fun _ => rfl, rfl⟩

/-! ## The members of a class -/

/-- A bay as a member of its class. -/
def memberOf (s : State) (b : BayId) : Member := { bay := b, rated := ratedOf s b }

theorem ratedSum_members (s : State) (l : List BayId) : ratedSum (l.map (memberOf s)) = ratedOver s l := by
  simp [ratedSum, ratedOver, memberOf, Function.comp_def]

theorem bays_members (s : State) (l : List BayId) : (l.map (memberOf s)).map Member.bay = l := by
  simp [memberOf, Function.comp_def]

/-- The bays of a class, in ascending order. -/
def classBays (s : State) (c : HeatClass) : List BayId := allBays.filter (fun b => decide (heatClassOf s b = some c))

theorem mem_classBays {s : State} {c : HeatClass} {b : BayId} (hb : b ∈ classBays s c) : heatClassOf s b = some c :=
  of_decide_eq_true (List.mem_filter.1 hb).2

theorem visited_perm (s : State) (c : HeatClass) : (visited s c).Perm (classBays s c) := by
  have hle : (fun b => decide (b ≤ pointerOf s.heat.ptr c)) = fun b => !decide (pointerOf s.heat.ptr c < b) := by
    funext b
    rw [← decide_not, decide_eq_decide, not_lt]
  show (_ ++ (classBays s c).filter _).Perm _
  rw [hle]
  exact List.filter_append_perm _ _

theorem allBays_nodup : allBays.Nodup := by decide

theorem visited_nodup (s : State) (c : HeatClass) : (visited s c).Nodup :=
  (visited_perm s c).nodup_iff.2 (allBays_nodup.filter _)

theorem ratedOver_visited (s : State) (c : HeatClass) : ratedOver s (visited s c) = ratedOver s (classBays s c) :=
  ((visited_perm s c).map _).sum_eq

theorem classMembers_eq (s : State) (c : HeatClass) : classMembers s none c = (classBays s c).map (memberOf s) := rfl

theorem walkOrder_members (s : State) (c : HeatClass) : walkOrder (classMembers s none c) (pointerOf s.heat.ptr c) = (visited s c).map (memberOf s) := by
  rw [classMembers_eq, walkOrder, List.filter_map, List.filter_map, ← List.map_append]
  rfl

/-! ## The division of a state -/

/-- What a class is given by a recompute. -/
def shareOf (s : State) (c : HeatClass) : ClassShare := (divisionOf s none).share c

/-- The budget that a class finds. -/
def budgetOf (s : State) : HeatClass → Nat
  | .core => s.heat.limit * 16
  | .cook => (shareOf s .core).left
  | .clean => (shareOf s .cook).left
  | .idle => (shareOf s .clean).left

theorem shareOf_eq (s : State) (c : HeatClass) : shareOf s c = classShare (classMembers s none c) (pointerOf s.heat.ptr c) (budgetOf s c) := by
  cases c <;> rfl

/-- R103 for one class of a state: who has one sixteenth more, and what is left. -/
theorem shareOf_divides (s : State) (c : HeatClass) : ∃ extra rest : List BayId, visited s c = extra ++ rest ∧ (shareOf s c).share ≤ 16 ∧
    (shareOf s c).extra = extra ∧ budgetOf s c = (shareOf s c).left + (shareOf s c).share * ratedOver s (visited s c) + ratedOver s extra ∧
    ((shareOf s c).share < 16 → budgetOf s c < ((shareOf s c).share + 1) * ratedOver s (visited s c) ∧
      ∀ b ∈ rest.head?, (shareOf s c).left < ratedOf s b) ∧
    ((shareOf s c).share = 16 → extra = []) ∧ (shareOf s c).ptr = extra.getLastD (pointerOf s.heat.ptr c) := by
  have hwalk := walkOrder_members s c
  have hsum : ratedSum (walkOrder (classMembers s none c) (pointerOf s.heat.ptr c)) = ratedSum (classMembers s none c) := by
    rw [hwalk, classMembers_eq, ratedSum_members, ratedSum_members, ratedOver_visited]
  obtain ⟨taken, rest, hsplit, hle, hextra, hbudget, hbelow, hfull, hptr⟩ :=
    classShare_divides (classMembers s none c) (pointerOf s.heat.ptr c) (budgetOf s c) hsum
  rw [← shareOf_eq] at hle hextra hbudget hbelow hfull hptr
  rw [hwalk] at hsplit hbudget hbelow
  obtain ⟨extra, others, hv, hx, ho⟩ := List.map_eq_append_iff.1 hsplit
  subst hx ho
  rw [bays_members] at hextra hptr
  rw [ratedSum_members, ratedSum_members] at hbudget
  rw [ratedSum_members] at hbelow
  refine ⟨extra, others, hv, hle, hextra, hbudget, fun h => ⟨(hbelow h).1, fun b hb => ?_⟩, fun h => List.map_eq_nil_iff.1 (hfull h), hptr⟩
  exact (hbelow h).2 (memberOf s b) (by rw [List.head?_map]; exact Option.mem_map_of_mem _ hb)

/-- What one class's bays are given in all. -/
theorem share_spent (s : State) (c : HeatClass) :
    ((visited s c).map (fun b => ratedOf s b * (shareOf s c).of b)).sum + (shareOf s c).left = budgetOf s c := by
  obtain ⟨extra, rest, hv, -, hextra, hbudget, -, -, -⟩ := shareOf_divides s c
  have hnodup := visited_nodup s c
  rw [hv] at hnodup
  have hdisjoint := (List.nodup_append'.1 hnodup).2.2
  have hmore : extra.map (fun b => ratedOf s b * (shareOf s c).of b) = extra.map (fun b => ratedOf s b * ((shareOf s c).share + 1)) :=
    List.map_congr_left fun b hb => by rw [ClassShare.of, if_pos (by simpa [hextra] using hb)]
  have hsame : rest.map (fun b => ratedOf s b * (shareOf s c).of b) = rest.map (fun b => ratedOf s b * (shareOf s c).share) :=
    List.map_congr_left fun b hb => by rw [ClassShare.of, if_neg (by simpa [hextra] using fun h => hdisjoint h hb)]
  rw [hv] at hbudget ⊢
  rw [List.map_append, List.sum_append, hmore, hsame, List.sum_map_mul_right, List.sum_map_mul_right, hbudget]
  simp only [ratedOver, List.map_append, List.sum_append]
  ring

/-- A sum over some bays, class by class, of a value that a bay outside the classes does not have. -/
theorem sum_by_class (f : BayId → Nat) (g : BayId → Option HeatClass) (hf : ∀ b, g b = none → f b = 0) (l : List BayId) : (l.map f).sum =
    ((l.filter (fun b => decide (g b = some .core))).map f).sum + ((l.filter (fun b => decide (g b = some .cook))).map f).sum +
      ((l.filter (fun b => decide (g b = some .clean))).map f).sum + ((l.filter (fun b => decide (g b = some .idle))).map f).sum := by
  induction l with
  | nil => rfl
  | cons b l ih =>
    rw [List.map_cons, List.sum_cons, ih]
    cases hb : g b with
    | none => simp [hb, hf b hb]
    | some c => cases c <;> simp [hb] <;> omega

/-! ## The recompute -/

/-- R105: allowances have been sent to some of the bays, and nothing else of the allocation has changed. -/
structure SentTo (on : BayId → Prop) (s t : State) : Prop where
  reg : t.reg = s.reg
  runs : t.runs = s.runs
  ptr : t.heat.ptr = s.heat.ptr
  kept : ∀ d : BayId, t.heat.bays[d].allowance = s.heat.bays[d].allowance ∧ t.heat.bays[d].cls = s.heat.bays[d].cls
  others : ∀ d : BayId, ¬ on d → t.heat.bays[d] = s.heat.bays[d] ∧ t.line.bays[d] = s.line.bays[d]

theorem SentTo.refl (on : BayId → Prop) (s : State) : SentTo on s s := ⟨rfl, rfl, rfl, fun _ => ⟨rfl, rfl⟩, fun _ _ => ⟨rfl, rfl⟩⟩

theorem SentTo.trans {on : BayId → Prop} {s t u : State} (h : SentTo on s t) (h' : SentTo on t u) : SentTo on s u :=
  ⟨h'.reg.trans h.reg, h'.runs.trans h.runs, h'.ptr.trans h.ptr, fun d => ⟨(h'.kept d).1.trans (h.kept d).1, (h'.kept d).2.trans (h.kept d).2⟩,
    fun d hd => ⟨(h'.others d hd).1.trans (h.others d hd).1, (h'.others d hd).2.trans (h.others d hd).2⟩⟩

theorem SentTo.mono {p q : BayId → Prop} {s t : State} (h : SentTo p s t) (hpq : ∀ d, p d → q d) : SentTo q s t :=
  ⟨h.reg, h.runs, h.ptr, h.kept, fun d hd => h.others d fun hp => hd (hpq d hp)⟩

/-- A plain order is placed in its own bay's queue. -/
theorem placePlain_other {b d : BayId} (hd : d ≠ b) (body : OrderBody) (s : State) : (placeOrder b body .plain s).line.bays[d] = s.line.bays[d] := by
  unfold placeOrder
  dsimp only
  simp only [applyNote_plain]
  split
  · split
    · exact upd_other _ _ _ _ hd
    · split <;> exact upd_other _ _ _ _ hd
  · rfl

theorem sendAllowance_sentTo (b : BayId) (s : State) : SentTo (· = b) s (sendAllowance b s) := by
  unfold sendAllowance
  dsimp only
  split
  · rw [placeOrder_eq_withLine]
    exact ⟨rfl, rfl, rfl, fun d => ⟨upd_view HeatBay.allowance s.heat.bays b d _ rfl, upd_view HeatBay.cls s.heat.bays b d _ rfl⟩,
      fun d hd => ⟨upd_other _ _ _ _ hd, placePlain_other hd _ s⟩⟩
  · exact .refl _ s

theorem sendAllowances_sentTo (l : List BayId) (s : State) : SentTo (· ∈ l) s (s.each l sendAllowance) := by
  induction l generalizing s with
  | nil => exact .refl _ s
  | cons b l ih =>
    exact ((sendAllowance_sentTo b s).mono fun d hd => hd ▸ List.mem_cons_self).trans ((ih (sendAllowance b s)).mono fun d => List.mem_cons_of_mem b)

theorem sendAllowance_of_sent {b : BayId} {s : State} (h : s.heat.bays[b].sent = some s.heat.bays[b].allowance) : sendAllowance b s = s :=
  if_neg (by simp only [h]; simp)

/-- R105: an allowance that differs from the sent value is sent. -/
theorem sendAllowance_sends {b : BayId} {s : State} (ht : takesOrders s b = true) :
    (sendAllowance b s).heat.bays[b].sent = some s.heat.bays[b].allowance ∧
    (s.heat.bays[b].sent ≠ some s.heat.bays[b].allowance → s.line.bays[b].queue.length < 6 →
      ∃ o ∈ (sendAllowance b s).line.bays[b].queue, o.body = .heatAllow s.heat.bays[b].allowance) := by
  by_cases hsent : s.heat.bays[b].sent = some s.heat.bays[b].allowance
  · rw [sendAllowance_of_sent hsent]
    exact ⟨hsent, fun h => absurd hsent h⟩
  · have hsend : sendAllowance b s =
        (placeOrder b (.heatAllow s.heat.bays[b].allowance) .plain s).setHeat b (fun x => { x with sent := some s.heat.bays[b].allowance }) :=
      if_pos (by rw [ht]; exact decide_eq_true hsent)
    rw [hsend]
    exact ⟨congrArg HeatBay.sent (upd_same ..), fun _ hq => exists_mem_placeOrder ht hq _ .plain⟩

/-- R103: the allocation as a recompute divides it, before anything is sent. -/
def divided (s : State) : State :=
  { s with heat := { s.heat with
    ptr := (divisionOf s none).pointers, bays := Vector.ofFn (fun b => allot s none (divisionOf s none) b s.heat.bays[b]) } }

theorem recompute_eq (s : State) : recompute s = (divided s).each allBays sendAllowance := rfl

/-- R105: bay `b`'s allowance is sent between those of the bays before and behind it. -/
theorem recompute_at (s : State) (b : BayId) :
    ∃ u, SentTo (· ≠ b) (divided s) u ∧ SentTo (· ≠ b) (sendAllowance b u) (recompute s) := by
  obtain ⟨hsplit, -, hbefore, hafter⟩ := allBays_split b
  refine ⟨(divided s).each (allBays.take b.val) sendAllowance, ?_, ?_⟩
  · exact (sendAllowances_sentTo _ _).mono fun d hd e => hbefore (e ▸ hd)
  · have heach : recompute s = (sendAllowance b ((divided s).each (allBays.take b.val) sendAllowance)).each (allBays.drop (b.val + 1)) sendAllowance := by
      rw [recompute_eq]
      conv_lhs => rw [hsplit]
      rw [State.each, List.foldl_append]
      rfl
    rw [heach]
    exact (sendAllowances_sentTo _ _).mono fun d hd e => hafter (e ▸ hd)

theorem divided_bay (s : State) (b : BayId) : (divided s).heat.bays[b] = allot s none (divisionOf s none) b s.heat.bays[b] := by
  show (Vector.ofFn (fun d => allot s none (divisionOf s none) d s.heat.bays[d]))[b] = _
  rw [Fin.getElem_fin, Vector.getElem_ofFn]

theorem starve_same (h : HeatBay) (starving : Bool) (sec : Nat) : (h.starve starving sec).sent = h.sent ∧ (h.starve starving sec).cls = h.cls := by
  unfold HeatBay.starve
  split <;> exact ⟨rfl, rfl⟩

theorem divided_sent (s : State) (b : BayId) : (divided s).heat.bays[b].sent = s.heat.bays[b].sent := by
  rw [divided_bay]
  exact (starve_same _ _ _).1

theorem recompute_sentTo (s : State) : SentTo (· ∈ allBays) (divided s) (recompute s) := sendAllowances_sentTo _ _

theorem recompute_allowance (s : State) (b : BayId) : (recompute s).heat.bays[b].allowance = (divisionOf s none).allowance (heatClassOf s b) b := by
  rw [((recompute_sentTo s).kept b).1, divided_bay, allot_allowance]
  rfl

theorem recompute_cls (s : State) (b : BayId) : (recompute s).heat.bays[b].cls = heatClassOf s b := by
  rw [((recompute_sentTo s).kept b).2, divided_bay]
  exact (starve_same _ _ _).2

theorem recompute_allowance_of_class {s : State} {b : BayId} {c : HeatClass} (h : heatClassOf s b = some c) :
    (recompute s).heat.bays[b].allowance = (shareOf s c).of b := by
  rw [recompute_allowance, h]
  rfl

theorem recompute_classDivided (s : State) (c : HeatClass) : ClassDivided s (recompute s) c (budgetOf s c) (shareOf s c).left := by
  obtain ⟨extra, rest, hv, hle, hextra, hbudget, hbelow, hfull, hptr⟩ := shareOf_divides s c
  have hnodup := visited_nodup s c
  rw [hv] at hnodup
  have hclass : ∀ b ∈ extra ++ rest, heatClassOf s b = some c := fun b hb => mem_classBays ((visited_perm s c).mem_iff.1 (hv ▸ hb))
  refine ⟨(shareOf s c).share, extra, rest, hv, hle, hbudget, hbelow, hfull, fun b hb => ?_, fun b hb => ?_, ?_⟩
  · rw [recompute_allowance_of_class (hclass b (List.mem_append_left _ hb)), ClassShare.of, if_pos (by simpa [hextra] using hb)]
  · have hout : b ∉ extra := fun h => (List.nodup_append'.1 hnodup).2.2 h hb
    rw [recompute_allowance_of_class (hclass b (List.mem_append_right _ hb)), ClassShare.of, if_neg (by simpa [hextra] using hout)]
  · rw [(recompute_sentTo s).ptr, ← List.getLastD_eq_getLast?, ← hptr]
    cases c <;> rfl

/-- R103: the bays together are given no more than the budget. -/
theorem recompute_within_budget (s : State) : (allBays.map (fun b => ratedOf s b * (recompute s).heat.bays[b].allowance)).sum ≤ s.heat.limit * 16 := by
  have hclass : ∀ c : HeatClass, ((classBays s c).map (fun b => ratedOf s b * (recompute s).heat.bays[b].allowance)).sum + (shareOf s c).left =
      budgetOf s c := by
    intro c
    have hmap : (classBays s c).map (fun b => ratedOf s b * (recompute s).heat.bays[b].allowance) =
        (classBays s c).map (fun b => ratedOf s b * (shareOf s c).of b) :=
      List.map_congr_left fun b hb => by rw [recompute_allowance_of_class (mem_classBays hb)]
    rw [hmap, ← share_spent s c, ((visited_perm s c).map _).sum_eq]
  have hcore := hclass .core
  have hcook := hclass .cook
  have hclean := hclass .clean
  have hidle := hclass .idle
  rw [sum_by_class _ (heatClassOf s) fun b hb => by rw [recompute_allowance, hb]; rfl]
  simp only [budgetOf, classBays] at *
  omega

/-- Settles O37: each class by its share, the budget by the four of them, and the sending bay by bay. -/
theorem recomputeStaysWithinTheBudget : Obligations.RecomputeStaysWithinTheBudget := by
  intro s
  have hsent := recompute_sentTo s
  refine ⟨⟨_, _, _, _, recompute_classDivided s .core, recompute_classDivided s .cook, recompute_classDivided s .clean, recompute_classDivided s .idle⟩,
    recompute_within_budget s, hsent.reg, hsent.runs, fun b => ?_⟩
  obtain ⟨u, hbefore, hafter⟩ := recompute_at s b
  obtain ⟨hheat, hline⟩ := hbefore.others b (not_not_intro rfl)
  obtain ⟨hheat', hline'⟩ := hafter.others b (not_not_intro rfl)
  have hline0 : u.line.bays[b] = s.line.bays[b] := hline
  have hsent0 : u.heat.bays[b].sent = s.heat.bays[b].sent := by rw [hheat, divided_sent]
  have hallow : u.heat.bays[b].allowance = (recompute s).heat.bays[b].allowance := by rw [hheat, (hsent.kept b).1]
  refine ⟨?_, fun hc => by rw [recompute_allowance, hc]; rfl, recompute_cls s b, fun h => ?_, fun hne hns => ?_⟩
  · rw [recompute_allowance]
    exact divide_allowance s.heat.limit s.heat.ptr (classMembers s none) _ b
  · rw [hline', sendAllowance_of_sent (by rw [hsent0, hallow, h]), hline0]
  · have ht : takesOrders u b = true := by
      rw [takesOrders, hbefore.reg]
      exact (takesOrders_iff s b).2 ⟨hne, hns⟩
    obtain ⟨hset, hplaced⟩ := sendAllowance_sends ht
    rw [hsent0, hallow, hline0] at hplaced
    refine ⟨(congrArg HeatBay.sent hheat').trans (hset.trans (congrArg some hallow)), ?_⟩
    rw [hline']
    exact hplaced

end Sys2Proof.Machine


/-! The bundle slots (R167-R171). -/

namespace Sys2Proof.Machine
set_option Elab.async false

open Sys2Proof

/-! ## The forms of the requests -/

theorem fld_eq_some {α β : Type} {p : Txt → Option α} {k : α → List Txt → Option β} {l : List Txt} {v : β} (h : fld p k l = some v) :
    ∃ a rest, k a rest = some v := by
  cases l with
  | nil => exact nomatch h
  | cons t rest =>
    obtain ⟨a, -, ha⟩ := Option.bind_eq_some_iff.1 h
    exact ⟨a, rest, ha⟩

theorem fin_eq_some {β : Type} {v w : β} {l : List Txt} (h : fin v l = some w) : v = w := by
  cases l with
  | nil => exact Option.some.inj h
  | cons t rest => exact nomatch h

/-- R168: a slot that is opened is FILLING. -/
theorem parseOpen_filling {f : List Txt} {n : Nat} {h : Header} (hp : parseOpen f = some (n, some h)) : h.state = .filling := by
  obtain ⟨m, _, hp⟩ := fld_eq_some hp
  obtain ⟨kind, _, hp⟩ := fld_eq_some hp
  obtain ⟨target, _, hp⟩ := fld_eq_some hp
  obtain ⟨revision, _, hp⟩ := fld_eq_some hp
  obtain ⟨length, _, hp⟩ := fld_eq_some hp
  obtain ⟨crc, _, hp⟩ := fld_eq_some hp
  obtain ⟨k, -, rfl⟩ := Option.map_eq_some_iff.1 (congrArg Prod.snd (fin_eq_some hp))
  rfl

/-! ## The writes that a slot hands to the store -/

/-- The writes that are not complete, in their order. -/
def Store.left (t : Store) : List Write := t.performing.toList ++ t.waiting

theorem beginWrite_left (s : State) : (beginWrite s).store.left = s.store.left := by
  unfold beginWrite
  split
  next hp hw => simp [Store.left, hp, hw]
  next => rfl

theorem beginWrite_waiting (s : State) : ∀ y ∈ (beginWrite s).store.waiting, y ∈ s.store.waiting := by
  unfold beginWrite
  split
  next hw => exact fun y hy => hw ▸ List.mem_cons_of_mem _ hy
  next => exact fun y hy => hy

theorem queueNotice_withHost (k : NoticeKind) (f : List Tok) (s : State) : queueNotice k f s = { s with host := (queueNotice k f s).host } := by
  unfold queueNotice
  split <;> rfl

theorem storeStaging_eq_withStore (x : Write) (s : State) : storeStaging x s = { s with store := (storeStaging x s).store } := beginWrite_eq_withStore _

theorem storeSealHeader_eq_withStore (k : Fin 4) (h : Header) (s : State) : storeSealHeader k h s = { s with store := (storeSealHeader k h s).store } :=
  beginWrite_eq_withStore _

theorem beginWrite_setSlot (k : Fin 4) (f : Slot → Slot) (s : State) : beginWrite (s.setSlot k f) = (beginWrite s).setSlot k f := by
  simp only [beginWrite, State.setSlot_phase, State.setSlot_store]
  split <;> rfl

theorem storeStaging_setSlot (x : Write) (k : Fin 4) (f : Slot → Slot) (s : State) : storeStaging x (s.setSlot k f) = (storeStaging x s).setSlot k f := by
  rw [storeStaging, storeStaging, ← beginWrite_setSlot]
  rfl

theorem storeRecord_setSlot (p : Partition) (n : Nat) (x : Option StoreRec) (k : Fin 4) (f : Slot → Slot) (s : State) :
    storeRecord p n x (s.setSlot k f) = (storeRecord p n x s).setSlot k f := by
  rw [storeRecord, storeRecord, ← beginWrite_setSlot]
  rfl

theorem storeSealHeader_setSlot (j : Fin 4) (h : Header) (k : Fin 4) (f : Slot → Slot) (s : State) :
    storeSealHeader j h (s.setSlot k f) = (storeSealHeader j h s).setSlot k f := by
  rw [storeSealHeader, storeSealHeader, ← beginWrite_setSlot]
  rfl

theorem storeSealHeader_left (k : Fin 4) (h : Header) (s : State) : (storeSealHeader k h s).store.left =
    s.store.performing.toList ++ (s.store.waiting.filter (fun y => !y.isRecord .headers k.val) ++ [.record .headers k.val (some (.header k h))]) :=
  beginWrite_left _

/-! ## The requests -/

theorem not_stagingFull {s : State} (h : s.store.stagingWaiting < 8) : s.store.stagingFull = false := decide_eq_false (not_le.2 h)

theorem bundleOpen_served {s : State} {f : List Txt} {k : Fin 4} {h : Header} (hp : parseOpen f = some (k.val + 1, some h)) (hok : headerRangeOk h = true)
    (hst : s.dist.slots[k].header.state = .free ∨ s.dist.slots[k].header.state = .corrupt) (hroom : s.store.stagingWaiting < 8) :
    serveBundleOpen f s = (openSlot k h s, .ok .bundleOpen [.num (k.val + 1), .num 0]) := by
  rw [serveBundleOpen, withFields_of_parse hp, onFour_val_succ]
  dsimp only
  rw [if_pos hok]
  rcases hst with hst | hst <;> rw [hst] <;> simp only [not_stagingFull hroom] <;> rfl

/-- R168: a slot that has been opened. -/
def Slot.opened (h : Header) (x : Slot) : Slot := { x with header := h, fill := 0, computed := none }

theorem openSlot_eq (k : Fin 4) (h : Header) (s : State) : openSlot k h s = { s with
    dist := (s.setSlot k (Slot.opened h)).dist, store := (storeRecord .headers k.val (some (.header k h)) (storeStaging (.erase k) s)).store } := by
  calc openSlot k h s
      = storeRecord .headers k.val (some (.header k h)) (storeStaging (.erase k) (s.setSlot k (Slot.opened h))) := rfl
    _ = (storeRecord .headers k.val (some (.header k h)) (storeStaging (.erase k) s)).setSlot k (Slot.opened h) := by
        rw [storeStaging_setSlot, storeRecord_setSlot]
    _ = _ := by
        rw [storeRecord_eq_withStore]
        generalize (storeRecord .headers k.val (some (.header k h)) (storeStaging (.erase k) s)).store = w
        rw [storeStaging_eq_withStore]
        rfl

theorem bundleChunk_served {s : State} {k : Fin 4} {w1 w2 w3 : Txt} {d : List Byte} (h1 : NamesFour w1 k) (h2 : number w2 = some s.dist.slots[k].fill)
    (h3 : hexBytes w3 = some d) (hmin : 1 ≤ d.length) (hmax : d.length ≤ 200) (hst : s.dist.slots[k].header.state = .filling)
    (hlen : s.dist.slots[k].fill + d.length ≤ s.dist.slots[k].header.length) (hroom : s.store.stagingWaiting < 8) :
    serveBundleChunk [w1, w2, w3] s = (takeChunk k s.dist.slots[k].fill d s,
      .ok .bundleChunk [.num (k.val + 1), .num (s.dist.slots[k].fill + d.length)]) := by
  have hcheck : chunkCheck s k s.dist.slots[k].fill d.length = none := by
    unfold chunkCheck
    simp only [hst, not_stagingFull hroom]
    simp [-Fin.getElem_fin, hlen]
  rw [serveBundleChunk, withFields_of_parse (a := (k.val + 1, s.dist.slots[k].fill, d)) (by simp only [fld, fin, show number w1 = some (k.val + 1) from h1, h2, h3, Option.bind_some]), onFour_val_succ]
  dsimp only
  rw [if_pos ((within_iff _ _ _).2 ⟨hmin, hmax⟩), hcheck]
  rfl

theorem takeChunk_eq (k : Fin 4) (o : Nat) (d : List Byte) (s : State) : takeChunk k o d s = { s with
    dist := (s.setSlot k (fun x => { x with fill := x.fill + d.length })).dist, store := (storeStaging (.bytes k o d) s).store } := by
  rw [takeChunk, storeStaging_setSlot, storeStaging_eq_withStore]
  rfl

theorem bundleSeal_served {s : State} {k : Fin 4} {w : Txt} (hw : NamesFour w k) (hst : s.dist.slots[k].header.state = .filling)
    (hfull : s.dist.slots[k].fill = s.dist.slots[k].header.length) :
    serveBundleSeal [w] s = (setSlotState k .sealing s, .ok .bundleSeal [.num (k.val + 1)]) := by
  rw [serveBundleSeal, withFields_single hw, onFour_val_succ]
  dsimp only
  rw [if_neg (by rw [hst]; decide), if_pos ⟨hst, hfull.ge⟩]
  rfl

theorem bundleDiscard_served {s : State} {k : Fin 4} {w : Txt} (hw : NamesFour w k) (hst : s.dist.slots[k].header.state ≠ .sealing)
    (hu : s.dist.slots[k].users = 0) :
    serveBundleDiscard [w] s = (storeRecord .headers k.val none (s.setSlot k (fun _ => .initial)), .ok .bundleDiscard [.num (k.val + 1)]) := by
  rw [serveBundleDiscard, withFields_single hw, onFour_val_succ]
  dsimp only
  rw [if_neg hst, if_neg (by omega)]
  rfl

/-! ## The end of a seal -/

/-- R170: the header of a slot that has been judged by its CRC. -/
def judgedHeader (s : State) (k : Fin 4) : Header :=
  { s.dist.slots[k].header with state := if slotCrc s k = s.dist.slots[k].header.crc then .verified else .corrupt }

/-- R170: the slot of a seal whose computation is complete. -/
def judgedSlot (s : State) (k : Fin 4) : Slot :=
  { s.dist.slots[k] with header := judgedHeader s k, computed := some (slotCrc s k) }

/-- R170: the seal's header is with the store and its slot is judged, before the notice. -/
def judged (k : Fin 4) (s : State) : State :=
  ((storeSealHeader k (judgedHeader s k) s).setSlot k (fun y => { y with header := { y.header with state := (judgedHeader s k).state } })).setSlot k
    (fun y => { y with computed := some (slotCrc s k) })

theorem sealDone_of_sealing {s : State} {k : Fin 4} (h : s.dist.slots[k].header.state = .sealing) : sealDone k s =
    queueNotice .bundleResult [.num (k.val + 1), wd (judgedHeader s k).state.word, .hex8 (slotCrc s k)] (judged k s) := by
  have hjudged : judged k s = storeSealHeader k (judgedHeader s k) ((setSlotState k (judgedHeader s k).state s).setSlot k
      (fun y => { y with computed := some (slotCrc s k) })) := by
    rw [setSlotState, storeSealHeader_setSlot, storeSealHeader_setSlot]
    rfl
  rw [sealDone, if_pos h, hjudged]
  rfl

theorem judged_slot (k : Fin 4) (s : State) : (judged k s).dist.slots[k] = judgedSlot s k := by
  have hdist : (storeSealHeader k (judgedHeader s k) s).dist = s.dist := by rw [storeSealHeader_eq_withStore]
  rw [judged, State.setSlot_dist, upd_same, State.setSlot_dist, upd_same, hdist]
  rfl

theorem judged_store (k : Fin 4) (s : State) : (judged k s).store = (storeSealHeader k (judgedHeader s k) s).store := rfl

theorem judged_rest (k : Fin 4) (s : State) : judged k s = { s with dist := (judged k s).dist, store := (judged k s).store } := by
  rw [judged, storeSealHeader_eq_withStore]
  rfl

/-! ## The obligation -/

theorem storeSealHeader_last (k : Fin 4) (h : Header) (s : State) :
    (storeSealHeader k h s).store.left.getLast? = some (.record .headers k.val (some (.header k h))) := by
  rw [storeSealHeader_left, ← List.append_assoc]
  exact List.getLast?_concat

theorem storeSealHeader_only (k : Fin 4) (h : Header) (s : State) : ∀ y ∈ (storeSealHeader k h s).store.waiting,
    y.isRecord .headers k.val = true → y = .record .headers k.val (some (.header k h)) := by
  intro y hy hrec
  rcases List.mem_append.1 (beginWrite_waiting _ y hy) with hy | hy
  · have hno := (List.mem_filter.1 hy).2
    rw [hrec] at hno
    exact absurd hno (by decide)
  · exact List.mem_singleton.1 hy

theorem storeSealHeader_others (k : Fin 4) (h : Header) (s : State) : ∀ y ∈ s.store.waiting,
    y.isRecord .headers k.val = false → y ∈ (storeSealHeader k h s).store.left := by
  intro y hy hrec
  rw [storeSealHeader_left]
  exact List.mem_append_right _ (List.mem_append_left _ (List.mem_filter.2 ⟨hy, by rw [hrec]; rfl⟩))

/-- Settles O56: each request in its owner's hands, and the end of a seal. -/
theorem bundleSlotsFollowTheirStates : Obligations.BundleSlotsFollowTheirStates := by
  refine fun s k => ⟨?_, ?_, ?_, ?_⟩
  · intro f n h hs hp hn hok hst hroom
    subst hn
    refine completes_of_answered (answered_of_served (v := .bundleOpen) hs (bundleOpen_served hp hok hst hroom)) ?_
    rw [openSlot_eq]
    exact ⟨upd_same .., parseOpen_filling hp, rfl, rfl, rfl⟩
  · intro w1 w2 w3 d hs h1 h2 h3 hmin hmax hst hlen hroom
    refine completes_of_answered (answered_of_served (v := .bundleChunk) hs (bundleChunk_served h1 h2 h3 hmin hmax hst hlen hroom)) ?_
    rw [takeChunk_eq]
    exact ⟨upd_same .., rfl, rfl, rfl⟩
  · refine fun w hs hw => ⟨fun hst hfull => ?_, fun hst hu => ?_⟩
    · refine completes_of_answered (answered_of_served (v := .bundleSeal) hs (bundleSeal_served hw hst hfull)) ?_
      exact ⟨upd_same .., rfl, rfl⟩
    · refine completes_of_answered (answered_of_served (v := .bundleDiscard) hs (bundleDiscard_served hw hst hu)) ?_
      rw [storeRecord_setSlot, storeRecord_eq_withStore]
      have hslot : (upd s.dist.slots k (fun _ => Slot.initial))[k] = Slot.initial := upd_same ..
      exact ⟨congrArg (fun x : Slot => x.header.state) hslot, congrArg Slot.users hslot, rfl, rfl, rfl⟩
  · intro hon hst
    refine completes_event hon rfl fun tx sent => ?_
    have hword : (judgedHeader s k).state.word = if slotCrc s k = s.dist.slots[k].header.crc then "VERIFIED" else "CORRUPT" := by
      unfold judgedHeader
      split <;> rfl
    have hstore : (sealDone k s).store = (storeSealHeader k (judgedHeader s k) s).store := by
      rw [sealDone_of_sealing hst, queueNotice_withHost]
      exact judged_store k s
    have hslot : (sealDone k s).dist.slots[k] = judgedSlot s k := by
      rw [sealDone_of_sealing hst, queueNotice_withHost]
      exact judged_slot k s
    have hrest : sealDone k s = { s with dist := (sealDone k s).dist, store := (sealDone k s).store, host := (sealDone k s).host } := by
      rw [sealDone_of_sealing hst, queueNotice_withHost]
      generalize (queueNotice _ _ (judged k s)).host = h
      rw [judged_rest]
    have htells : Tells s (sealDone k s) .bundleResult [.num (k.val + 1),
        wd (if slotCrc s k = s.dist.slots[k].header.crc then "VERIFIED" else "CORRUPT"), .hex8 (slotCrc s k)] := by
      rw [sealDone_of_sealing hst, ← hword]
      refine (tells_queueNotice .bundleResult _ (judged k s)).since ?_
      rw [judged_rest]
      exact ⟨rfl, rfl, List.prefix_rfl, id⟩
    generalize sealDone k s = t at hstore hslot hrest htells ⊢
    have hlast := storeSealHeader_last k (judgedHeader s k) s
    have honly := storeSealHeader_only k (judgedHeader s k) s
    have hothers := storeSealHeader_others k (judgedHeader s k) s
    rw [← hstore] at hlast honly hothers
    exact ⟨hslot, htells, hlast, honly, hothers, by rw [hrest]⟩

end Sys2Proof.Machine


/-! The start-up load (R46, R47, R192). -/

namespace Sys2Proof.Machine
set_option Elab.async false

open Sys2Proof

/-! ## Reading a list -/

theorem loadable_isPrefix (p : Partition) (last : Option Nat) (l : List StoreRec) : loadable p last l <+: l := by
  induction l generalizing last with
  | nil => exact List.nil_prefix
  | cons r rest ih =>
    rw [loadable]
    split
    · exact (List.prefix_cons_inj _).2 (ih _)
    · exact List.nil_prefix

/-- R46: the positions of the records read ascend. -/
theorem loadable_ascends (p : Partition) (last : Option Nat) (l : List StoreRec) :
    (∀ r ∈ loadable p last l, ∀ n, last = some n → n < r.pos) ∧ (loadable p last l).Pairwise (fun a b => a.pos < b.pos) := by
  induction l generalizing last with
  | nil => exact ⟨nofun, .nil⟩
  | cons r rest ih =>
    rw [loadable]
    split
    next hr =>
      obtain ⟨habove, hsorted⟩ := ih (some r.pos)
      have hlast : ∀ n, last = some n → n < r.pos := by
        rintro n rfl
        simp only [Bool.and_eq_true, Option.all_some, decide_eq_true_eq] at hr
        exact hr.1.2
      refine ⟨fun x hx n hn => ?_, .cons (fun x hx => habove x hx r.pos rfl) hsorted⟩
      rcases List.mem_cons.1 hx with rfl | hx
      · exact hlast n hn
      · exact (hlast n hn).trans (habove x hx r.pos rfl)
    next => exact ⟨nofun, .nil⟩

/-- R46: why the reading of a list stopped at a record. -/
theorem loadable_stops (p : Partition) (last : Option Nat) (l : List StoreRec) {r : StoreRec} {rest : List StoreRec}
    (h : l = loadable p last l ++ r :: rest) :
    r.home ≠ p ∨ r.ok = false ∨ (∃ q ∈ loadable p last l, r.pos ≤ q.pos) ∨ ∃ n, last = some n ∧ r.pos ≤ n := by
  induction l generalizing last with
  | nil => exact absurd h (by simp [loadable])
  | cons x l ih =>
    rw [loadable] at h ⊢
    split at h
    next hx =>
      rw [if_pos hx]
      obtain hhome | hok | ⟨q, hq, hle⟩ | ⟨n, hn, hle⟩ := ih (some x.pos) (List.cons.inj h).2
      · exact .inl hhome
      · exact .inr (.inl hok)
      · exact .inr (.inr (.inl ⟨q, List.mem_cons_of_mem x hq, hle⟩))
      · exact .inr (.inr (.inl ⟨x, List.mem_cons_self, by rw [Option.some.inj hn]; exact hle⟩))
    next hx =>
      obtain ⟨rfl, -⟩ := List.cons.inj h
      by_cases hhome : x.home = p
      · by_cases hok : x.ok = true
        · cases hlast : last with
          | none => exact absurd (by rw [hhome, hlast, hok]; simp) hx
          | some n =>
            refine .inr (.inr (.inr ⟨n, rfl, not_lt.1 fun hlt => hx ?_⟩))
            rw [hhome, hlast, hok]
            simp [hlt]
        · exact .inr (.inl (Bool.not_eq_true _ ▸ hok))
      · exact .inl hhome

/-- R46: why the reading of the LIBRARY stopped at a record that could be read. -/
theorem loadableRecipes_stops (count slots : Nat) (l : List StoreRec) (hl : ∀ x ∈ l, x.home = .library) {r : StoreRec} {rest : List StoreRec}
    (h : l = loadableRecipes count slots l ++ r :: rest) :
    200 ≤ count + (loadableRecipes count slots l).length ∨
      1600 < slots + ((loadableRecipes count slots l).map StoreRec.slots).sum + r.slots := by
  induction l generalizing count slots with
  | nil => exact absurd h (by simp [loadableRecipes])
  | cons x l ih =>
    have hx := hl x List.mem_cons_self
    cases x with
    | recipe n v =>
      rw [loadableRecipes] at h ⊢
      split at h
      next hroom =>
        rw [if_pos hroom]
        have hnext := ih (count + 1) (slots + v.size) (fun y hy => hl y (List.mem_cons_of_mem _ hy)) (List.cons.inj h).2
        simp only [List.length_cons, List.map_cons, List.sum_cons, StoreRec.slots] at hnext ⊢
        omega
      next hroom =>
        rw [if_neg hroom]
        obtain ⟨rfl, -⟩ := List.cons.inj h
        have hfull : ¬ (count < 200 ∧ slots + v.size ≤ 1600) := fun h => hroom (Bool.and_eq_true_iff.2 ⟨decide_eq_true h.1, decide_eq_true h.2⟩)
        simp only [List.length_nil, List.map_nil, List.sum_nil, StoreRec.slots]
        omega
    | _ => exact nomatch hx

theorem readPartition_isPrefix (p : Partition) (l : RecordList) : readPartition p l <+: l.recs := by
  unfold readPartition
  dsimp only
  split
  · exact (loadableRecipes_isPrefix 0 0 _).trans (loadable_isPrefix p none l.recs)
  · exact loadable_isPrefix p none l.recs

theorem readPartition_ascends (p : Partition) (l : RecordList) : (readPartition p l).Pairwise (fun a b => a.pos < b.pos) := by
  have hall := (loadable_ascends p none l.recs).2
  unfold readPartition
  dsimp only
  split
  · exact hall.sublist (loadableRecipes_isPrefix 0 0 _).sublist
  · exact hall

theorem readPartition_stops (p : Partition) (l : RecordList) {r : StoreRec} {rest : List StoreRec} (h : l.recs = readPartition p l ++ r :: rest) :
    r.home ≠ p ∨ r.ok = false ∨ (∃ q ∈ readPartition p l, r.pos ≤ q.pos) ∨
      p = .library ∧ (200 ≤ (readPartition p l).length ∨ 1600 < ((readPartition p l).map StoreRec.slots).sum + r.slots) := by
  have hplain : l.recs = loadable p none l.recs ++ r :: rest → r.home ≠ p ∨ r.ok = false ∨ ∃ q ∈ loadable p none l.recs, r.pos ≤ q.pos := by
    intro h
    obtain hhome | hok | hq | ⟨n, hn, -⟩ := loadable_stops p none l.recs h
    · exact .inl hhome
    · exact .inr (.inl hok)
    · exact .inr (.inr hq)
    · exact nomatch hn
  unfold readPartition at h ⊢
  dsimp only at h ⊢
  split at h
  next hp =>
    rw [if_pos hp]
    obtain ⟨more, hmore⟩ := loadableRecipes_isPrefix 0 0 (loadable p none l.recs)
    cases more with
    | nil =>
      rw [List.append_nil] at hmore
      rw [hmore] at h ⊢
      obtain hhome | hok | hq := hplain h
      · exact .inl hhome
      · exact .inr (.inl hok)
      · exact .inr (.inr (.inl hq))
    | cons x more =>
      obtain ⟨tail, htail⟩ := loadable_isPrefix p none l.recs
      have hrecs : loadableRecipes 0 0 (loadable p none l.recs) ++ x :: (more ++ tail) = loadableRecipes 0 0 (loadable p none l.recs) ++ r :: rest :=
        calc loadableRecipes 0 0 (loadable p none l.recs) ++ x :: (more ++ tail)
            = (loadableRecipes 0 0 (loadable p none l.recs) ++ x :: more) ++ tail := by simp
          _ = loadable p none l.recs ++ tail := by rw [hmore]
          _ = l.recs := htail
          _ = loadableRecipes 0 0 (loadable p none l.recs) ++ r :: rest := h
      obtain ⟨rfl, -⟩ := List.cons.inj (List.append_cancel_left hrecs)
      have hstop := loadableRecipes_stops 0 0 (loadable p none l.recs) (fun y hy => hp ▸ (loadable_ok p none l.recs y hy).1) hmore.symm
      rw [Nat.zero_add, Nat.zero_add] at hstop
      exact .inr (.inr (.inr ⟨hp, hstop⟩))
  next hp =>
    rw [if_neg hp]
    obtain hhome | hok | hq := hplain h
    · exact .inl hhome
    · exact .inr (.inl hok)
    · exact .inr (.inr (.inl hq))

theorem loadResult_eq (p : Partition) (l : RecordList) : loadResult p l =
    if readPartition p l = l.recs ∧ l.faulty = false then .ok l.recs.length else .truncated ((readPartition p l).length + 1) := by
  have hwhole : (readPartition p l).length = l.recs.length ↔ readPartition p l = l.recs :=
    ⟨(readPartition_isPrefix p l).eq_of_length, congrArg List.length⟩
  unfold loadResult
  dsimp only
  by_cases h : readPartition p l = l.recs ∧ l.faulty = false
  · rw [if_pos ⟨hwhole.2 h.1, h.2⟩, if_pos h, h.1]
  · rw [if_neg fun hn => h ⟨hwhole.1 hn.1, hn.2⟩, if_neg h]

/-! ## Handing the records over -/

/-- R46: the entry that a LIBRARY record makes. -/
def StoreRec.entry : StoreRec → Option Entry
  | .recipe n x => some { number := n, cur := x, pins := 0, retired := none, withdrawn := false }
  | _ => none

/-- R44: the beginning of a write leaves the flash as it is. -/
theorem beginWrite_lists (s : State) : beginWrite s =
    { s with store := { s.store with performing := (beginWrite s).store.performing, waiting := (beginWrite s).store.waiting } } := by
  unfold beginWrite
  split <;> rfl

/-- R46, R167: a slot header is handed to the Distributor, and the removal of a FILLING one joins the write queue. -/
theorem takeRecord_header (k : Fin 4) (h : Header) (s : State) : ∃ w : Store, takeRecord (.header k h) s = { s with
    dist := (s.setSlot k (fun _ => slotOfHeader h)).dist, store := { s.store with performing := w.performing, waiting := w.waiting } } := by
  unfold takeRecord
  dsimp only
  split
  · exact ⟨_, beginWrite_lists _⟩
  · exact ⟨s.store, rfl⟩

/-- R46: the owner holds the record it is handed. -/
theorem takeRecord_taken (r : StoreRec) (s : State) : Taken (takeRecord r s) r := by
  cases r with
  | site limit grace idle => exact ⟨rfl, rfl, rfl⟩
  | quick v => exact rfl
  | event k e => exact upd_same ..
  | dst d => exact rfl
  | sched n e => exact upd_same ..
  | commission b c => exact congrArg RegBay.commission (setReg_same s b _)
  | hold b k rp =>
    have hm : (takeRecord (.hold b k rp) s).mon.bays[b] = { s.mon.bays[b] with hold := k, releasePending := rp } := upd_same ..
    exact ⟨congrArg MonBay.hold hm, congrArg MonBay.releasePending hm⟩
  | hygiene b h => exact congrArg CleanBay.hygiene (upd_same ..)
  | recipe n x => exact ⟨_, List.mem_append_right _ (List.mem_singleton.2 rfl), rfl, rfl⟩
  | header k h =>
    obtain ⟨w, hw⟩ := takeRecord_header k h s
    rw [hw]
    exact upd_same ..

/-- The place of a record: its partition and its position. -/
def StoreRec.place (r : StoreRec) : Partition × Nat := (r.home, r.pos)

/-- R46: what the handing over of records leaves of the state, but for their own places. -/
structure Placed (on : Partition × Nat → Prop) (s t : State) : Prop where
  lists : t.store.profile = s.store.profile ∧ t.store.hygiene = s.store.hygiene ∧ t.store.library = s.store.library ∧ t.store.headers = s.store.headers
  phase : t.phase = s.phase
  now : t.now = s.now
  state : ∀ b : BayId, t.reg[b].state = s.reg[b].state ∧ t.reg[b].settled = s.reg[b].settled
  clock : t.clock.cal = s.clock.cal ∧ t.clock.valid = s.clock.valid
  site : ¬ on (.profile, sitePos) → t.heat.limit = s.heat.limit ∧ t.heat.idleTime = s.heat.idleTime ∧ t.runs.doorGrace = s.runs.doorGrace
  quick : ¬ on (.profile, quickPos) → t.lib.quick = s.lib.quick
  dst : ¬ on (.profile, dstPos) → t.clock.rule = s.clock.rule
  events : ∀ k : Fin 16, ¬ on (.profile, eventPos k) → t.mon.settings[k] = s.mon.settings[k]
  sched : ∀ n : Fin 24, ¬ on (.profile, schedPos n) → t.sched.entries[n] = s.sched.entries[n]
  commission : ∀ b : BayId, ¬ on (.profile, commissionPos b) → t.reg[b].commission = s.reg[b].commission
  hold : ∀ b : BayId, ¬ on (.profile, holdPos b) → t.mon.bays[b].hold = s.mon.bays[b].hold ∧ t.mon.bays[b].releasePending = s.mon.bays[b].releasePending
  hygiene : ∀ b : BayId, ¬ on (.hygiene, b.val) → t.clean[b].hygiene = s.clean[b].hygiene
  headers : ∀ k : Fin 4, ¬ on (.headers, k.val) → t.dist.slots[k] = s.dist.slots[k]

theorem Placed.refl (on : Partition × Nat → Prop) (s : State) : Placed on s s where
  lists := ⟨rfl, rfl, rfl, rfl⟩
  phase := rfl
  now := rfl
  state _ := ⟨rfl, rfl⟩
  clock := ⟨rfl, rfl⟩
  site _ := ⟨rfl, rfl, rfl⟩
  quick _ := rfl
  dst _ := rfl
  events _ _ := rfl
  sched _ _ := rfl
  commission _ _ := rfl
  hold _ _ := ⟨rfl, rfl⟩
  hygiene _ _ := rfl
  headers _ _ := rfl

theorem Placed.trans {on : Partition × Nat → Prop} {s t u : State} (h : Placed on s t) (g : Placed on t u) : Placed on s u where
  lists := ⟨g.lists.1.trans h.lists.1, g.lists.2.1.trans h.lists.2.1, g.lists.2.2.1.trans h.lists.2.2.1, g.lists.2.2.2.trans h.lists.2.2.2⟩
  phase := g.phase.trans h.phase
  now := g.now.trans h.now
  state b := ⟨(g.state b).1.trans (h.state b).1, (g.state b).2.trans (h.state b).2⟩
  clock := ⟨g.clock.1.trans h.clock.1, g.clock.2.trans h.clock.2⟩
  site hq := ⟨(g.site hq).1.trans (h.site hq).1, (g.site hq).2.1.trans (h.site hq).2.1, (g.site hq).2.2.trans (h.site hq).2.2⟩
  quick hq := (g.quick hq).trans (h.quick hq)
  dst hq := (g.dst hq).trans (h.dst hq)
  events k hq := (g.events k hq).trans (h.events k hq)
  sched n hq := (g.sched n hq).trans (h.sched n hq)
  commission b hq := (g.commission b hq).trans (h.commission b hq)
  hold b hq := ⟨(g.hold b hq).1.trans (h.hold b hq).1, (g.hold b hq).2.trans (h.hold b hq).2⟩
  hygiene b hq := (g.hygiene b hq).trans (h.hygiene b hq)
  headers k hq := (g.headers k hq).trans (h.headers k hq)

theorem Placed.mono {p q : Partition × Nat → Prop} {s t : State} (h : Placed p s t) (hpq : ∀ x, p x → q x) : Placed q s t :=
  { h with
    site := fun hq => h.site fun hp => hq (hpq _ hp)
    quick := fun hq => h.quick fun hp => hq (hpq _ hp)
    dst := fun hq => h.dst fun hp => hq (hpq _ hp)
    events := fun k hq => h.events k fun hp => hq (hpq _ hp)
    sched := fun n hq => h.sched n fun hp => hq (hpq _ hp)
    commission := fun b hq => h.commission b fun hp => hq (hpq _ hp)
    hold := fun b hq => h.hold b fun hp => hq (hpq _ hp)
    hygiene := fun b hq => h.hygiene b fun hp => hq (hpq _ hp)
    headers := fun k hq => h.headers k fun hp => hq (hpq _ hp) }

theorem takeRecord_placed (r : StoreRec) (s : State) : Placed (· = r.place) s (takeRecord r s) := by
  have h := Placed.refl (· = r.place) s
  cases r with
  | site limit grace idle => exact { h with site := fun hq => absurd rfl hq }
  | quick v => exact { h with quick := fun hq => absurd rfl hq }
  | event k e => exact { h with events := fun j hq => upd_other _ _ _ _ fun e => hq (e ▸ rfl) }
  | dst d => exact { h with clock := ⟨rfl, rfl⟩, dst := fun hq => absurd rfl hq }
  | sched n e => exact { h with sched := fun j hq => upd_other _ _ _ _ fun e => hq (e ▸ rfl) }
  | commission b c =>
    have hother : ∀ d, d ≠ b → (takeRecord (.commission b c) s).reg[d] = s.reg[d] := fun d hd => upd_other _ _ _ _ hd
    exact { h with
      state := fun d => ⟨upd_view RegBay.state s.reg b d _ rfl, upd_view RegBay.settled s.reg b d _ rfl⟩
      commission := fun d hq => congrArg RegBay.commission (hother d fun e => hq (e ▸ rfl)) }
  | hold b k rp =>
    have hother : ∀ d, d ≠ b → (takeRecord (.hold b k rp) s).mon.bays[d] = s.mon.bays[d] := fun d hd => upd_other _ _ _ _ hd
    exact { h with hold := fun d hq => ⟨congrArg MonBay.hold (hother d fun e => hq (e ▸ rfl)), congrArg MonBay.releasePending (hother d fun e => hq (e ▸ rfl))⟩ }
  | hygiene b x => exact { h with hygiene := fun d hq => congrArg CleanBay.hygiene (upd_other _ _ _ _ fun e => hq (e ▸ rfl)) }
  | recipe n x => exact { h with quick := fun _ => rfl }
  | header k x =>
    obtain ⟨w, hw⟩ := takeRecord_header k x s
    rw [hw]
    exact { h with lists := ⟨rfl, rfl, rfl, rfl⟩, headers := fun j hq => upd_other _ _ _ _ fun e => hq (e ▸ rfl) }

/-- The places of some records. -/
def placesOf (l : List StoreRec) (q : Partition × Nat) : Prop := ∃ r ∈ l, q = r.place

theorem takeRecords_placed (l : List StoreRec) (s : State) : Placed (placesOf l) s (s.each l takeRecord) := by
  induction l generalizing s with
  | nil => exact .refl _ s
  | cons r l ih =>
    exact ((takeRecord_placed r s).mono fun q hq => ⟨r, List.mem_cons_self, hq⟩).trans
      ((ih (takeRecord r s)).mono fun q ⟨x, hx, hq⟩ => ⟨x, List.mem_cons_of_mem r hx, hq⟩)

/-- A record stays with its owner while other records are handed over. -/
theorem Taken.placed {on : Partition × Nat → Prop} {s t : State} {r : StoreRec} (h : Placed on s t) (hr : ¬ on r.place) (hl : r.home ≠ .library)
    (ht : Taken s r) : Taken t r := by
  cases r with
  | site limit grace idle =>
    obtain ⟨hlimit, hidle, hgrace⟩ := h.site hr
    exact ⟨hlimit.trans ht.1, hgrace.trans ht.2.1, hidle.trans ht.2.2⟩
  | quick v => exact (h.quick hr).trans ht
  | event k e => exact (h.events k hr).trans ht
  | dst d => exact (h.dst hr).trans ht
  | sched n e => exact (h.sched n hr).trans ht
  | commission b c => exact (h.commission b hr).trans ht
  | hold b k rp => exact ⟨(h.hold b hr).1.trans ht.1, (h.hold b hr).2.trans ht.2⟩
  | hygiene b x => exact (h.hygiene b hr).trans ht
  | recipe n x => exact absurd rfl hl
  | header k x => exact (h.headers k hr).trans ht

/-- R46: every record of a list is with its owner once the list has been handed over. -/
theorem takeRecords_taken {l : List StoreRec} (hs : l.Pairwise (fun a b => a.pos < b.pos)) {r : StoreRec} (hr : r ∈ l) (hl : r.home ≠ .library)
    (s : State) : Taken (s.each l takeRecord) r := by
  induction l generalizing s with
  | nil => exact absurd hr List.not_mem_nil
  | cons x l ih =>
    obtain ⟨hx, hl'⟩ := List.pairwise_cons.1 hs
    rcases List.mem_cons.1 hr with rfl | hr
    · exact (takeRecord_taken r s).placed (takeRecords_placed l _) (fun ⟨y, hy, hq⟩ => (hx y hy).ne (congrArg Prod.snd hq)) hl
    · exact ih hl' hr _

theorem takeRecord_clock {r : StoreRec} (h : r.home ≠ .profile) (s : State) : (takeRecord r s).clock = s.clock := by
  cases r with
  | header k x =>
    obtain ⟨w, hw⟩ := takeRecord_header k x s
    rw [hw]
  | hygiene | recipe => rfl
  | _ => exact absurd rfl h

theorem takeRecords_clock {l : List StoreRec} (h : ∀ r ∈ l, r.home ≠ .profile) (s : State) : (s.each l takeRecord).clock = s.clock := by
  induction l generalizing s with
  | nil => rfl
  | cons r l ih => exact (ih (fun x hx => h x (List.mem_cons_of_mem r hx)) _).trans (takeRecord_clock (h r List.mem_cons_self) s)

theorem takeRecord_library (r : StoreRec) (s : State) :
    (takeRecord r s).lib.index = s.lib.index ++ [r].filterMap StoreRec.entry ∧ (takeRecord r s).lib.free = s.lib.free - r.slots := by
  cases r with
  | recipe n x => exact ⟨rfl, rfl⟩
  | header k x =>
    obtain ⟨w, hw⟩ := takeRecord_header k x s
    rw [hw]
    exact ⟨(List.append_nil _).symm, rfl⟩
  | _ => exact ⟨(List.append_nil _).symm, rfl⟩

theorem takeRecords_library (l : List StoreRec) (s : State) : (s.each l takeRecord).lib.index = s.lib.index ++ l.filterMap StoreRec.entry ∧
    (s.each l takeRecord).lib.free = s.lib.free - (l.map StoreRec.slots).sum := by
  induction l generalizing s with
  | nil => exact ⟨(List.append_nil _).symm, rfl⟩
  | cons r l ih =>
    obtain ⟨hindex, hfree⟩ := ih (takeRecord r s)
    obtain ⟨hi, hf⟩ := takeRecord_library r s
    refine ⟨?_, ?_⟩
    · rw [State.each_cons, hindex, hi, List.append_assoc, ← List.filterMap_append]
      rfl
    · rw [State.each_cons, hfree, hf, Nat.sub_sub, List.map_cons, List.sum_cons]

theorem takeRecords_library_same {l : List StoreRec} (h : ∀ r ∈ l, r.home ≠ .library) (s : State) :
    (s.each l takeRecord).lib.index = s.lib.index ∧ (s.each l takeRecord).lib.free = s.lib.free := by
  obtain ⟨hindex, hfree⟩ := takeRecords_library l s
  have hentry : ∀ r ∈ l, r.entry = none ∧ r.slots = 0 := by
    intro r hr
    cases r with
    | recipe n x => exact absurd rfl (h _ hr)
    | _ => exact ⟨rfl, rfl⟩
  refine ⟨hindex.trans ?_, hfree.trans ?_⟩
  · rw [List.filterMap_eq_nil_iff.2 fun r hr => (hentry r hr).1, List.append_nil]
  · rw [List.map_congr_left (g := fun _ => 0) fun r hr => (hentry r hr).2]
    simp

/-! ## The four lists -/

/-- A partition's list as the flash holds it. -/
def listOf (s : State) : Partition → RecordList
  | .profile => s.store.profile
  | .hygiene => s.store.hygiene
  | .library => s.store.library
  | .headers => s.store.headers

/-- The records that the load reads of a list. -/
def readOf (s : State) (p : Partition) : List StoreRec := readPartition p (listOf s p)

theorem readOf_home {s : State} {p : Partition} {r : StoreRec} (hr : r ∈ readOf s p) : r.home = p := (readPartition_ok p (listOf s p) r hr).1

theorem readOf_ascends (s : State) (p : Partition) : (readOf s p).Pairwise (fun a b => a.pos < b.pos) := readPartition_ascends p (listOf s p)

/-- The places of the records that the load reads. -/
def loadedPlaces (s : State) (q : Partition × Nat) : Prop := placesOf (readOf s q.1) q

theorem placesOf_readOf {s : State} {p : Partition} {q : Partition × Nat} (h : placesOf (readOf s p) q) : loadedPlaces s q := by
  obtain ⟨r, hr, rfl⟩ := h
  have hp : r.place.1 = p := readOf_home hr
  exact ⟨r, by rw [hp]; exact hr, rfl⟩

/-- R138: the rule copy starts from its default. -/
def ruleCleared (s : State) : State := { s with clock := { s.clock with rule := .initial } }

/-- R138: the clock is settled once the PROFILE list has been read. -/
def dstSettled (s : State) : State := { s with clock := settleDst s.clock }

theorem settleDst_kept (c : Backup) : (settleDst c).cal = c.cal ∧ (settleDst c).valid = c.valid ∧ (settleDst c).rule = c.rule := by
  unfold settleDst
  split <;> exact ⟨rfl, rfl, rfl⟩

theorem settleDst_disabled {c : Backup} (h : (settleDst c).rule.enabled = false) : (settleDst c).inDst = false ∧ (settleDst c).secondPass = false := by
  unfold settleDst at h ⊢
  split at h
  next hen => exact absurd (hen.symm.trans h) (by decide)
  next hen =>
    rw [if_neg hen]
    exact ⟨rfl, rfl⟩

theorem dstSettled_placed (on : Partition × Nat → Prop) (s : State) : Placed on s (dstSettled s) :=
  { Placed.refl on s with
    clock := ⟨(settleDst_kept s.clock).1, (settleDst_kept s.clock).2.1⟩
    dst := fun _ => (settleDst_kept s.clock).2.2 }

/-- R46, R138: the PROFILE list, before the clock is settled. -/
def profileRead (s : State) : State := (ruleCleared s).each (readOf s .profile) takeRecord

/-- The two lists that follow it. -/
def libraryRead (s : State) : State := ((dstSettled (profileRead s)).each (readOf s .hygiene) takeRecord).each (readOf s .library) takeRecord

theorem loadStore_eq (s : State) : loadStore s = (libraryRead s).each (readOf s .headers) takeRecord := rfl

theorem places_apart {s : State} {p q : Partition} (h : p ≠ q) {x : Partition × Nat} (hx : placesOf (readOf s p) x) : ¬ placesOf (readOf s q) x := by
  rintro ⟨y, hy, hxy⟩
  obtain ⟨z, hz, hxz⟩ := hx
  exact h ((readOf_home hz).symm.trans ((congrArg Prod.fst (hxz.symm.trans hxy)).trans (readOf_home hy)))

theorem not_places_of_home {s : State} {q : Partition} {r : StoreRec} (h : r.home ≠ q) : ¬ placesOf (readOf s q) r.place := by
  rintro ⟨y, hy, hxy⟩
  exact h ((congrArg Prod.fst hxy).trans (readOf_home hy))

theorem loadStore_placed (s : State) : Placed (loadedPlaces s) (ruleCleared s) (loadStore s) := by
  have hread : ∀ p t, Placed (loadedPlaces s) t (t.each (readOf s p) takeRecord) := fun p t =>
    (takeRecords_placed (readOf s p) t).mono fun q hq => placesOf_readOf hq
  exact ((((hread .profile (ruleCleared s)).trans (dstSettled_placed _ _)).trans (hread .hygiene _)).trans (hread .library _)).trans (hread .headers _)

/-- R46: each record that has been read is with its owner. -/
theorem loadStore_taken {s : State} {r : StoreRec} (hr : r ∈ readOf s .profile ++ readOf s .hygiene ++ readOf s .headers) : Taken (loadStore s) r := by
  have hafter : ∀ (p : Partition) (t : State), r.home ≠ p → r.home ≠ .library → Taken t r → Taken (t.each (readOf s p) takeRecord) r := fun p t hp hl ht =>
    ht.placed (takeRecords_placed (readOf s p) t) (not_places_of_home hp) hl
  rcases List.mem_append.1 hr with hr | hr
  · rcases List.mem_append.1 hr with hr | hr
    · have hhome := readOf_home hr
      have hl : r.home ≠ .library := by rw [hhome]; decide
      have hread := (takeRecords_taken (readOf_ascends s .profile) hr hl (ruleCleared s)).placed (dstSettled_placed (fun _ => False) _) id hl
      exact hafter .headers _ (by rw [hhome]; decide) hl (hafter .library _ hl hl (hafter .hygiene _ (by rw [hhome]; decide) hl hread))
    · have hhome := readOf_home hr
      have hl : r.home ≠ .library := by rw [hhome]; decide
      exact hafter .headers _ (by rw [hhome]; decide) hl (hafter .library _ hl hl (takeRecords_taken (readOf_ascends s .hygiene) hr hl _))
  · have hl : r.home ≠ .library := by rw [readOf_home hr]; decide
    exact takeRecords_taken (readOf_ascends s .headers) hr hl _

theorem loadStore_library (s : State) : (loadStore s).lib.index = s.lib.index ++ (readOf s .library).filterMap StoreRec.entry ∧
    (loadStore s).lib.free = s.lib.free - ((readOf s .library).map StoreRec.slots).sum := by
  have hsame : ∀ (p : Partition) (t : State), p ≠ .library →
      (t.each (readOf s p) takeRecord).lib.index = t.lib.index ∧ (t.each (readOf s p) takeRecord).lib.free = t.lib.free := fun p t hp =>
    takeRecords_library_same (fun r hr => by rw [readOf_home hr]; exact hp) t
  obtain ⟨hp, hpf⟩ := hsame .profile (ruleCleared s) nofun
  obtain ⟨hh, hhf⟩ := hsame .hygiene (dstSettled (profileRead s)) nofun
  obtain ⟨hl, hlf⟩ := takeRecords_library (readOf s .library) ((dstSettled (profileRead s)).each (readOf s .hygiene) takeRecord)
  obtain ⟨ht, htf⟩ := hsame .headers (libraryRead s) nofun
  have hindex : ((dstSettled (profileRead s)).each (readOf s .hygiene) takeRecord).lib.index = s.lib.index := hh.trans hp
  have hfree : ((dstSettled (profileRead s)).each (readOf s .hygiene) takeRecord).lib.free = s.lib.free := hhf.trans hpf
  rw [hindex] at hl
  rw [hfree] at hlf
  exact ⟨ht.trans hl, htf.trans hlf⟩

theorem loadStore_clock (s : State) : (loadStore s).clock = settleDst (profileRead s).clock := by
  have hsame : ∀ (p : Partition) (t : State), p ≠ .profile → (t.each (readOf s p) takeRecord).clock = t.clock := fun p t hp =>
    takeRecords_clock (fun r hr => by rw [readOf_home hr]; exact hp) t
  exact (hsame .headers _ nofun).trans ((hsame .library _ nofun).trans (hsame .hygiene _ nofun))

/-! ## The settled bays and the hygiene conditions -/

/-- What the release of the settled bays and the report of the hygiene conditions may change. -/
def Parts.loading (on : BayId → Prop) : Parts :=
  { reg := on, line := fun _ => True, heat := on, shares := True, latch := on, cond := on, calls := True }

theorem enterInterrogating_loading {on : BayId → Prop} {b : BayId} (hb : on b) {s t : State} (h : Touches (.loading on) s t) :
    Touches (.loading on) s (enterInterrogating b t) := by
  have hplaced := ((h.setReg (b := b) (f := fun r => { r with pollCount := 0, stepCheck := true, power := .off }) hb).placePlain (b := b) trivial
    .identify).setShare (b := b) (f := fun x => { x with sent := none }) trivial
  refine Touches.sendAllowance ?_ ⟨trivial, fun _ => trivial⟩ b
  split
  · exact hplaced
  · exact hplaced.heatPower hb ⟨trivial, fun _ => trivial⟩

theorem releaseSettled_touches {on : BayId → Prop} {b : BayId} (hb : on b) (s : State) : Touches (.loading on) s (releaseSettled b s) := by
  unfold releaseSettled
  split
  · have hreg := (Touches.refl (m := .loading on) s).setReg (b := b) (f := fun r => { r with settled := false }) hb
    generalize s.setReg b (fun r => { r with settled := false }) = t at hreg ⊢
    by_cases hst : t.reg[b].state = .interrogating
    · rw [setBayState_of_same hst]
      exact hreg
    · rw [setBayState_of_ne hst]
      have hleft : Touches (.loading on) s (leaving b .interrogating .settled t) := by
        have htold := (hreg.setReg (b := b) (f := fun r => { r with state := .interrogating }) hb).queueNotice .bay
          [bayTok b, wd BayState.interrogating.word, wd BayCause.settled.word]
        unfold leaving leaveState
        split
        · exact htold.setCondition ⟨hb, trivial⟩ hb _ _
        · exact htold.setCondition ⟨hb, trivial⟩ hb _ _
        · exact htold
      exact enterInterrogating_loading hb hleft
  · exact .refl s

/-- R4: what the release makes of the Registry's record of its bay. -/
theorem releaseSettled_reg (b : BayId) (s : State) : (releaseSettled b s).reg[b].commission = s.reg[b].commission ∧
    (s.reg[b].settled = true → (releaseSettled b s).reg[b].state = .interrogating ∧ (releaseSettled b s).reg[b].settled = false) ∧
    (s.reg[b].settled = false → (releaseSettled b s).reg[b].state = s.reg[b].state) := by
  unfold releaseSettled
  split
  next h =>
    obtain ⟨n, y, p, hreg⟩ := setBayState_kept b .interrogating .settled (s.setReg b (fun r => { r with settled := false }))
    rw [hreg, setReg_same]
    exact ⟨rfl, fun _ => ⟨rfl, rfl⟩, fun hf => absurd (h.symm.trans hf) (by decide)⟩
  next h => exact ⟨rfl, fun ht => absurd ht h, fun _ => rfl⟩

theorem reportHygiene_touches {on : BayId → Prop} {b : BayId} (hb : on b) (s : State) : Touches (.loading on) s (reportHygiene b s) :=
  (Touches.refl s).reportHygiene ⟨hb, trivial⟩ hb

/-- Steps of the load's end for each of some bays, each touching its own bay's records. -/
theorem each_loading {f : BayId → State → State} (hf : ∀ b s, Touches (.loading (· = b)) s (f b s)) (l : List BayId) (s : State) (b : BayId) (hb : b ∉ l) :
    (s.each l f).reg[b] = s.reg[b] ∧ (s.each l f).mon.bays[b].conds = s.mon.bays[b].conds := by
  induction l generalizing s with
  | nil => exact ⟨rfl, rfl⟩
  | cons d l ih =>
    obtain ⟨hd, hl⟩ := not_or.1 (mt List.mem_cons.2 hb)
    obtain ⟨hreg, hconds⟩ := ih (f d s) hl
    have hstep := hf d s
    exact ⟨hreg.trans (hstep.reg_same hd id), hconds.trans (hstep.cond b hd)⟩

theorem each_split {α : Type} (f : α → State → State) {l before after : List α} {a : α} (h : l = before ++ a :: after) (s : State) :
    s.each l f = (f a (s.each before f)).each after f := by
  rw [h, State.each, List.foldl_append]
  rfl

/-- The load's end before STARTUP. -/
theorem loaded_touches (s : State) : Touches (.loading fun _ => True) (loadStore s) (loaded s) :=
  ((Touches.refl _).each _ _ fun _ _ u => releaseSettled_touches trivial u).each _ _ fun _ _ u => reportHygiene_touches trivial u

/-- R4: what the release of the settled bays makes of a bay. -/
theorem released_bay (u : State) (b : BayId) : (u.each allBays releaseSettled).reg[b].commission = u.reg[b].commission ∧
    (u.reg[b].settled = true →
      (u.each allBays releaseSettled).reg[b].state = .interrogating ∧ (u.each allBays releaseSettled).reg[b].settled = false) ∧
    (u.reg[b].settled = false → (u.each allBays releaseSettled).reg[b].state = u.reg[b].state) := by
  obtain ⟨hsplit, -, hbefore, hafter⟩ := allBays_split b
  have hrelease := fun (l : List BayId) (t : State) (hl : b ∉ l) => (each_loading (fun d w => releaseSettled_touches (on := (· = d)) rfl w) l t b hl).1
  have hat := releaseSettled_reg b (u.each (allBays.take b.val) releaseSettled)
  rw [hrelease _ u hbefore] at hat
  have hlast := hrelease (allBays.drop (b.val + 1)) (releaseSettled b (u.each (allBays.take b.val) releaseSettled)) hafter
  rw [← each_split releaseSettled hsplit] at hlast
  rw [hlast]
  exact hat

/-- R134: what the report of the hygiene conditions makes of a bay. -/
theorem reported_bay (u : State) (b : BayId) : (u.each allBays reportHygiene).reg[b] = u.reg[b] ∧
    condition (u.each allBays reportHygiene) b .detergentLow = detergentLow (u.each allBays reportHygiene).clean[b].hygiene ∧
    condition (u.each allBays reportHygiene) b .rinseOwed = (u.each allBays reportHygiene).clean[b].hygiene.rinseOwed ∧
    condition (u.each allBays reportHygiene) b .cleanDue = cleanDue (u.each allBays reportHygiene).clean[b].hygiene := by
  obtain ⟨hsplit, -, hbefore, hafter⟩ := allBays_split b
  have hreport := fun (l : List BayId) (t : State) => (Touches.refl (m := { Parts.loading (fun _ => True) with reg := fun _ => False }) t).each l reportHygiene
    fun _ _ w => (Touches.refl w).reportHygiene ⟨trivial, trivial⟩ trivial
  have hat := reportHygiene_conditions b (u.each (allBays.take b.val) reportHygiene)
  rw [(hreport _ u).hygiene b id] at hat
  have hlast := (each_loading (fun d w => reportHygiene_touches (on := (· = d)) rfl w) (allBays.drop (b.val + 1))
    (reportHygiene b (u.each (allBays.take b.val) reportHygiene)) b hafter).2
  rw [← each_split reportHygiene hsplit] at hlast
  have hcond : ∀ k : EventKind, condition (u.each allBays reportHygiene) b k =
      condition (reportHygiene b (u.each (allBays.take b.val) reportHygiene)) b k :=
    fun k => congrArg (fun v : Vector Bool 16 => v[k.slot]) hlast
  rw [hcond, hcond, hcond, (hreport allBays u).hygiene b id]
  exact ⟨(hreport _ u).reg_same id id, hat⟩

/-- R4, R134: what the load's end makes of a bay. -/
theorem loaded_bay (s : State) (b : BayId) :
    (loaded s).reg[b].commission = (loadStore s).reg[b].commission ∧
    ((loadStore s).reg[b].settled = true → (loaded s).reg[b].state = .interrogating ∧ (loaded s).reg[b].settled = false) ∧
    ((loadStore s).reg[b].settled = false → (loaded s).reg[b].state = (loadStore s).reg[b].state) ∧
    condition (loaded s) b .cleanDue = cleanDue (loaded s).clean[b].hygiene ∧
    condition (loaded s) b .rinseOwed = (loaded s).clean[b].hygiene.rinseOwed ∧
    condition (loaded s) b .detergentLow = detergentLow (loaded s).clean[b].hygiene := by
  obtain ⟨hcommission, hsettled, hstate⟩ := released_bay (loadStore s) b
  unfold loaded
  generalize (loadStore s).each allBays releaseSettled = u at hcommission hsettled hstate ⊢
  obtain ⟨hreg, hlow, howed, hdue⟩ := reported_bay u b
  rw [hreg]
  exact ⟨hcommission, hsettled, hstate, hdue, howed, hlow⟩

/-- A record that is with its owner stays with it through the load's end. -/
theorem Taken.loaded {on : BayId → Prop} {s t : State} {r : StoreRec} (ht : Touches (.loading on) s t)
    (hc : ∀ b : BayId, t.reg[b].commission = s.reg[b].commission) (h : Taken s r) : Taken t r := by
  cases r with
  | site limit grace idle =>
    rw [Taken, ht.heatSite, ht.runSite]
    exact h
  | quick v => rw [Taken, ht.lib id]; exact h
  | event k e => rw [Taken, ht.settings]; exact h
  | dst d => rw [Taken, ht.clock]; exact h
  | sched n e => rw [Taken, ht.sched id]; exact h
  | commission b c => exact (hc b).trans h
  | hold b k rp =>
    obtain ⟨hhold, hpending⟩ := h
    have hm := ht.hold b id
    simp only [MonBay.mode, Prod.mk.injEq] at hm
    obtain ⟨-, -, hkind, hwait, -⟩ := hm
    exact ⟨hkind.trans hhold, hwait.trans hpending⟩
  | hygiene b x => exact (ht.hygiene b id).trans h
  | recipe n x => rw [Taken, ht.lib id]; exact h
  | header k x => rw [Taken, ht.slots id]; exact h

/-- Settles O16: the reading of a list, and the load's end from what its lists leave. -/
theorem loadEndPlacesStartupFirst : Obligations.LoadEndPlacesStartupFirst := by
  refine ⟨fun p l => ⟨readPartition_isPrefix p l, readPartition_ok p l, loadResult_eq p l, fun r rest h => readPartition_stops p l h⟩, fun s c hc => ?_⟩
  have hplaced := loadStore_placed s
  have htouch := loaded_touches s
  have htaken : ∀ r ∈ readOf s .profile ++ readOf s .hygiene ++ readOf s .headers, Taken (loaded s) r := fun r hr =>
    (loadStore_taken hr).loaded htouch fun b => (loaded_bay s b).1
  have hlib := loadStore_library s
  have hclock := loadStore_clock s
  have hdst : (loaded s).clock.rule.enabled = false → (loaded s).clock.inDst = false ∧ (loaded s).clock.secondPass = false := by
    rw [htouch.clock, hclock]
    exact settleDst_disabled
  have hnotice : startupNotice c (loaded s) = startupNotice c s := by
    obtain ⟨hp, hh, hl, hs⟩ := hplaced.lists
    unfold startupNotice State.sec
    rw [htouch.now, hplaced.now, htouch.store id, hp, hh, hl, hs, htouch.clock, hplaced.clock.2]
    rfl
  have hprofile : ∀ n, (∀ r ∈ readPartition .profile s.store.profile, r.pos ≠ n) → ¬ loadedPlaces s (.profile, n) :=
    fun n h ⟨r, hr, hq⟩ => h r hr (congrArg Prod.snd hq).symm
  have hhygiene : ∀ n, (∀ r ∈ readPartition .hygiene s.store.hygiene, r.pos ≠ n) → ¬ loadedPlaces s (.hygiene, n) :=
    fun n h ⟨r, hr, hq⟩ => h r hr (congrArg Prod.snd hq).symm
  have hheaders : ∀ n, (∀ r ∈ readPartition .headers s.store.headers, r.pos ≠ n) → ¬ loadedPlaces s (.headers, n) :=
    fun n h ⟨r, hr, hq⟩ => h r hr (congrArg Prod.snd hq).symm
  have hbay := loaded_bay s
  have hlimit : (loaded s).heat.limit = (loadStore s).heat.limit ∧ (loaded s).heat.idleTime = (loadStore s).heat.idleTime := by
    rw [htouch.heatSite]
    exact ⟨rfl, rfl⟩
  have hgrace := htouch.runSite
  have hevents := htouch.settings
  have hmode := fun b : BayId => htouch.hold b id
  have hclean := fun b : BayId => htouch.hygiene b id
  have hlibrary := htouch.lib id
  have hsched := htouch.sched id
  have hslots := htouch.slots id
  have hcal := htouch.clock
  refine completes_event (by rw [hc]; nofun) rfl fun tx sent => ?_
  rw [endLoad_of_loading hc, beginWrite_lists, hnotice]
  generalize loadStore s = u at *
  generalize loaded s = v at *
  have hlib' : v.lib.index = u.lib.index ∧ v.lib.free = u.lib.free ∧ v.lib.quick = u.lib.quick := by
    rw [hlibrary]
    exact ⟨rfl, rfl, rfl⟩
  obtain ⟨hindex, hfree, hquick⟩ := hlib'
  refine ⟨rfl, ⟨v.host.notices, rfl⟩, htaken, hindex.trans hlib.1, hfree.trans hlib.2, fun h => ?_, fun h => hquick.trans (hplaced.quick (hprofile _ h)),
    fun h => (congrArg Backup.rule hcal).trans (hplaced.dst (hprofile _ h)), hdst, (congrArg Backup.cal hcal).trans hplaced.clock.1,
    (congrArg Backup.valid hcal).trans hplaced.clock.2, fun k h => (congrArg (·[k]) hevents).trans (hplaced.events k (hprofile _ h)),
    fun n h => (congrArg (fun x : Schedule => x.entries[n]) hsched).trans (hplaced.sched n (hprofile _ h)), fun b => ?_,
    fun k h => (congrArg (·[k]) hslots).trans (hplaced.headers k (hheaders _ h))⟩
  · obtain ⟨hl, hi, hg⟩ := hplaced.site (hprofile _ h)
    exact ⟨hlimit.1.trans hl, hlimit.2.trans hi, hgrace.trans hg⟩
  · obtain ⟨hcommission, hsettled, hstate, hdue, howed, hlow⟩ := hbay b
    obtain ⟨hst, hset⟩ := hplaced.state b
    have hm := hmode b
    simp only [MonBay.mode, Prod.mk.injEq] at hm
    obtain ⟨-, -, hkind, hwait, -⟩ := hm
    refine ⟨fun h => hcommission.trans (hplaced.commission b (hprofile _ h)), fun h => ?_, fun h => (hclean b).trans (hplaced.hygiene b (hhygiene _ h)),
      hdue, howed, hlow, fun h => hsettled (hset.trans h), fun h => (hstate (hset.trans h)).trans hst⟩
    obtain ⟨hh, hw⟩ := hplaced.hold b (hprofile _ h)
    exact ⟨hkind.trans hh, hwait.trans hw⟩

end Sys2Proof.Machine


/-! The installation of recipe revisions, by a load (R51, R55) and by an import (R60-R62). -/

namespace Sys2Proof.Machine
set_option Elab.async false

open Sys2Proof

/-! ## The index -/

/-- R50: an entry that is put in its place is found under its number. -/
theorem entryFor_insertEntry (e : Entry) (l : List Entry) : entryFor (insertEntry e l) e.number = some e := by
  induction l with
  | nil => simp [insertEntry, entryFor]
  | cons x l ih =>
    rw [insertEntry]
    split
    · simp [entryFor]
    · split
      · simp [entryFor]
      next hne =>
        rw [entryFor, List.find?_cons_of_neg (by simpa using fun h => hne h.symm)]
        exact ih

theorem entryFor_removeEntry (n : Nat) (l : List Entry) : entryFor (removeEntry n l) n = none := by
  rw [entryFor, List.find?_eq_none]
  intro x hx
  simpa [removeEntry] using (List.mem_filter.1 hx).2

theorem entryFor_number {l : List Entry} {n : Nat} {e : Entry} (h : entryFor l n = some e) : e.number = n := by
  unfold entryFor at h
  simpa using List.find?_some h

/-! ## What a replacement comes to (R51) -/

/-- R51: the new entry of a number that has none. -/
def newEntry (number : Nat) (r : Revision) : Entry := { number := number, cur := r, pins := 0, retired := none, withdrawn := false }

/-- R51: an entry whose unpinned revision has been replaced. -/
def Entry.replacedBy (e : Entry) (r : Revision) : Entry := { e with cur := r, withdrawn := false }

/-- R51: an entry whose pinned revision has been retired. -/
def Entry.retiredBy (e : Entry) (r : Revision) : Entry := { e with cur := r, pins := 0, retired := some { rev := e.cur, pins := e.pins }, withdrawn := false }

section
variable {l : List Entry} {number : Nat} {r : Revision} {e : Entry}

theorem install_new (h : entryFor l number = none) : judgeInstall l number r = .new ∧ installedEntry l number r = (newEntry number r, 0) := by
  rw [judgeInstall, installedEntry, h]
  exact ⟨rfl, rfl⟩

theorem install_stale (h : entryFor l number = some e) (hr : r.revision ≤ e.cur.revision) : judgeInstall l number r = .stale := by
  rw [judgeInstall, h]
  exact if_pos hr

theorem install_replaced (h : entryFor l number = some e) (hr : e.cur.revision < r.revision) (hp : e.pins = 0) :
    judgeInstall l number r = .replaced ∧ installedEntry l number r = (e.replacedBy r, e.cur.size) := by
  rw [judgeInstall, installedEntry, h]
  dsimp only
  rw [if_neg (not_le.2 hr), if_pos hp, if_pos hp]
  exact ⟨rfl, rfl⟩

theorem install_retired (h : entryFor l number = some e) (hr : e.cur.revision < r.revision) (hp : 0 < e.pins) (hn : e.retired = none) :
    judgeInstall l number r = .retired e.cur.revision ∧ installedEntry l number r = (e.retiredBy r, 0) := by
  rw [judgeInstall, installedEntry, h]
  dsimp only
  rw [if_neg (not_le.2 hr), if_neg hp.ne', if_neg hp.ne', if_pos (by rw [hn]; rfl)]
  exact ⟨rfl, rfl⟩

theorem install_busy (h : entryFor l number = some e) (hr : e.cur.revision < r.revision) (hp : 0 < e.pins) (hn : e.retired ≠ none) :
    judgeInstall l number r = .busy := by
  rw [judgeInstall, h]
  dsimp only
  rw [if_neg (not_le.2 hr), if_neg hp.ne', if_neg (by simpa using hn)]

theorem installedEntry_number : (installedEntry l number r).1.number = number := by
  unfold installedEntry
  split
  · rfl
  next e h =>
    have hnum := entryFor_number h
    split <;> exact hnum

end

/-- R51: the Library once a revision has been installed. -/
def State.withInstalled (e : Entry) (freed : Nat) (number : Nat) (r : Revision) (s : State) : State :=
  { s with
    lib := { s.lib with index := insertEntry e s.lib.index, free := s.lib.free + freed, reserved := s.lib.reserved - r.steps.length }
    store := (storePut (.recipe number r) s).store }

theorem storePut_withLib (r : StoreRec) (L : Library) (s : State) :
    storePut r { s with lib := L } = { s with lib := L, store := (storePut r s).store } :=
  (storePut_eq_withStore r _).trans (congrArg (fun w : Store => ({ s with lib := L, store := w } : State))
    (storePut_store_congr (s := s) (t := { s with lib := L }) rfl rfl r))

theorem install_of_ok {number : Nat} {r : Revision} {s : State} (h : (judgeInstall s.lib.index number r).ok = true) {e : Entry} {freed : Nat}
    (he : installedEntry s.lib.index number r = (e, freed)) : install number r s = s.withInstalled e freed number r := by
  rw [install, if_pos h]
  dsimp only
  rw [he, storePut_withLib]
  rfl

theorem install_of_refused {number : Nat} {r : Revision} {s : State} (h : (judgeInstall s.lib.index number r).ok = false) : install number r s =
    { s with lib := { s.lib with free := s.lib.free + r.steps.length, reserved := s.lib.reserved - r.steps.length } } :=
  if_neg (by rw [h]; decide)

/-! ## The last step of a load -/

section
variable {s : State} {l : Load} {f : List Txt} {st : Step}

/-- R55: the revision that the last step of a load completes. -/
def Load.whole (l : Load) (st : Step) : Revision := { l.head with steps := l.head.steps ++ [st] }

/-- R55: the load is closed before its revision is judged. -/
def loadTaken (s : State) : State := { s with lib := { s.lib with load := none } }

theorem recipeStep_last (h : s.lib.load = some l) (hp : parseRecipeStep f = some (l.next, some st)) (hst : stepOk l.head.probe st = true)
    (hn : l.count ≤ l.next) : serveRecipeStep f s =
      installReply l.next l.number (l.whole st).revision (judgeInstall s.lib.index l.number (l.whole st)) (install l.number (l.whole st) (loadTaken s)) := by
  rw [recipeStep_in_range h hp hst, takeStep, if_neg (not_lt.2 hn)]
  rfl

/-- R55: the last step of a load installs its revision. -/
theorem recipeStep_installs (hs : Listening s) (h : s.lib.load = some l) (hp : parseRecipeStep f = some (l.next, some st))
    (hst : stepOk l.head.probe st = true) (hn : l.count ≤ l.next) {i : Installed} (hi : judgeInstall s.lib.index l.number (l.whole st) = i)
    (hok : i.ok = true) {e : Entry} {freed : Nat} (he : installedEntry s.lib.index l.number (l.whole st) = (e, freed)) (outcome : List Tok)
    (hreply : ∀ u, installReply l.next l.number (l.whole st).revision i u =
      okay .recipeStep ([.num l.next, wd "INSTALLED", .num l.number, .num (l.whole st).revision] ++ outcome) u) :
    Completes (.recipeStep f) s (fun t =>
      entryFor t.lib.index l.number = some e ∧ t.lib.load = none ∧ t.lib.free = s.lib.free + freed ∧
      t.lib.reserved = s.lib.reserved - (l.whole st).steps.length ∧
      t.host.inHand = some (.ok .recipeStep ([.num l.next, wd "INSTALLED", .num l.number, .num (l.whole st).revision] ++ outcome)) ∧
      HandedOver s t (.recipe l.number (l.whole st)) ∧ t = { s with lib := t.lib, store := t.store, host := t.host }) := by
  have hserved : serveVerb .recipeStep f s = (install l.number (l.whole st) (loadTaken s),
      .ok .recipeStep ([.num l.next, wd "INSTALLED", .num l.number, .num (l.whole st).revision] ++ outcome)) := by
    refine (recipeStep_last h hp hst hn).trans ?_
    rw [hi, hreply]
    rfl
  refine completes_of_answered (answered_of_served hs hserved) ?_
  have hnum := installedEntry_number (l := s.lib.index) (number := l.number) (r := l.whole st)
  rw [he] at hnum
  have hok' : (judgeInstall (loadTaken s).lib.index l.number (l.whole st)).ok = true := by
    show (judgeInstall s.lib.index l.number (l.whole st)).ok = true
    rw [hi, hok]
  have hinstall := install_of_ok hok' he
  have hstore := storePut_store_congr (s := s) (t := loadTaken s) rfl rfl (.recipe l.number (l.whole st))
  rw [hinstall]
  exact ⟨hnum ▸ entryFor_insertEntry e s.lib.index, rfl, rfl, rfl, rfl, hstore, rfl⟩

/-- R55: the last step of a load that is refused returns the slots. -/
theorem recipeStep_refused (hs : Listening s) (h : s.lib.load = some l) (hp : parseRecipeStep f = some (l.next, some st))
    (hst : stepOk l.head.probe st = true) (hn : l.count ≤ l.next) {i : Installed} (hi : judgeInstall s.lib.index l.number (l.whole st) = i)
    (hok : i.ok = false) {why : Reason} (hreply : ∀ u, installReply l.next l.number (l.whole st).revision i u = refuse .recipeStep why u) :
    Answered .recipeStep f s (.no (.verb .recipeStep) why []) { s with lib := { s.lib with
      load := none, free := s.lib.free + (l.whole st).steps.length, reserved := s.lib.reserved - (l.whole st).steps.length } } := by
  refine answered_of_served hs ((recipeStep_last h hp hst hn).trans ?_)
  rw [hi, hreply, install_of_refused (by show (judgeInstall s.lib.index l.number (l.whole st)).ok = false; rw [hi, hok])]
  rfl

end

/-! ## Withdrawal and the quick table -/

theorem recipeWithdraw_served {s : State} {w : Txt} {e : Entry} (hw : number w = some e.number) (hmin : 1 ≤ e.number) (hmax : e.number ≤ 999)
    (he : entryFor s.lib.index e.number = some e) (hn : e.withdrawn = false) : serveRecipeWithdraw [w] s = (withdrawEntry e s,
      .ok .recipeWithdraw (if e.allPins = 0 then [.num e.number, wd "REMOVED"] else [.num e.number, wd "PENDING", .num e.allPins])) := by
  rw [serveRecipeWithdraw, withFields_single hw]
  rw [if_pos ((within_iff _ _ _).2 ⟨hmin, hmax⟩), he, Option.filter_some, if_pos (by rw [hn]; rfl)]
  rfl

theorem withdrawEntry_unpinned {e : Entry} (h : e.allPins = 0) (s : State) :
    withdrawEntry e s = { s with
      lib := { s.lib with index := removeEntry e.number s.lib.index, free := s.lib.free + e.size }, store := (withdrawEntry e s).store } := by
  have hsettle : settleEntry { e with withdrawn := true } s =
      { s with lib := { s.lib with index := removeEntry e.number s.lib.index, free := s.lib.free + e.size } } :=
    if_pos (Bool.and_eq_true_iff.2 ⟨rfl, beq_iff_eq.2 h⟩)
  unfold withdrawEntry
  rw [hsettle]
  exact storeRecord_eq_withStore _ _ _ _

theorem withdrawEntry_pinned {e : Entry} (h : 0 < e.allPins) (s : State) :
    (withdrawEntry e s).lib.index = insertEntry { e with withdrawn := true } s.lib.index := by
  have hsettle : settleEntry { e with withdrawn := true } s = { s with lib := { s.lib with index := insertEntry { e with withdrawn := true } s.lib.index } } :=
    if_neg fun hc => h.ne' (beq_iff_eq.1 (Bool.and_eq_true_iff.1 hc).2)
  unfold withdrawEntry
  rw [hsettle, storeRecord_eq_withStore]

theorem setQuick_served {s : State} {w1 w2 : Txt} {i : Fin 15} {n : Nat} (h1 : number w1 = some (i.val + 1)) (h2 : number w2 = some n) (hn : n ≤ 999) :
    serveSetQuick [w1, w2] s = (storePut (.quick (s.lib.quick.set i n)) { s with lib := { s.lib with quick := s.lib.quick.set i n } },
      .ok .setQuick [.num (i.val + 1), .num n]) := by
  rw [serveSetQuick, withFields_pair h1 h2]
  dsimp only
  rw [dif_pos ⟨Nat.le_add_left 1 _, i.isLt, hn⟩]
  rfl

/-- Settles O29: the last step by what the replacement comes to, the withdrawal by the pins, and the quick table. -/
theorem lastStepInstallsTheRevision : Obligations.LastStepInstallsTheRevision := by
  refine ⟨fun s l f st hs h hp hst hn => ⟨fun hnone => ?_, fun e he => ⟨fun hr => ?_, fun hr => ⟨fun hpins => ?_, fun hpins hret => ?_, fun hpins hret => ?_⟩⟩⟩,
    fun s hs => ⟨fun w e hw hmin hmax he hn => ⟨fun h => ?_, fun h => ?_⟩, fun w1 w2 i n h1 h2 hn => ?_⟩⟩
  · obtain ⟨hi, hentry⟩ := install_new (r := l.whole st) hnone
    exact recipeStep_installs hs h hp hst hn hi rfl hentry _ fun _ => rfl
  · exact recipeStep_refused hs h hp hst hn (install_stale he hr) rfl fun _ => rfl
  · obtain ⟨hi, hentry⟩ := install_replaced (r := l.whole st) he hr hpins
    exact recipeStep_installs hs h hp hst hn hi rfl hentry _ fun _ => rfl
  · obtain ⟨hi, hentry⟩ := install_retired (r := l.whole st) he hr hpins hret
    exact recipeStep_installs hs h hp hst hn hi rfl hentry _ fun _ => rfl
  · exact recipeStep_refused hs h hp hst hn (install_busy he hr hpins hret) rfl fun _ => rfl
  · have hserved := recipeWithdraw_served hw hmin hmax he hn
    rw [if_pos h] at hserved
    refine completes_of_answered (answered_of_served (v := .recipeWithdraw) hs hserved) ?_
    rw [withdrawEntry_unpinned h]
    exact ⟨entryFor_removeEntry _ _, rfl, rfl, rfl⟩
  · have hserved := recipeWithdraw_served hw hmin hmax he hn
    rw [if_neg h.ne'] at hserved
    refine completes_of_answered (answered_of_served (v := .recipeWithdraw) hs hserved) ⟨?_, rfl⟩
    show entryFor (withdrawEntry e s).lib.index e.number = _
    rw [withdrawEntry_pinned h]
    exact entryFor_insertEntry { e with withdrawn := true } _
  · refine completes_of_answered (answered_of_served (v := .setQuick) hs (setQuick_served h1 h2 hn)) ?_
    rw [storePut_withLib]
    exact ⟨rfl, rfl, rfl, rfl⟩

end Sys2Proof.Machine


/-! The import of a recipe set (R60-R62). -/

namespace Sys2Proof.Machine
set_option Elab.async false

open Sys2Proof

theorem libraryImport_served {s : State} {w : Txt} {k : Fin 4} (hw : NamesFour w k) (hst : s.dist.slots[k].header.state = .verified)
    (hk : s.dist.slots[k].header.kind = .recipes) (hl : s.lib.load = none) (hj : s.lib.job = none) :
    serveLibraryImport [w] s =
      (({ s with lib := { s.lib with job := some { slot := k, rest := none, installed := 0, stale := 0, busy := 0 } } } : State).setSlot k
        (fun y => { y with users := y.users + 1 }), .ok .libraryImport [.num (k.val + 1)]) := by
  rw [serveLibraryImport, withFields_single hw, fourOf_val_succ]
  dsimp only
  rw [if_neg (by rw [hst]; decide), if_neg (by rw [hst, hk]; decide), if_neg (by rw [hl, hj]; decide)]
  rfl

/-- R60: what the end of an import leaves, with the Library as `L`. -/
structure ImportEnded (s t : State) (k : Fin 4) (L : Library) (fields : List Tok) : Prop where
  lib : t.lib = { L with job := none }
  store : t.store = s.store
  users : t.dist.slots[k].users = s.dist.slots[k].users - 1
  told : Tells s t .importResult (.num (k.val + 1) :: fields)

theorem endImport_ends (k : Fin 4) (fields : List Tok) (L : Library) (s : State) : ImportEnded s (endImport k fields { s with lib := L }) k L fields := by
  have htells := tells_queueNotice .importResult (.num (k.val + 1) :: fields) (dropUser k { s with lib := { L with job := none } })
  have heq : endImport k fields { s with lib := L } =
    queueNotice .importResult (.num (k.val + 1) :: fields) (dropUser k { s with lib := { L with job := none } }) := rfl
  rw [heq]
  refine ⟨?_, ?_, ?_, htells.since ⟨rfl, rfl, List.prefix_rfl, id⟩⟩
  · rw [queueNotice_withHost]
    rfl
  · rw [queueNotice_withHost]
    rfl
  · rw [queueNotice_withHost]
    exact congrArg Slot.users (upd_same s.dist.slots k _)

/-- The transmitter's part is no matter of an import's end. -/
theorem ImportEnded.sending {s t : State} {k : Fin 4} {L : Library} {fields : List Tok} (h : ImportEnded s t k L fields) (tx : Tx) (sent : List OutLine) :
    ImportEnded s { t with host := { t.host with tx := tx, sent := sent } } k L fields :=
  ⟨h.lib, h.store, h.users, h.told.mono (later_sending t tx sent)⟩

/-! ## Validation -/

section
variable {s : State} {j : Import} (hj : s.lib.job = some j) (hr : j.rest = none)
include hj hr

theorem validateImport_bad {i : Nat} {why : BadRecord}
    (h : readSet (s.store.stagingBytes j.slot 0 s.dist.slots[j.slot].header.length) = .error (i, why)) :
    validateImport s = endImport j.slot [wd "FAILED", .num i, wd why.word] s := by
  obtain ⟨k, rest, installed, stale, busy⟩ := j
  subst hr
  rw [validateImport, hj]
  dsimp only
  rw [h]

theorem validateImport_full {recs : List BundleRecord} {i : Nat}
    (h : readSet (s.store.stagingBytes j.slot 0 s.dist.slots[j.slot].header.length) = .ok recs) (hw : reserveWalk s.lib 1 0 0 recs = .error i) :
    validateImport s = endImport j.slot [wd "FAILED", .num i, wd "FULL"] s := by
  obtain ⟨k, rest, installed, stale, busy⟩ := j
  subst hr
  rw [validateImport, hj]
  dsimp only
  rw [h]
  dsimp only
  rw [hw]

theorem validateImport_reserves {recs : List BundleRecord} {n : Nat}
    (h : readSet (s.store.stagingBytes j.slot 0 s.dist.slots[j.slot].header.length) = .ok recs) (hw : reserveWalk s.lib 1 0 0 recs = .ok n) :
    validateImport s = { s with lib := { s.lib with
      free := s.lib.free - n, reserved := s.lib.reserved + n, job := some { j with rest := some recs } } } := by
  obtain ⟨k, rest, installed, stale, busy⟩ := j
  subst hr
  rw [validateImport, hj]
  dsimp only
  rw [h]
  dsimp only
  rw [hw]
  rfl

end

/-! ## The install pass -/

/-- An import with one record less to come. -/
def Import.after (j : Import) (rest : List BundleRecord) : Import := { j with rest := some rest }

/-- R62: what the taking of one record leaves. -/
def importTaken (rest : List BundleRecord) (t : State × Import) : State :=
  if rest.isEmpty then finishImport t.2 t.1 else { t.1 with lib := { t.1.lib with job := some t.2 } }

theorem importTaken_last (t : State × Import) : importTaken [] t = finishImport t.2 t.1 := rfl

theorem importNext_eq {s : State} {j : Import} {r : BundleRecord} {rest : List BundleRecord} (hj : s.lib.job = some j) (hr : j.rest = some (r :: rest)) :
    importNext s = importTaken rest (installRecord (j.after rest) r s) := by
  obtain ⟨k, l, installed, stale, busy⟩ := j
  subst hr
  rw [importNext, hj]
  rfl

theorem installRecord_installs {j : Import} {r : BundleRecord} {s : State} (h : (judgeInstall s.lib.index r.number r.rev).ok = true) :
    installRecord j r s = (install r.number r.rev s, { j with installed := j.installed + 1 }) := by
  unfold installRecord
  split
  next hj => exact absurd (hj ▸ h) (by decide)
  next hj => exact absurd (hj ▸ h) (by decide)
  next => rfl

theorem finishImport_eq (j : Import) (s : State) : finishImport j s = endImport j.slot [wd "DONE", .num j.installed, .num j.stale, .num j.busy]
    { s with lib := { s.lib with free := s.lib.free + s.lib.reserved, reserved := 0 } } := rfl

/-- R62: the end of an import after its last record. -/
theorem finishImport_ends (j : Import) (s : State) : ImportEnded s (finishImport j s) j.slot { s.lib with free := s.lib.free + s.lib.reserved, reserved := 0 }
    [wd "DONE", .num j.installed, .num j.stale, .num j.busy] := endImport_ends _ _ _ s

/-- R62: a record that is skipped. -/
theorem importRecord_skips {s : State} {j : Import} {r : BundleRecord} {rest : List BundleRecord} (hon : s.phase ≠ .off) (hj : s.lib.job = some j)
    (hr : j.rest = some (r :: rest)) {stale busy : Nat}
    (hskip : installRecord (j.after rest) r s = (s, { j.after rest with stale := stale, busy := busy })) :
    Completes .importRecord s (fun t => t.lib.index = s.lib.index ∧ t.store = s.store ∧
      (rest ≠ [] → t.lib = { s.lib with job := some { j with rest := some rest, stale := stale, busy := busy } }) ∧
      (rest = [] → (t.lib.job = none ∧ t.lib.reserved = 0 ∧ t.dist.slots[j.slot].users = s.dist.slots[j.slot].users - 1 ∧
        Tells s t .importResult [.num (j.slot.val + 1), wd "DONE", .num j.installed, .num stale, .num busy]) ∧
        t.lib.free = s.lib.free + s.lib.reserved)) := by
  refine completes_event hon rfl fun tx sent => ?_
  rw [importNext_eq hj hr, hskip]
  cases rest with
  | nil =>
    have hend := (finishImport_ends { j.after [] with stale := stale, busy := busy } s).sending tx sent
    rw [importTaken_last]
    dsimp only [Import.after] at hend ⊢
    generalize finishImport _ s = u at hend ⊢
    obtain ⟨hlib, hstore, husers, htold⟩ := hend
    refine ⟨?_, hstore, fun h => absurd rfl h, fun _ => ⟨⟨?_, ?_, husers, htold⟩, ?_⟩⟩ <;> rw [hlib]
  | cons x rest => exact ⟨rfl, rfl, fun _ => rfl, nofun⟩

/-- R62: a record that is installed. -/
theorem importRecord_installs {s : State} {j : Import} {r : BundleRecord} {rest : List BundleRecord} (hon : s.phase ≠ .off) (hj : s.lib.job = some j)
    (hr : j.rest = some (r :: rest)) {i : Installed} (hi : judgeInstall s.lib.index r.number r.rev = i) (hok : i.ok = true) {e : Entry} {freed : Nat}
    (he : installedEntry s.lib.index r.number r.rev = (e, freed)) :
    Completes .importRecord s (fun t => entryFor t.lib.index r.number = some e ∧ HandedOver s t (.recipe r.number r.rev) ∧
      (rest ≠ [] → t.lib.job = some { j with rest := some rest, installed := j.installed + 1 } ∧ t.lib.free = s.lib.free + freed ∧
        t.lib.reserved = s.lib.reserved - r.rev.steps.length) ∧
      (rest = [] → (t.lib.job = none ∧ t.lib.reserved = 0 ∧ t.dist.slots[j.slot].users = s.dist.slots[j.slot].users - 1 ∧
        Tells s t .importResult [.num (j.slot.val + 1), wd "DONE", .num (j.installed + 1), .num j.stale, .num j.busy]) ∧
        t.lib.free = s.lib.free + freed + (s.lib.reserved - r.rev.steps.length))) := by
  have hok' : (judgeInstall s.lib.index r.number r.rev).ok = true := by rw [hi, hok]
  have hnum := installedEntry_number (l := s.lib.index) (number := r.number) (r := r.rev)
  rw [he] at hnum
  have hfound : entryFor (insertEntry e s.lib.index) r.number = some e := hnum ▸ entryFor_insertEntry e s.lib.index
  refine completes_event hon rfl fun tx sent => ?_
  rw [importNext_eq hj hr, installRecord_installs hok', install_of_ok hok' he]
  cases rest with
  | nil =>
    have hend := (finishImport_ends { j.after [] with installed := j.installed + 1 } (s.withInstalled e freed r.number r.rev)).sending tx sent
    rw [importTaken_last]
    dsimp only [Import.after] at hend ⊢
    generalize finishImport _ (s.withInstalled e freed r.number r.rev) = u at hend ⊢
    obtain ⟨hlib, hstore, husers, htold⟩ := hend
    refine ⟨?_, hstore, fun h => absurd rfl h, fun _ => ⟨⟨?_, ?_, husers, htold.since ⟨rfl, rfl, List.prefix_rfl, id⟩⟩, ?_⟩⟩
    · rw [hlib]
      exact hfound
    · rw [hlib]
    · rw [hlib]
    · rw [hlib]
      rfl
  | cons x rest => exact ⟨hfound, rfl, fun _ => ⟨rfl, rfl, rfl⟩, nofun⟩

theorem installRecord_stale {j : Import} {r : BundleRecord} {s : State} (h : judgeInstall s.lib.index r.number r.rev = .stale) :
    installRecord j r s = (s, { j with stale := j.stale + 1 }) := by
  rw [installRecord, h]

theorem installRecord_busy {j : Import} {r : BundleRecord} {s : State} (h : judgeInstall s.lib.index r.number r.rev = .busy) :
    installRecord j r s = (s, { j with busy := j.busy + 1 }) := by
  rw [installRecord, h]

/-- Settles O30: the request, the validation by what the set holds, and one record by what its replacement comes to. -/
theorem importsReserveAndInstall : Obligations.ImportsReserveAndInstall := by
  refine fun s => ⟨fun w k hs hw hst hk hl hj => ?_, fun j hon hj hr => ⟨fun recs n h hw => ?_, fun i why h => ?_, fun recs i h hw => ?_⟩,
    fun j r rest hon hj hr => ⟨fun hnone => ?_, fun e he => ⟨fun hrev => ?_, fun hrev => ⟨fun hp => ?_, fun hp hn => ?_, fun hp hn => ?_⟩⟩⟩⟩
  · exact completes_of_answered (answered_of_served (v := .libraryImport) hs (libraryImport_served hw hst hk hl hj)) ⟨rfl, upd_same .., rfl⟩
  · refine completes_whileOn hon rfl ?_
    rw [validateImport_reserves hj hr h hw]
    exact pump_sameButSending _
  · refine completes_event hon rfl fun tx sent => ?_
    rw [validateImport_bad hj hr h]
    obtain ⟨hlib, hstore, husers, htold⟩ := (endImport_ends j.slot [wd "FAILED", .num i, wd why.word] s.lib s).sending tx sent
    exact ⟨hlib, hstore, husers, htold⟩
  · refine completes_event hon rfl fun tx sent => ?_
    rw [validateImport_full hj hr h hw]
    obtain ⟨hlib, hstore, husers, htold⟩ := (endImport_ends j.slot [wd "FAILED", .num i, wd "FULL"] s.lib s).sending tx sent
    exact ⟨hlib, hstore, husers, htold⟩
  · obtain ⟨hi, hentry⟩ := install_new (r := r.rev) hnone
    exact importRecord_installs hon hj hr hi rfl hentry
  · exact importRecord_skips hon hj hr (installRecord_stale (install_stale he hrev))
  · obtain ⟨hi, hentry⟩ := install_replaced (r := r.rev) he hrev hp
    exact importRecord_installs hon hj hr hi rfl hentry
  · obtain ⟨hi, hentry⟩ := install_retired (r := r.rev) he hrev hp hn
    exact importRecord_installs hon hj hr hi rfl hentry
  · exact importRecord_skips hon hj hr (installRecord_busy (install_busy he hrev hp hn))

end Sys2Proof.Machine


/-! The start of a run (R65-R68) and of a cleaning (R117-R120). -/

namespace Sys2Proof.Machine
set_option Elab.async false

open Sys2Proof

/-! ## Runs -/

theorem runCheck_entry {s : State} {b : BayId} {n : Nat} {e : Entry} (h : runCheck s b n = .ok e) : entryFor s.lib.index n = some e := by
  unfold runCheck at h
  split at h
  · exact nomatch h
  split at h
  · exact nomatch h
  unfold admissionCheck at h
  split at h
  · exact nomatch h
  next x hx =>
    split at h
    · exact nomatch h
    split at h
    · exact nomatch h
    split at h
    · exact nomatch h
    cases h
    exact (Option.filter_eq_some_iff.1 hx).1

/-- R66: the record of an admitted run at its creation. -/
def newRun (e : Entry) (s : State) : Run := Run.create (takeRunId s) e.number e.cur s.sec

/-- R66: the bay claimed and the revision pinned for an admitted run, before its step or its wake. -/
def admittedRun (b : BayId) (e : Entry) (s : State) : State :=
  { (pin e.number s).setReg b (fun x => { x with activity := .cook }) with runs :=
    { ((pin e.number s).setReg b (fun x => { x with activity := .cook })).runs with
      runs := upd (pin e.number s).runs.runs b (fun _ => some (newRun e s)), nextId := nextOrderId (takeRunId s) } }

theorem startRun_eq (b : BayId) (e : Entry) (s : State) : startRun b e s =
    if s.reg[b].power = .standby then recompute (wakeCause b ((admittedRun b e s).setRun b (fun x => { x with wakeDue := some (s.sec + 60) })))
    else orderStep b (admittedRun b e s) := rfl

theorem admittedRun_run (b : BayId) (e : Entry) (s : State) : (admittedRun b e s).runs.runs[b] = some (newRun e s) :=
  upd_same (pin e.number s).runs.runs b (fun _ => some (newRun e s))

theorem admittedRun_claim (b : BayId) (e : Entry) (s : State) : (admittedRun b e s).reg[b].activity = .cook :=
  congrArg RegBay.activity (setReg_same (pin e.number s) b _)

theorem pin_entry {s : State} {e : Entry} (h : entryFor s.lib.index e.number = some e) :
    entryFor (pin e.number s).lib.index e.number = some { e with pins := e.pins + 1 } := by
  rw [pin, h]
  exact entryFor_insertEntry { e with pins := e.pins + 1 } _

/-- What the first step of a run, or its wake, may change. -/
def Parts.starting (b : BayId) : Parts := { line := fun _ => True, shares := True, heat := (· = b), run := (· = b), runEnd := (· = b) }

theorem startRun_touches (b : BayId) (e : Entry) (s : State) : Touches (.starting b) (admittedRun b e s) (startRun b e s) := by
  rw [startRun_eq]
  split
  · exact (((Touches.refl _).setRun rfl (.inl rfl)).wakeCause rfl trivial).recompute ⟨trivial, fun _ => trivial⟩
  · exact (Touches.refl _).orderStep ⟨rfl, rfl⟩ ⟨trivial, fun _ => trivial⟩

/-- A run that waits for its first step or its wake, as its start left it. -/
def Run.waitsFrom (r x : Run) : Prop :=
  x.id = r.id ∧ x.number = r.number ∧ x.rev = r.rev ∧ x.state = .starting ∧ x.stepIndex = 1 ∧ x.accepted = false ∧ x.admitted = r.admitted ∧ x.started = none

theorem startRun_run (b : BayId) (e : Entry) (s : State) : ∃ x, (startRun b e s).runs.runs[b] = some x ∧ (newRun e s).waitsFrom x ∧
    (s.reg[b].power = .standby → x.wakeDue = some (s.now / 1000 + 60)) ∧ (s.reg[b].power = .on → x.wakeDue = none) := by
  have hnew := admittedRun_run b e s
  rw [startRun_eq]
  by_cases hp : s.reg[b].power = .standby
  · rw [if_pos hp, recompute_run, wakeCause_eq]
    refine ⟨{ newRun e s with wakeDue := some (s.sec + 60) }, ?_, ⟨rfl, rfl, rfl, rfl, rfl, rfl, rfl, rfl⟩, fun _ => rfl, fun hon => ?_⟩
    · exact (setRun_run _ _ _).trans (by rw [hnew]; rfl)
    · exact nomatch hp.symm.trans hon
  · rw [if_neg hp]
    have hlive : liveRun (admittedRun b e s) b = some (newRun e s) := liveRun_of_live hnew rfl
    cases hstep : (newRun e s).step with
    | none =>
      have hsame : orderStep b (admittedRun b e s) = admittedRun b e s := by
        unfold orderStep
        rw [hlive]
        dsimp only
        rw [hstep]
      rw [hsame]
      exact ⟨_, hnew, ⟨rfl, rfl, rfl, rfl, rfl, rfl, rfl, rfl⟩, fun h => absurd h hp, fun _ => rfl⟩
    | some st =>
      obtain ⟨id, sp, hrun⟩ := orderStep_run hlive hstep
      exact ⟨_, hrun, ⟨rfl, rfl, rfl, rfl, rfl, rfl, rfl, rfl⟩, fun h => absurd h hp, fun _ => rfl⟩

/-- R65: the id that the next run takes is in range and free. -/
theorem takeRunId_free {s : State} (hmin : 1 ≤ s.runs.nextId) (hmax : s.runs.nextId ≤ 255) :
    1 ≤ takeRunId s ∧ takeRunId s ≤ 255 ∧ ∀ (b : BayId) (r : Run), s.runs.runs[b] = some r → r.id ≠ takeRunId s := by
  have hheld : (fun n => (s.runs.runs.toList.filterMap id).any (fun r => r.id = n)) =
      fun n => decide (n ∈ (s.runs.runs.toList.filterMap id).map Run.id) := by
    funext n
    rw [Bool.eq_iff_iff, List.any_eq_true, decide_eq_true_eq, List.mem_map]
    exact exists_congr fun r => and_congr_right fun _ => decide_eq_true_iff
  have hnext : nextOrderId = wrapNext 255 := rfl
  have hlen : ((s.runs.runs.toList.filterMap id).map Run.id).length ≤ 12 := by
    rw [List.length_map]
    exact (List.length_filterMap_le _ _).trans (by simp)
  rw [takeRunId, freeRunId_eq, hnext, hheld]
  have hrange := firstFree_range (held := fun n => decide (n ∈ (s.runs.runs.toList.filterMap id).map Run.id)) (fuel := 12) hmin hmax
  have hfree := firstFree_notMem hmin hmax hlen (by decide)
  refine ⟨hrange.1, hrange.2, fun b r hr heq => hfree ?_⟩
  rw [← heq]
  refine List.mem_map.2 ⟨r, List.mem_filterMap.2 ⟨some r, ?_, rfl⟩, rfl⟩
  rw [← hr]
  exact Vector.mem_toList_iff.2 (Vector.getElem_mem b.isLt)

/-- Settles O31. -/
theorem runStartAdmitsTheRun : Obligations.RunStartAdmitsTheRun := by
  refine ⟨fun s w1 w2 b n e hs hb hn h1 h2 hc => ?_, fun s => takeRunId_free⟩
  have hentry := runCheck_entry hc
  obtain rfl := entryFor_number hentry
  have hserved : serveVerb .runStart [w1, w2] s = (startRun b e s, .ok .runStart
      [bayTok b, .num (takeRunId s), .num e.number, .num e.cur.revision, wd (if s.reg[b].power = .standby then "WAKING" else "ON")]) := by
    rw [runStart_served hb hn h1 h2, hc]
    rfl
  have htouch := startRun_touches b e s
  obtain ⟨x, hx, ⟨hid, hnum, hrev, hst, hstep, hacc, hadm, hstart⟩, hwake, hon⟩ := startRun_run b e s
  have hclaim := (htouch.claim b id).trans (admittedRun_claim b e s)
  have hlib : entryFor (startRun b e s).lib.index e.number = some { e with pins := e.pins + 1 } := by
    rw [htouch.lib id]
    exact pin_entry hentry
  refine completes_of_answered (answered_of_served hs hserved) ?_
  generalize startRun b e s = t at *
  exact ⟨hclaim, hlib, ⟨x, hx, hid, hnum, hrev, hst, hstep, hacc, hadm, hstart, hwake, hon⟩, rfl⟩

/-! ## Cleanings -/

/-- R117: the bay claimed for a cleaning, its record created, before its first phase or its wake. -/
def admittedClean (b : BayId) (p : Program) (o : Origin) (s : State) : State :=
  (s.setReg b (fun r => { r with activity := .clean })).setClean b (fun c => { c with record := some (.create p o s.sec) })

theorem startCleaning_eq (b : BayId) (p : Program) (o : Origin) (s : State) : startCleaning b p o s = recompute (
    if s.reg[b].power = .standby then wakeCause b ((admittedClean b p o s).setCleanRec b (fun c => { c with wakeDue := some (s.sec + 60) }))
    else leaveRequested b (admittedClean b p o s)) := rfl

theorem admittedClean_bay (b : BayId) (p : Program) (o : Origin) (s : State) :
    (admittedClean b p o s).clean[b] = { s.clean[b] with record := some (.create p o s.sec) } := upd_same ..

theorem startCleaning_claim (b : BayId) (p : Program) (o : Origin) (s : State) : (startCleaning b p o s).reg[b].activity = .clean := by
  have hclaim : (admittedClean b p o s).reg[b].activity = .clean := congrArg RegBay.activity (setReg_same s b _)
  rw [startCleaning_eq, (recompute_shared _).claim b id, ← hclaim]
  split
  · rw [wakeCause_eq]
    rfl
  · exact ((Touches.refl (m := { Parts.orders b with cleanEnd := (· = b) }) _).leaveRequested
      ⟨⟨rfl, rfl, rfl, rfl, fun _ => trivial⟩, ⟨rfl, rfl⟩, rfl⟩).claim b id

/-- R120: the record of a cleaning that cools first. -/
theorem enterCooling_record {s : State} {b : BayId} {c : CleanRec} (h : s.clean[b].record = some c) : ∃ id, (enterCooling b s).clean[b].record =
    some { c with state := .cooling, orderedId := id, accepted := false, coolTime := Stopwatch.zero.start s.now } := by
  have hset : (s.setCleanRec b (fun x => { x with state := .cooling, orderedId := none, accepted := false, coolTime := Stopwatch.zero.start s.now })).clean[b].record =
      some { c with state := .cooling, orderedId := none, accepted := false, coolTime := Stopwatch.zero.start s.now } := by
    rw [setCleanRec_record, h]
    rfl
  obtain ⟨i, hi⟩ := record_of_job (t := enterCooling b s) hset (((Touches.refl (m := .orders b) _).placeOrder (b := b) (Parts.orders_orders b)
    (.cleanPhase .cool 1800 0) .cleanPhase).cleanEnd b id)
  exact ⟨i, hi⟩

/-- A cleaning as its start left it, in a state. -/
def CleanRec.begins (p : Program) (o : Origin) (sec : Nat) (st : CleanState) (c : CleanRec) : Prop :=
  c.program = p ∧ c.origin = o ∧ c.started = sec ∧ c.accepted = false ∧ c.outcome = .nothing ∧ c.state = st

theorem leaveRequested_record (b : BayId) (p : Program) (o : Origin) (s : State) : ∃ c, (leaveRequested b (admittedClean b p o s)).clean[b].record = some c ∧
    c.begins p o s.sec (if (s.clean[b].cabinet).any (fun t => 700 < t) then .cooling else p.first) := by
  have hbay := admittedClean_bay b p o s
  have hrec : (admittedClean b p o s).clean[b].record = some (.create p o s.sec) := by rw [hbay]
  have hcab : (admittedClean b p o s).clean[b].cabinet = s.clean[b].cabinet := by rw [hbay]
  have hlive := liveClean_of_live hrec rfl
  unfold leaveRequested
  rw [hlive]
  dsimp only
  rw [hcab]
  split
  · obtain ⟨id, h⟩ := enterCooling_record hrec
    exact ⟨_, h, rfl, rfl, rfl, rfl, rfl, rfl⟩
  · obtain ⟨id, h⟩ := enterPhase_record hlive p.first
    exact ⟨_, h, rfl, rfl, rfl, rfl, rfl, rfl⟩

/-- Settles O40. -/
theorem cleanStartClaimsTheBay : Obligations.CleanStartClaimsTheBay := by
  intro s w1 w2 b p hs hb hp hc
  have hserved : serveVerb .cleanStart [w1, w2] s = (startCleaning b p .host s, .ok .cleanStart
      [bayTok b, wd p.word, wd (if s.reg[b].power = .standby then "WAKING" else "ON")]) := by
    rw [cleanStart_served hb hp, hc]
    rfl
  have hclaim := startCleaning_claim b p .host s
  have hrecord : ∃ c, (startCleaning b p .host s).clean[b].record = some c ∧
      c.program = p ∧ c.origin = .host ∧ c.started = s.now / 1000 ∧ c.accepted = false ∧ c.outcome = .nothing ∧
      (s.reg[b].power = .standby → c.state = .requested ∧ c.wakeDue = some (s.now / 1000 + 60)) ∧
      (s.reg[b].power = .on → (∃ z, s.clean[b].cabinet = some z ∧ 700 < z) → c.state = .cooling) ∧
      (s.reg[b].power = .on → (∀ z, s.clean[b].cabinet = some z → z ≤ 700) → c.state = (if p = .rinse then .rinsing else .washing)) := by
    rw [startCleaning_eq, recompute_record]
    by_cases hpow : s.reg[b].power = .standby
    · have hrec : ((admittedClean b p .host s).setCleanRec b (fun c => { c with wakeDue := some (s.sec + 60) })).clean[b].record =
          some { CleanRec.create p .host s.sec with wakeDue := some (s.sec + 60) } := by
        rw [setCleanRec_record, admittedClean_bay]
        rfl
      rw [if_pos hpow, wakeCause_eq]
      exact ⟨_, hrec, rfl, rfl, rfl, rfl, rfl, fun _ => ⟨rfl, rfl⟩, fun hon => (nomatch hpow.symm.trans hon), fun hon => (nomatch hpow.symm.trans hon)⟩
    · rw [if_neg hpow]
      obtain ⟨c, hrec, hprog, horigin, hstarted, hacc, hout, hst⟩ := leaveRequested_record b p .host s
      refine ⟨c, hrec, hprog, horigin, hstarted, hacc, hout, fun h => absurd h hpow, fun _ ⟨z, hz, hhot⟩ => ?_, fun _ hcool => ?_⟩
      · rw [hst, hz]
        exact if_pos (decide_eq_true hhot)
      · have hnot : ¬ (s.clean[b].cabinet).any (fun t => 700 < t) = true := by
          cases hz : s.clean[b].cabinet with
          | none => exact nofun
          | some z => exact fun h => absurd (of_decide_eq_true h) (not_lt.2 (hcool z hz))
        rw [hst, if_neg hnot]
        cases p <;> rfl
  refine completes_of_answered (answered_of_served hs hserved) ?_
  generalize startCleaning b p .host s = t at *
  exact ⟨hclaim, hrecord, rfl⟩

end Sys2Proof.Machine


/-! The Schedule Table: entries, the opening and closing of windows, and the look-ahead (R110, R132, R142-R146). -/

namespace Sys2Proof.Machine
set_option Elab.async false

open Sys2Proof

variable {s t : State} {b : BayId} {n : Fin 24}

/-! ## The windows that stand -/

/-- What the effects of a window may change: all but the Schedule Table. -/
def Parts.effecting : Parts := { Parts.all with sched := False }

theorem Parts.effecting_start (b : BayId) : Parts.effecting.StartClean b :=
  ⟨trivial, ⟨⟨trivial, trivial, trivial, trivial, fun _ => trivial⟩, trivial, trivial⟩, trivial, ⟨trivial, fun _ => trivial⟩⟩

theorem openEffects_sched (n : Fin 24) (e : SchedEntry) (s : State) : (openEffects n e s).sched = s.sched := by
  have hwake : Touches .effecting s (s.each e.mask wakeCause) :=
    (Touches.refl s).each _ _ fun b _ u => (Touches.refl u).wakeCause trivial trivial
  unfold openEffects
  split
  · dsimp only
    split
    · exact (hwake.each _ _ fun b _ u => (Touches.refl u).windowClean (Parts.effecting_start b) trivial ⟨trivial, trivial⟩ _ _ _).sched id
    · exact hwake.sched id
  · exact ((Touches.refl (m := .effecting) s).retryPasses
      ⟨⟨fun _ => trivial, fun _ => trivial, trivial, fun _ => trivial, ⟨trivial, fun _ => trivial⟩⟩, fun _ => trivial⟩ none).sched id
  · exact hwake.sched id

theorem closeEffect_touches (k : WindowKind) (b : BayId) (s : State) : Touches .effecting s (closeEffect k b s) := by
  unfold closeEffect
  split
  · exact ((Touches.refl s).cleanWindowLeft trivial ⟨trivial, trivial⟩).examineStandby trivial trivial
  · exact (Touches.refl s).windowMissed (fun _ => trivial) (fun _ => trivial) trivial trivial trivial
  · exact (Touches.refl s).examineStandby trivial trivial

/-- The windows of the other entries. -/
def Schedule.without (x : Schedule) (n : Fin 24) : Schedule := { x with windows := x.windows.filter (fun y => y.entry ≠ n) }

/-- The notice of a window's close, before its effects. -/
def closedWindow (n : Fin 24) (k : WindowKind) (cause : String) (s : State) : State :=
  queueNotice .windowClose [.num (n.val + 1), wd k.word, wd cause] { s with sched := s.sched.without n }

theorem windowOpen_eq_false_iff : windowOpen s n = false ↔ windowOf s n = none := by
  rw [windowOpen, windowOf, List.any_eq_false, List.find?_eq_none]

theorem closeEntryWindow_of_none (h : windowOf s n = none) (cause : String) : closeEntryWindow n cause s = s := by
  unfold closeEntryWindow
  rw [h]

theorem closeEntryWindow_of_some {x : OpenWindow} (h : windowOf s n = some x) (cause : String) : closeEntryWindow n cause s =
    (closedWindow n x.kind cause s).each (x.mask.filter (fun b => !covered (closedWindow n x.kind cause s) x.kind b)) (closeEffect x.kind) := by
  unfold closeEntryWindow
  rw [h]
  rfl

theorem closing_touches {x : OpenWindow} (h : windowOf s n = some x) (cause : String) :
    Touches .effecting (closedWindow n x.kind cause s) (closeEntryWindow n cause s) := by
  rw [closeEntryWindow_of_some h]
  exact (Touches.refl _).each _ _ fun b _ u => closeEffect_touches _ b u

theorem closeEntryWindow_sched (cause : String) : (closeEntryWindow n cause s).sched = s.sched.without n := by
  cases h : windowOf s n with
  | none =>
    rw [closeEntryWindow_of_none h]
    have hall : s.sched.windows.filter (fun y => y.entry ≠ n) = s.sched.windows :=
      List.filter_eq_self.2 fun y hy => decide_eq_true (of_decide_eq_false (Bool.eq_false_of_not_eq_true (List.find?_eq_none.1 h y hy)))
    rw [Schedule.without, hall]
  | some x =>
    refine ((closing_touches h cause).sched id).trans ?_
    rw [closedWindow, queueNotice_withHost]

theorem tells_closeEntryWindow {x : OpenWindow} (h : windowOf s n = some x) (cause : String) :
    Tells s (closeEntryWindow n cause s) .windowClose [.num (n.val + 1), wd x.kind.word, wd cause] :=
  Tells.mono (u := closedWindow n x.kind cause s) ((tells_queueNotice _ _ _).since ⟨rfl, rfl, List.prefix_rfl, id⟩) (closing_touches h cause).later

/-! ## Entries -/

theorem scheduleSet_served {f : List Txt} {e : SchedEntry} (hf : parseSchedule f = some (n.val + 1, some e)) (hok : entryOk e = true) (s : State) :
    serveVerb .scheduleSet f s = okay .scheduleSet (.num (n.val + 1) :: closedToks s n) (rewriteEntry n e s) := by
  show serveScheduleSet f s = _
  rw [serveScheduleSet, withFields_of_parse hf]
  dsimp only
  rw [entryOf_val_succ]
  dsimp only
  rw [if_pos hok]

/-- What the rewriting of an entry changes after its window is closed and the entry set. -/
theorem rewriteEntry_touches (n : Fin 24) (e : SchedEntry) (s : State) :
    Touches .effecting (setEntry n (some e) (closeEntryWindow n "REWRITTEN" s)) (rewriteEntry n e s) := by
  unfold rewriteEntry entryChanged
  generalize setEntry n (some e) (closeEntryWindow n "REWRITTEN" s) = u
  exact (((Touches.refl u).storePut trivial _).dropDue (fun _ => trivial) n).lookAheadAll (fun _ => trivial) fun _ => trivial

theorem rewriteEntry_sched (n : Fin 24) (e : SchedEntry) (s : State) :
    (rewriteEntry n e s).sched = { s.sched.without n with entries := upd s.sched.entries n (fun _ => some e) } := by
  rw [(rewriteEntry_touches n e s).sched id, setEntry, closeEntryWindow_sched]
  rfl

theorem upd_eq_set {α : Type} {k : Nat} (v : Vector α k) (i : Fin k) (a : α) : upd v i (fun _ => a) = v.set i a := by
  ext j hj
  have hupd := upd_get v i ⟨j, hj⟩ (fun _ => a)
  rw [Vector.getElem_set]
  refine hupd.trans ?_
  simp only [Fin.ext_iff, eq_comm]
  rfl

/-! ## Openings -/

/-- A window that has been opened and told, before its effects. -/
def openedWindow (n : Fin 24) (e : SchedEntry) (s : State) : State :=
  queueNotice .windowOpen [.num (n.val + 1), wd e.kind.word, .num (s.now / 1000 + e.duration * 60)]
    { s with sched := { s.sched with windows := s.sched.windows ++
      [⟨n, e.kind, e.mask, e.program, e.threshold, s.now / 1000, s.now / 1000 + e.duration * 60⟩] } }

theorem openWindow_eq (n : Fin 24) (e : SchedEntry) (s : State) : openWindow n e s = openEffects n e (openedWindow n e s) := rfl

/-- The idle reference of a bay is the present second. -/
def UsedNow (b : BayId) (s : State) : Prop := s.heat.bays[b].idleRef = some s.sec

theorem idleRef_kept (h : t.heat.bays[b].usage = s.heat.bays[b].usage) : t.heat.bays[b].idleRef = s.heat.bays[b].idleRef := by
  simp only [HeatBay.usage, Prod.mk.injEq] at h
  obtain ⟨-, href, -⟩ := h
  exact href

theorem usedNow_wakeCause (b : BayId) (s : State) : UsedNow b (wakeCause b s) := by
  rw [UsedNow, wakeCause_heat, wakeCause_eq]
  rfl

/-- What only a sign of use of a bay may change of the idle references. -/
def Parts.using (b : BayId) : Parts := { Parts.all with heat := (· = b) }

theorem UsedNow.touched {m : Parts} (hu : UsedNow b s) (h : Touches m s t) (hb : ¬ m.heat b) : UsedNow b t := by
  rw [UsedNow, idleRef_kept (h.heat b hb), hu, State.sec, State.sec, h.now]

theorem UsedNow.wakeCause {s : State} (h : UsedNow b s) (d : BayId) : UsedNow b (wakeCause d s) := by
  by_cases hd : b = d
  · exact hd ▸ usedNow_wakeCause b s
  · exact h.touched ((Touches.refl (m := .using d) s).wakeCause rfl trivial) hd

theorem usedNow_each_wakeCause {mask : List BayId} (h : b ∈ mask) (s : State) : UsedNow b (s.each mask wakeCause) := by
  obtain ⟨before, after, hl⟩ := List.append_of_mem h
  rw [each_split _ hl]
  exact State.each_keeps (UsedNow b) after Machine.wakeCause (fun d _ hu => hu.wakeCause d) _ (usedNow_wakeCause b _)

/-- What the start of a cleaning changes where no wake is asked for. -/
def Parts.washing (b : BayId) : Parts := { Parts.all with heat := fun _ => False, claim := (· = b), cleaning := (· = b) }

theorem Parts.washing_work (b : BayId) : (Parts.washing b).CleanWork b := ⟨⟨trivial, trivial, trivial, rfl, fun _ => trivial⟩, trivial, trivial⟩

theorem UsedNow.startCleaning {s : State} (h : UsedNow b s) (d : BayId) (p : Program) (o : Origin) : UsedNow b (startCleaning d p o s) := by
  have hrec : ∀ u, UsedNow b u → UsedNow b (recompute u) := fun u hu => hu.touched (recompute_shared u) id
  have hadm : UsedNow b (admittedClean d p o s) := h
  rw [startCleaning_eq]
  refine hrec _ ?_
  split
  · exact UsedNow.wakeCause (s := (admittedClean d p o s).setCleanRec d _) hadm d
  · exact hadm.touched ((Touches.refl _).leaveRequested (Parts.washing_work d)) id

theorem UsedNow.windowClean {s : State} (h : UsedNow b s) (n : Fin 24) (p : Program) (threshold : Nat) (d : BayId) :
    UsedNow b (windowClean n p threshold d s) := by
  have hreport : UsedNow b (report d .cleanWindowMissed s) :=
    h.touched ((Touches.refl (m := .washing d) s).report ⟨trivial, trivial⟩ _) id
  unfold Machine.windowClean
  split
  · exact h
  · split
    · exact h.startCleaning d p _
    · exact h
    · exact hreport
    · exact hreport
    · exact h

/-- R145, R111: an opening is a sign of use of each bay of its mask, but for an UPDATE window's. -/
theorem openEffects_used {e : SchedEntry} (hk : e.kind ≠ .update) (h : b ∈ e.mask) (s : State) : UsedNow b (openEffects n e s) := by
  have hwoken := usedNow_each_wakeCause h s
  unfold openEffects
  split
  · dsimp only
    split
    · exact State.each_keeps (UsedNow b) e.mask _ (fun d _ hu => hu.windowClean n _ _ d) _ hwoken
    · exact hwoken
  · next hup => exact absurd hup hk
  · exact hwoken

theorem openWindow_does (n : Fin 24) (e : SchedEntry) (s : State) :
    (openWindow n e s).sched = { s.sched with windows := s.sched.windows ++
      [⟨n, e.kind, e.mask, e.program, e.threshold, s.now / 1000, s.now / 1000 + e.duration * 60⟩] } ∧
    Tells s (openWindow n e s) .windowOpen [.num (n.val + 1), wd e.kind.word, .num (s.now / 1000 + e.duration * 60)] ∧
    (e.kind ≠ .update → ∀ b ∈ e.mask, (openWindow n e s).heat.bays[b].idleRef = some (s.now / 1000)) := by
  have htouch : Changes (openedWindow n e s) (openWindow n e s) := (Touches.refl _).openEffects Parts.all_windows n e
  have hnow : (openWindow n e s).now = s.now := by
    rw [htouch.now, openedWindow, queueNotice_withHost]
  have htells : Tells s (openedWindow n e s) .windowOpen [.num (n.val + 1), wd e.kind.word, .num (s.now / 1000 + e.duration * 60)] :=
    (tells_queueNotice _ _ _).since ⟨rfl, rfl, List.prefix_rfl, id⟩
  refine ⟨?_, htells.mono htouch.later, fun hk b hb => ?_⟩
  · rw [openWindow_eq, openEffects_sched, openedWindow, queueNotice_withHost]
  · have hused : UsedNow b (openWindow n e s) := openEffects_used hk hb _
    rw [UsedNow, State.sec, hnow] at hused
    exact hused

theorem matchEntry_opens {c : Calendar} {e : SchedEntry} (h : s.sched.entries[n] = some e) (hen : e.enabled = true) (hopen : windowOpen s n = false)
    (hnames : e.names c = true) : matchEntry c n s = openWindow n e s := by
  unfold matchEntry
  rw [h]
  dsimp only
  rw [hen, hopen, hnames]
  rfl

theorem matchEntry_passes {c : Calendar} (h : ∀ e, s.sched.entries[n] = some e → e.enabled = false ∨ windowOpen s n = true ∨ e.names c = false) :
    matchEntry c n s = s := by
  unfold matchEntry
  cases he : s.sched.entries[n] with
  | none => rfl
  | some e =>
    refine if_neg fun hc => ?_
    simp only [Bool.and_eq_true, Bool.not_eq_true'] at hc
    obtain ⟨⟨hen, hopen⟩, hnames⟩ := hc
    obtain hno | hno | hno := h e he
    · exact nomatch hen.symm.trans hno
    · exact nomatch hopen.symm.trans hno
    · exact nomatch hnames.symm.trans hno

/-! ## The effects of a closing -/

theorem closeEffect_clean_none (h : s.clean[b].pendingWindow = none) : (closeEffect .clean b s).clean = s.clean := by
  have hstay : cleanWindowLeft b s = s := by
    unfold cleanWindowLeft
    rw [h]
  obtain ⟨-, -, -, hclean, -⟩ := examineStandby_frame b (cleanWindowLeft b s)
  exact hclean.trans (by rw [hstay])

theorem closeEffect_clean_some (h : s.clean[b].pendingWindow ≠ none) : (closeEffect .clean b s).clean[b] = { s.clean[b] with pendingWindow := none } ∧
    (closeEffect .clean b s).mon.bays[b].latches[EventKind.cleanWindowMissed.slot].set = true := by
  have hleft : cleanWindowLeft b s = report b .cleanWindowMissed (s.setClean b (fun c => { c with pendingWindow := none })) := by
    unfold cleanWindowLeft
    cases hp : s.clean[b].pendingWindow with
    | none => exact absurd hp h
    | some _ => rfl
  obtain ⟨hmon, -, -, hclean, -⟩ := examineStandby_frame b (cleanWindowLeft b s)
  have hmon : (closeEffect .clean b s).mon = (cleanWindowLeft b s).mon := hmon
  have hclean : (closeEffect .clean b s).clean = (cleanWindowLeft b s).clean := hclean
  rw [hmon, hclean, hleft]
  refine ⟨?_, report_sets b _ _⟩
  rw [show report b .cleanWindowMissed (s.setClean b _) = _ from latch_monitorOnly b _ false _]
  exact upd_same ..

/-- The entry of a bay waits on a channel for a window. -/
def Channel.missable (x : Channel) (b : BayId) : Prop := x.state = .running ∧ x.windowRequired = true ∧ (x.progress[b]).waiting = true

/-- R175: what the loss of the last UPDATE window makes of one channel. -/
def missChannel (b : BayId) (c : Fin 4) (s : State) : State :=
  if s.dist.channels[c].state = .running ∧ s.dist.channels[c].windowRequired = true ∧ (s.dist.channels[c].progress[b]).waiting = true then
    judgeDone c (endWaiting c b .missed s)
  else s

theorem windowMissed_eq (b : BayId) (s : State) : windowMissed b s = s.each allFour (missChannel b) := rfl

/-- What the end of a waiting entry of a channel may change. -/
def Parts.missing (c : Fin 4) : Parts :=
  { flow := (· = c), chan := (· = c), opens := fun _ => True, slots := True, heat := fun _ => True, line := fun _ => True }

theorem missChannel_touches (b : BayId) (c : Fin 4) (s : State) : Touches (.missing c) s (missChannel b c s) := by
  unfold missChannel
  split
  · exact ((Touches.refl s).endWaiting rfl rfl trivial trivial (.inl trivial) _).judgeDone rfl rfl trivial
  · exact .refl s

theorem missChannel_elsewhere {c d : Fin 4} (h : d ≠ c) : (missChannel b c s).dist.channels[d] = s.dist.channels[d] :=
  (missChannel_touches b c s).flow d h

theorem judgeDone_progress (c : Fin 4) (s : State) : (judgeDone c s).dist.channels[c].progress = s.dist.channels[c].progress := by
  unfold judgeDone
  dsimp only
  split
  · rw [queueNotice_withHost]
    exact (upd_view Channel.progress s.dist.channels c c _ rfl)
  · rfl

theorem transferNotice_dist (c : Fin 4) (b : BayId) (p : Progress) (s : State) : (transferNotice c b p s).dist = s.dist := by
  unfold transferNotice
  rw [queueNotice_withHost]

theorem endWaiting_channel (c : Fin 4) (b : BayId) (p : Progress) (s : State) :
    (endWaiting c b p s).dist.channels[c] = { s.dist.channels[c] with progress := upd s.dist.channels[c].progress b (fun _ => p) } := by
  obtain ⟨-, -, -, -, hdist⟩ := examineStandby_frame b (settleProgress c b p s)
  rw [endWaiting, hdist, settleProgress, transferNotice_dist]
  exact upd_same ..

theorem tells_endWaiting (c : Fin 4) (b : BayId) (s : State) :
    Tells s (endWaiting c b .missed s) .transfer [.num (c.val + 1), bayTok b, wd "MISSED", wd "NONE"] :=
  (tells_queueNotice _ _ (setProgress c b .missed s)).mono
    ((Touches.refl (m := .missing c) (settleProgress c b .missed s)).examineStandby trivial trivial).later

theorem missChannel_of_missable {c : Fin 4} (h : s.dist.channels[c].missable b) :
    (missChannel b c s).dist.channels[c].progress = upd s.dist.channels[c].progress b (fun _ => .missed) ∧
    Tells s (missChannel b c s) .transfer [.num (c.val + 1), bayTok b, wd "MISSED", wd "NONE"] := by
  rw [missChannel, if_pos (show _ ∧ _ ∧ _ from h)]
  refine ⟨?_, (tells_endWaiting c b s).mono ((Touches.refl (m := .missing c) _).judgeDone rfl rfl trivial).later⟩
  rw [judgeDone_progress, endWaiting_channel]

theorem missed_elsewhere {c : Fin 4} (l : List (Fin 4)) (h : c ∉ l) (s : State) : (s.each l (missChannel b)).dist.channels[c] = s.dist.channels[c] := by
  induction l generalizing s with
  | nil => rfl
  | cons a l ih =>
    obtain ⟨hne, hl⟩ := not_or.1 (List.mem_cons.not.1 h)
    exact (ih hl _).trans (missChannel_elsewhere hne)

theorem missed_later (l : List (Fin 4)) (s : State) : Later s (s.each l (missChannel b)) := by
  induction l generalizing s with
  | nil => exact Later.refl s
  | cons a l ih => exact (missChannel_touches b a s).later.trans (ih _)

/-- R175: what the loss of the last UPDATE window leaves of each channel. -/
theorem windowMissed_channel (b : BayId) (s : State) (c : Fin 4) :
    (s.dist.channels[c].missable b → (windowMissed b s).dist.channels[c].progress = upd s.dist.channels[c].progress b (fun _ => .missed) ∧
      Tells s (windowMissed b s) .transfer [.num (c.val + 1), bayTok b, wd "MISSED", wd "NONE"]) ∧
    (¬ s.dist.channels[c].missable b → (windowMissed b s).dist.channels[c] = s.dist.channels[c]) := by
  obtain ⟨before, after, hl⟩ := List.append_of_mem (List.mem_finRange c)
  have hnodup : (before ++ c :: after).Nodup := hl ▸ List.nodup_finRange 4
  have hbefore : c ∉ before := fun hc => (List.disjoint_of_nodup_append hnodup) hc List.mem_cons_self
  have hafter : c ∉ after := (List.nodup_cons.1 (List.Nodup.of_append_right hnodup)).1
  have heq : windowMissed b s = (missChannel b c (s.each before (missChannel b))).each after (missChannel b) := by
    rw [windowMissed_eq]
    exact each_split _ hl s
  have hthere := missed_elsewhere (b := b) before hbefore s
  have hprior := missed_later (b := b) before s
  rw [heq, missed_elsewhere after hafter]
  generalize s.each before (missChannel b) = u at *
  rw [← hthere]
  refine ⟨fun h => ?_, fun h => ?_⟩
  · obtain ⟨hprog, htells⟩ := missChannel_of_missable h
    exact ⟨hprog, (htells.since hprior).mono (missed_later _ _)⟩
  · exact congrArg (fun x : State => x.dist.channels[c]) (show missChannel b c u = u from if_neg h)

theorem waiting_iff (p : Progress) : p.waiting = true ↔ p = .pending ∨ p = .deferred := by
  cases p <;> simp [Progress.waiting]

/-! ## A CLEAN window over a bay -/

/-- The record of a cleaning at its start. -/
theorem startCleaning_record (b : BayId) (p : Program) (o : Origin) (s : State) :
    ∃ c, (startCleaning b p o s).clean[b].record = some c ∧ c.program = p ∧ c.origin = o := by
  rw [startCleaning_eq, recompute_record]
  split
  · rw [wakeCause_eq]
    refine ⟨{ CleanRec.create p o s.sec with wakeDue := some (s.sec + 60) }, ?_, rfl, rfl⟩
    show ((admittedClean b p o s).setCleanRec b _).clean[b].record = _
    rw [setCleanRec_record, admittedClean_bay]
    rfl
  · obtain ⟨c, hrec, hprog, horigin, -⟩ := leaveRequested_record b p o s
    exact ⟨c, hrec, hprog, horigin⟩

section

variable {p : Program} {threshold : Nat} (h : threshold ≤ s.clean[b].hygiene.soil)
include h

theorem windowClean_starts (hc : cleanCheck s b p = none) : windowClean n p threshold b s = startCleaning b p (.window n) s := by
  rw [windowClean, if_neg (not_lt.2 h), hc]

theorem windowClean_waits (hc : cleanCheck s b p = some .busy) : windowClean n p threshold b s = s.setClean b (fun c =>
    { c with pendingWindow := some (mergePending c.pendingWindow { program := p, entry := n, threshold := threshold }) }) := by
  rw [windowClean, if_neg (not_lt.2 h), hc]

theorem windowClean_missed (hc : cleanCheck s b p = some .held ∨ cleanCheck s b p = some .detergent) :
    windowClean n p threshold b s = report b .cleanWindowMissed s := by
  rw [windowClean, if_neg (not_lt.2 h)]
  obtain hc | hc := hc <;> rw [hc]

theorem windowClean_passes (hc : cleanCheck s b p = some .state ∨ cleanCheck s b p = some .off) : windowClean n p threshold b s = s := by
  rw [windowClean, if_neg (not_lt.2 h)]
  obtain hc | hc := hc <;> rw [hc]

end

/-- An update of a bay's record is told by what it makes of the record that stands. -/
theorem setClean_congr {f g : CleanBay → CleanBay} (h : f s.clean[b] = g s.clean[b]) : s.setClean b f = s.setClean b g := by
  have : upd s.clean b f = upd s.clean b g := by
    ext d hd
    have hf := upd_get s.clean b ⟨d, hd⟩ f
    have hg := upd_get s.clean b ⟨d, hd⟩ g
    refine hf.trans (Eq.trans ?_ hg.symm)
    split
    · next he => exact he ▸ h
    · rfl
  rw [State.setClean, State.setClean, this]

/-! ## The look-ahead -/

theorem lookAhead_heat (b : BayId) (s : State) : (lookAhead b s).heat.bays[b].due = dueEntries s b ∧
    ((∃ n ∈ dueEntries s b, n ∉ s.heat.bays[b].due) → (lookAhead b s).heat.bays[b].idleRef = some (s.now / 1000)) := by
  have hstandby : ∀ u : State, (examineStandby b u).heat.bays[b].due = u.heat.bays[b].due ∧
      (examineStandby b u).heat.bays[b].idleRef = u.heat.bays[b].idleRef := by
    intro u
    cases hf : standbyFails u b with
    | some x => rw [examineStandby_of_some hf]; exact ⟨rfl, rfl⟩
    | none =>
      rw [examineStandby_of_none hf, placeOrder_heat, State.setHeat_heat, upd_same]
      exact ⟨rfl, rfl⟩
  have hset : (s.setHeat b (fun h => { h with due := dueEntries s b })).heat.bays[b] = { s.heat.bays[b] with due := dueEntries s b } := by
    rw [State.setHeat_heat, upd_same]
  unfold lookAhead
  dsimp only
  rw [(hstandby _).1, (hstandby _).2]
  split
  · rw [wakeCause_heat, hset]
    exact ⟨rfl, fun _ => rfl⟩
  · next hnew =>
    rw [hset]
    refine ⟨rfl, fun ⟨n, hn, hold⟩ => absurd ?_ hnew⟩
    exact List.any_eq_true.2 ⟨n, hn, by simpa using hold⟩

theorem mem_dueEntries : n ∈ dueEntries s b ↔ s.clock.valid = true ∧ windowOpen s n = false ∧ ∃ e, s.sched.entries[n] = some e ∧
    e.enabled = true ∧ e.kind ≠ .update ∧ b ∈ e.mask ∧ ∃ c ∈ minutesFrom s.clock.cal 20, e.names c = true := by
  unfold dueEntries
  split
  · next hv =>
    rw [List.mem_filter]
    cases he : s.sched.entries[n] with
    | none => simp
    | some e =>
      simp only [List.mem_finRange, true_and, Bool.and_eq_true, decide_eq_true_eq, List.contains_iff_mem, Bool.not_eq_true', List.any_eq_true,
        Option.some.injEq, exists_eq_left', hv]
      constructor
      · rintro ⟨⟨⟨⟨hen, hk⟩, hb⟩, hopen⟩, hc⟩
        exact ⟨hopen, hen, hk, hb, hc⟩
      · rintro ⟨hopen, hen, hk, hb, hc⟩
        exact ⟨⟨⟨⟨hen, hk⟩, hb⟩, hopen⟩, hc⟩
  · next hv => exact ⟨nofun, fun h => absurd h.1 hv⟩

theorem names_iff (e : SchedEntry) (c : Calendar) : e.names c = true ↔
    (e.weekday = none ∨ e.weekday = some c.weekday) ∧ (e.hour = none ∨ e.hour = some c.hour) ∧ (e.minute = none ∨ e.minute = some c.minute) := by
  have hany : ∀ (o : Option Nat) (v : Nat), anyOr o v = true ↔ o = none ∨ o = some v := by
    intro o v
    cases o with
    | none => exact ⟨fun _ => .inl rfl, fun _ => rfl⟩
    | some x => simp [anyOr]
  simp only [SchedEntry.names, Bool.and_eq_true, hany, and_assoc]

/-! ## The obligation -/

theorem updateClock_of_boundary (hrun : s.phase = .running) (h : s.clock.update.cal.second = 0) :
    updateClock s = minuteBoundary { s with clock := s.clock.update } := by
  unfold updateClock
  exact if_pos ⟨hrun, h⟩

/-- R142: an entry rewritten. -/
theorem scheduleSet_completes {f : List Txt} {e : SchedEntry} (hs : Listening s) (hf : parseSchedule f = some (n.val + 1, some e)) (hok : entryOk e = true) :
    Completes (.scheduleSet f) s (fun t =>
      t.sched.entries = s.sched.entries.set n (some e) ∧ windowOpen t n = false ∧
      (∀ x, windowOf s n = some x → Tells s t .windowClose [.num (n.val + 1), wd x.kind.word, wd "REWRITTEN"]) ∧
      t.host.inHand = some (.ok .scheduleSet (.num (n.val + 1) :: if windowOpen s n then [wd "CLOSED"] else []))) := by
  have hsched := rewriteEntry_sched n e s
  have hlater := (rewriteEntry_touches n e s).later
  have hshut : Schedule.windows { s.sched.without n with entries := upd s.sched.entries n (fun _ => some e) } = (s.sched.without n).windows := rfl
  have htells : ∀ x, windowOf s n = some x → Tells s (rewriteEntry n e s) .windowClose [.num (n.val + 1), wd x.kind.word, wd "REWRITTEN"] :=
    fun x hx => Tells.mono (u := setEntry n (some e) (closeEntryWindow n "REWRITTEN" s))
      ((tells_closeEntryWindow hx _).mono ⟨rfl, rfl, List.prefix_rfl, id⟩) hlater
  refine completes_of_answered (answered_of_served hs (scheduleSet_served hf hok s)) ?_
  generalize rewriteEntry n e s = t at *
  refine ⟨?_, ?_, fun x hx => (htells x hx).mono (later_replying _ _), rfl⟩
  · show t.sched.entries = _
    rw [hsched, ← upd_eq_set]
  · show t.sched.windows.any _ = false
    rw [hsched, hshut, Schedule.without, List.any_eq_false]
    exact fun y hy => by simpa using (List.mem_filter.1 hy).2

/-- R146: a close deadline that has come. -/
theorem closeDeadline_completes {x : OpenWindow} (hon : s.phase ≠ .off) (hx : windowOf s n = some x) (hd : x.closes ≤ s.now / 1000) :
    Completes (.closeDeadlineExpiry n) s (fun t => t.sched = s.sched.without n ∧
      Tells s t .windowClose [.num (n.val + 1), wd x.kind.word, wd "EXPIRED"]) := by
  refine completes_event (g := windowExpires n) hon rfl fun tx sent => ?_
  have hexp : windowExpires n s = closeEntryWindow n "EXPIRED" s := by
    unfold windowExpires
    rw [hx]
    exact if_pos (reached_some hd)
  have hsched := closeEntryWindow_sched (s := s) (n := n) "EXPIRED"
  have htells := tells_closeEntryWindow hx "EXPIRED"
  rw [hexp]
  generalize closeEntryWindow n "EXPIRED" s = t at *
  exact ⟨hsched, htells.mono (later_sending t tx sent)⟩

/-- R144: the minute boundary of an update. -/
theorem clockUpdate_completes (hrun : s.phase = .running) (h : s.clock.update.cal.second = 0) :
    Completes .clockUpdate s (SameButSending (lookAheadAll (matchBoundary { s with clock := s.clock.update }))) := by
  refine ⟨_, rfl, ?_⟩
  have hpump := pump_sameButSending (updateClock s)
  rw [updateClock_of_boundary hrun h] at hpump ⊢
  exact hpump

theorem matchBoundary_eq (s : State) : matchBoundary s =
    if s.clock.valid = true ∧ s.clock.secondPass = false then s.each (List.finRange 24) (matchEntry s.clock.cal) else s := by
  unfold matchBoundary
  simp only [Bool.and_eq_true, Bool.not_eq_true']

/-- R132: a CLEAN window over a bay, by the check of the cleaning. -/
theorem windowClean_does (n : Fin 24) (p : Program) (threshold : Nat) (b : BayId) (s : State) (h : threshold ≤ s.clean[b].hygiene.soil) :
    (cleanCheck s b p = none → (windowClean n p threshold b s).reg[b].activity = .clean ∧
      ∃ c, (windowClean n p threshold b s).clean[b].record = some c ∧ c.program = p ∧ c.origin = .window n) ∧
    (cleanCheck s b p = some .busy → s.clean[b].pendingWindow = none → windowClean n p threshold b s =
      s.setClean b (fun c => { c with pendingWindow := some { program := p, entry := n, threshold := threshold } })) ∧
    (∀ old, cleanCheck s b p = some .busy → s.clean[b].pendingWindow = some old → windowClean n p threshold b s = s.setClean b (fun c =>
      { c with pendingWindow := some (if old.program.rank < p.rank then { program := p, entry := n, threshold := threshold } else old) })) ∧
    (cleanCheck s b p = some .held ∨ cleanCheck s b p = some .detergent →
      (windowClean n p threshold b s).mon.bays[b].latches[EventKind.cleanWindowMissed.slot].set = true ∧ (windowClean n p threshold b s).clean = s.clean) ∧
    (cleanCheck s b p = some .state ∨ cleanCheck s b p = some .off → windowClean n p threshold b s = s) := by
  refine ⟨fun hc => ?_, fun hc hp => ?_, fun old hc hp => ?_, fun hc => ?_, fun hc => windowClean_passes h hc⟩
  · rw [windowClean_starts h hc]
    exact ⟨startCleaning_claim b p _ s, startCleaning_record b p _ s⟩
  · rw [windowClean_waits h hc]
    exact setClean_congr (by rw [hp]; rfl)
  · rw [windowClean_waits h hc]
    exact setClean_congr (by rw [hp]; rfl)
  · rw [windowClean_missed h hc]
    refine ⟨report_sets b _ s, ?_⟩
    rw [show report b .cleanWindowMissed s = _ from latch_monitorOnly b _ false s]

/-- R175: the channels after the loss of the last UPDATE window, entry by entry. -/
theorem windowMissed_does (ht : t = windowMissed b s) (c : Fin 4) :
    (s.dist.channels[c].state = .running → s.dist.channels[c].windowRequired = true →
      (s.dist.channels[c].progress[b] = .pending ∨ s.dist.channels[c].progress[b] = .deferred) →
      t.dist.channels[c].progress[b] = .missed ∧ Tells s t .transfer [.num (c.val + 1), bayTok b, wd "MISSED", wd "NONE"]) ∧
    (¬ (s.dist.channels[c].state = .running ∧ s.dist.channels[c].windowRequired = true ∧
        (s.dist.channels[c].progress[b] = .pending ∨ s.dist.channels[c].progress[b] = .deferred)) →
      t.dist.channels[c] = s.dist.channels[c]) ∧
    ∀ d : BayId, d ≠ b → t.dist.channels[c].progress[d] = s.dist.channels[c].progress[d] := by
  obtain ⟨hmiss, hkeep⟩ := windowMissed_channel b s c
  rw [← ht] at hmiss hkeep
  refine ⟨fun hrun hreq hwait => ?_, fun hno => hkeep fun ⟨hrun, hreq, hwait⟩ => hno ⟨hrun, hreq, (waiting_iff _).1 hwait⟩, fun d hd => ?_⟩
  · obtain ⟨hprog, htells⟩ := hmiss ⟨hrun, hreq, (waiting_iff _).2 hwait⟩
    refine ⟨?_, htells⟩
    rw [hprog, upd_same]
  · by_cases hm : s.dist.channels[c].missable b
    · rw [(hmiss hm).1, upd_other _ _ _ _ hd]
    · rw [hkeep hm]

/-- Settles O48. -/
theorem scheduleEntriesAndWindows : Obligations.ScheduleEntriesAndWindows := by
  refine ⟨names_iff, fun s => ⟨?_, fun n x => closeDeadline_completes, clockUpdate_completes, matchBoundary_eq s, ?_, fun n e => openWindow_does n e s,
    fun n cause => ⟨fun h => closeEntryWindow_of_none h cause, fun x h => closeEntryWindow_of_some h cause⟩,
    fun b => ⟨closeEffect_clean_none, closeEffect_clean_some⟩, ?_, fun b => rfl, ?_, ?_⟩⟩
  · rintro f w n e hs hf rfl hok
    exact scheduleSet_completes hs hf hok
  · exact fun n c => ⟨fun e he hen hopen hnames => matchEntry_opens he hen hopen hnames, matchEntry_passes⟩
  · exact fun b => windowMissed_does rfl
  · exact fun n p threshold b => ⟨fun h => if_pos h, windowClean_does n p threshold b s⟩
  · exact fun b => ⟨(lookAhead_heat b s).1, (lookAhead_heat b s).2, fun n => mem_dueEntries⟩

end Sys2Proof.Machine


/-! Passes, the beginning of a transfer, and the block flow (R174, R176). -/

namespace Sys2Proof.Machine
set_option Elab.async false

open Sys2Proof

variable {s t : State} {b : BayId} {c : Fin 4} {released : Option BayId}

/-! ## The visit of an entry -/

/-- R174: a pass comes to the entry of a bay. -/
def Channel.visitable (x : Channel) (b : BayId) : Prop :=
  x.state = .running ∧ x.current = none ∧ x.masked = false ∧ (x.progress[b]).waiting = true

/-- R174: what a visit makes of an entry whose window allows it. -/
def visitEntry (released : Option BayId) (c : Fin 4) (b : BayId) (s : State) : State :=
  if s.reg[b].state ≠ .ready then endWaiting c b (.failed .state) s
  else if s.reg[b].identity.map Identity.model ≠ some (slotOf s c).header.target then endWaiting c b (.failed .model) s
  else if s.mon.bays[b].hold ≠ .nothing then endWaiting c b (.failed .held) s
  else if s.reg[b].power = .off then setProgress c b .deferred s
  else if s.reg[b].activity ≠ .nothing then (if released = some b then s else setProgress c b .deferred s)
  else if s.reg[b].power = .standby then wakeCause b (setProgress c b .deferred s)
  else beginTransfer c b s

theorem passVisit_eq (released : Option BayId) (c : Fin 4) (b : BayId) (s : State) : passVisit released c b s =
    if s.dist.channels[c].state = .running ∧ s.dist.channels[c].current = none ∧ s.dist.channels[c].masked = false ∧
        (s.dist.channels[c].progress[b]).waiting = true then
      if (s.dist.channels[c].windowRequired && !covered s .update b) = true then s else visitEntry released c b s
    else s := rfl

theorem passVisit_of_not_visitable (h : ¬ s.dist.channels[c].visitable b) : passVisit released c b s = s := by
  rw [passVisit_eq]
  exact if_neg h

theorem passVisit_of_uncovered (hreq : s.dist.channels[c].windowRequired = true) (hcov : covered s .update b = false) : passVisit released c b s = s := by
  rw [passVisit_eq]
  split
  · exact if_pos (by rw [hreq, hcov]; rfl)
  · rfl

theorem passVisit_of_visitable (h : s.dist.channels[c].visitable b) (hw : s.dist.channels[c].windowRequired = false ∨ covered s .update b = true) :
    passVisit released c b s = visitEntry released c b s := by
  rw [passVisit_eq, if_pos (show _ ∧ _ ∧ _ ∧ _ from h)]
  refine if_neg ?_
  rcases hw with hw | hw <;> rw [hw] <;> simp

theorem setProgress_channel (c : Fin 4) (b : BayId) (p : Progress) (s : State) :
    (setProgress c b p s).dist.channels[c] = { s.dist.channels[c] with progress := upd s.dist.channels[c].progress b (fun _ => p) } := upd_same ..

/-! ## A transfer that begins -/

/-- R176: a channel whose transfer to a bay begins. -/
def Channel.begun (x : Channel) (b : BayId) : Channel :=
  { x with progress := upd x.progress b (fun _ => .transferring), current := some b, offset := 0, acked := 0, misses := 0, discardId := none,
           discardTaken := false, window := 1, delivered := [], lastEnd := 0, missSince := false, ackDue := none, offerDue := none }

/-- The claim and the notice of a transfer that begins, before its DISCARD-IMAGE. -/
def claimedTransfer (c : Fin 4) (b : BayId) (s : State) : State :=
  transferNotice c b .transferring (((setProgress c b .transferring s).setChannel c (fun x =>
    { x with current := some b, offset := 0, acked := 0, misses := 0, discardId := none, discardTaken := false, window := 1, delivered := [],
             lastEnd := 0, missSince := false, ackDue := none, offerDue := none })).setReg b (fun r => { r with activity := .update }))

theorem begunTransfer_eq (c : Fin 4) (b : BayId) (s : State) :
    begunTransfer c b s = placeOrder b .discardImage (.discard c) (claimedTransfer c b s) := rfl

theorem claimedTransfer_channel (c : Fin 4) (b : BayId) (s : State) : (claimedTransfer c b s).dist.channels[c] = s.dist.channels[c].begun b := by
  rw [claimedTransfer, transferNotice_dist]
  refine (upd_same ..).trans ?_
  rw [setProgress_channel]
  rfl

theorem claimedTransfer_reg (c : Fin 4) (b : BayId) (s : State) : (claimedTransfer c b s).reg[b] = { s.reg[b] with activity := .update } := by
  unfold claimedTransfer transferNotice
  rw [queueNotice_withHost]
  exact upd_same ..

theorem claimedTransfer_line (c : Fin 4) (b : BayId) (s : State) : (claimedTransfer c b s).line = s.line := by
  unfold claimedTransfer transferNotice
  rw [queueNotice_withHost]
  rfl

/-- What the placement of a transfer's DISCARD-IMAGE may change. -/
def Parts.discarding (c : Fin 4) : Parts := { line := fun _ => True, flow := (· = c), shares := True }

theorem begunTransfer_touches (c : Fin 4) (b : BayId) (s : State) : Touches (.discarding c) (claimedTransfer c b s) (begunTransfer c b s) :=
  (Touches.refl _).placeDiscard trivial rfl _

theorem beginTransfer_touches (c : Fin 4) (b : BayId) (s : State) : Touches (.discarding c) (claimedTransfer c b s) (beginTransfer c b s) :=
  (begunTransfer_touches c b s).recompute ⟨trivial, fun _ => trivial⟩

/-- A DISCARD-IMAGE that is placed is the transfer's own; nothing else of the channel is changed by its placement. -/
theorem placeDiscard_channel (c : Fin 4) (b : BayId) (s : State) : ∃ id, (placeOrder b .discardImage (.discard c) s).dist.channels[c] =
    { s.dist.channels[c] with discardId := id } ∧
    (takesOrders s b = true → s.line.bays[b].queue.length < 6 → id = some s.line.bays[b].nextId) := by
  by_cases ht : takesOrders s b = true
  · by_cases hq : s.line.bays[b].queue.length < 6
    · rw [placeOrder_joins ht (by simp [OrderBody.kind, OrderKind.coalesces]) hq]
      exact ⟨_, upd_same .., fun _ _ => rfl⟩
    · rw [placeOrder_held ht (by simp [OrderBody.kind, OrderKind.coalesces]) (not_lt.1 hq)]
      exact ⟨_, rfl, fun _ h => absurd h hq⟩
  · rw [placeOrder_of_not_taken (Bool.not_eq_true _ ▸ ht)]
    exact ⟨_, rfl, fun h => absurd h ht⟩

theorem tells_transferNotice (c : Fin 4) (b : BayId) (s : State) :
    Tells s (transferNotice c b .transferring s) .transfer [.num (c.val + 1), bayTok b, wd "TRANSFERRING", wd "NONE"] :=
  tells_queueNotice _ _ s

theorem tells_claimedTransfer (c : Fin 4) (b : BayId) (s : State) :
    Tells s (claimedTransfer c b s) .transfer [.num (c.val + 1), bayTok b, wd "TRANSFERRING", wd "NONE"] := by
  unfold claimedTransfer
  exact (tells_transferNotice c b _).since ⟨rfl, rfl, List.prefix_rfl, fun h => h⟩

theorem tells_beginTransfer (c : Fin 4) (b : BayId) (s : State) :
    Tells s (beginTransfer c b s) .transfer [.num (c.val + 1), bayTok b, wd "TRANSFERRING", wd "NONE"] :=
  (tells_claimedTransfer c b s).mono (beginTransfer_touches c b s).later

theorem beginTransfer_reg (c : Fin 4) (b : BayId) (s : State) : (beginTransfer c b s).reg[b] = { s.reg[b] with activity := .update } := by
  have htouch := beginTransfer_touches c b s
  rw [htouch.reg b (fun h => h), htouch.claim b (fun h => h), claimedTransfer_reg]

theorem beginTransfer_channel (h : s.reg[b].state = .ready) : ∃ id, (beginTransfer c b s).dist.channels[c] = { s.dist.channels[c].begun b with discardId := id } ∧
    (s.line.bays[b].queue.length < 6 → ∃ o ∈ (beginTransfer c b s).line.bays[b].queue, o.body = .discardImage ∧ id = some o.id) := by
  have hready : takesOrders (claimedTransfer c b s) b = true := takesOrders_of_ready (by rw [claimedTransfer_reg]; exact h)
  have hroom : s.line.bays[b].queue.length < 6 → (claimedTransfer c b s).line.bays[b].queue.length < 6 := by rw [claimedTransfer_line]; exact id
  have hbegun := claimedTransfer_channel c b s
  rw [beginTransfer_eq, begunTransfer_eq]
  generalize claimedTransfer c b s = u at hready hroom hbegun ⊢
  obtain ⟨id, hchan, hid⟩ := placeDiscard_channel c b u
  refine ⟨id, ?_, fun hq => ⟨nextOrder u b .discardImage, ?_, rfl, hid hready (hroom hq)⟩⟩
  · rw [(recompute_shared _).flow c (fun h => h), hchan, hbegun]
  · exact (recompute_shared _).stays b _ (mem_placeOrder hready (hroom hq) .discardImage (.discard c)) (fun h => h) rfl

/-! ## A waiting entry that fails -/

theorem progress_failed (r : FailReason) : Progress.toks (.failed r) = [wd "FAILED", wd r.word] := rfl

theorem endWaiting_fails (c : Fin 4) (b : BayId) (r : FailReason) (s : State) : (endWaiting c b (.failed r) s).dist.channels[c].progress[b] = .failed r ∧
    (endWaiting c b (.failed r) s).dist.channels[c].current = s.dist.channels[c].current ∧
    Tells s (endWaiting c b (.failed r) s) .transfer [.num (c.val + 1), bayTok b, wd "FAILED", wd r.word] := by
  rw [endWaiting_channel]
  refine ⟨upd_same .., rfl, ?_⟩
  exact (tells_queueNotice _ _ (setProgress c b (.failed r) s)).mono
    ((Touches.refl (m := .missing c) (settleProgress c b (.failed r) s)).examineStandby trivial trivial).later

/-! ## The visit, row by row -/

section

variable (h : s.reg[b].state = .ready)
include h

theorem visit_ready_model (hm : ¬ s.reg[b].identity.map Identity.model = some (slotOf s c).header.target) :
    visitEntry released c b s = endWaiting c b (.failed .model) s := by
  rw [visitEntry, if_neg (not_not.2 h), if_pos hm]

variable (hm : s.reg[b].identity.map Identity.model = some (slotOf s c).header.target)
include hm

theorem visit_held (hh : s.mon.bays[b].hold ≠ .nothing) : visitEntry released c b s = endWaiting c b (.failed .held) s := by
  rw [visitEntry, if_neg (not_not.2 h), if_neg (not_not.2 hm), if_pos hh]

variable (hh : s.mon.bays[b].hold = .nothing)
include hh

theorem visit_free : visitEntry released c b s =
    if s.reg[b].power = .off then setProgress c b .deferred s
    else if s.reg[b].activity ≠ .nothing then (if released = some b then s else setProgress c b .deferred s)
    else if s.reg[b].power = .standby then wakeCause b (setProgress c b .deferred s)
    else beginTransfer c b s := by
  rw [visitEntry, if_neg (not_not.2 h), if_neg (not_not.2 hm), if_neg (not_not.2 hh)]

theorem visit_deferred (hd : s.reg[b].power = .off ∨ s.reg[b].activity ≠ .nothing ∧ released ≠ some b) :
    visitEntry released c b s = setProgress c b .deferred s := by
  rw [visit_free h hm hh]
  rcases hd with hd | ⟨hbusy, hrel⟩
  · exact if_pos hd
  · rw [if_pos hbusy, if_neg hrel, ite_self]

theorem visit_left (hoff : s.reg[b].power ≠ .off) (hbusy : s.reg[b].activity ≠ .nothing) (hrel : released = some b) :
    visitEntry released c b s = s := by
  rw [visit_free h hm hh, if_neg hoff, if_pos hbusy, if_pos hrel]

theorem visit_wakes (hp : s.reg[b].power = .standby) (hfree : s.reg[b].activity = .nothing) :
    visitEntry released c b s = wakeCause b (setProgress c b .deferred s) := by
  rw [visit_free h hm hh, if_neg (by rw [hp]; decide), if_neg (not_not.2 hfree), if_pos hp]

theorem visit_begins (hp : s.reg[b].power = .on) (hfree : s.reg[b].activity = .nothing) : visitEntry released c b s = beginTransfer c b s := by
  rw [visit_free h hm hh, if_neg (by rw [hp]; decide), if_neg (not_not.2 hfree), if_neg (by rw [hp]; decide)]

end

theorem beginTransfer_other (h : s.reg[b].state = .ready) {d : BayId} (hd : d ≠ b) :
    (beginTransfer c b s).dist.channels[c].progress[d] = s.dist.channels[c].progress[d] := by
  obtain ⟨id, hchan, -⟩ := beginTransfer_channel (c := c) h
  refine (congrArg (fun x : Channel => x.progress[d]) hchan).trans ?_
  exact upd_other s.dist.channels[c].progress b d (fun _ => .transferring) hd

/-- The entry of no other bay is touched by a visit. -/
theorem visitEntry_other {d : BayId} (hd : d ≠ b) : (visitEntry released c b s).dist.channels[c].progress[d] = s.dist.channels[c].progress[d] := by
  have hend : ∀ p, (endWaiting c b p s).dist.channels[c].progress[d] = s.dist.channels[c].progress[d] := fun p => by
    rw [endWaiting_channel]
    exact upd_other _ _ _ _ hd
  have hset : (setProgress c b .deferred s).dist.channels[c].progress[d] = s.dist.channels[c].progress[d] := by
    rw [setProgress_channel]
    exact upd_other _ _ _ _ hd
  unfold visitEntry
  split
  · exact hend _
  · next hready =>
    split
    · exact hend _
    split
    · exact hend _
    split
    · exact hset
    split
    · split
      · rfl
      · exact hset
    split
    · rw [wakeCause_eq]
      exact hset
    · exact beginTransfer_other (not_not.1 hready) hd

/-- R174, R111: the wake of a bay whose entry is DEFERRED in STANDBY. -/
theorem deferred_wakes (h : s.reg[b].state = .ready) (hp : s.reg[b].power = .standby) :
    (wakeCause b (setProgress c b .deferred s)).dist.channels[c].progress[b] = .deferred ∧
    (wakeCause b (setProgress c b .deferred s)).dist.channels[c].current = s.dist.channels[c].current ∧
    (wakeCause b (setProgress c b .deferred s)).heat.bays[b].idleRef = some (s.now / 1000) ∧
    (wakeCause b (setProgress c b .deferred s)).reg = s.reg ∧
    (s.line.bays[b].queue.length < 6 → ∃ o ∈ (wakeCause b (setProgress c b .deferred s)).line.bays[b].queue, o.body = .power false) := by
  have hset := setProgress_channel c b .deferred s
  have hreg : (setProgress c b .deferred s).reg = s.reg := rfl
  have hline : (setProgress c b .deferred s).line = s.line := rfl
  have hnow : (setProgress c b .deferred s).now = s.now := rfl
  generalize setProgress c b .deferred s = u at hset hreg hline hnow ⊢
  obtain ⟨hidle, hwoken⟩ := woken_wakeCause b u
  refine ⟨?_, ?_, by rw [hidle, hnow], by rw [wakeCause_eq]; exact hreg, fun hq => ?_⟩
  · rw [wakeCause_eq]
    show u.dist.channels[c].progress[b] = _
    rw [hset]
    exact upd_same ..
  · rw [wakeCause_eq]
    show u.dist.channels[c].current = _
    rw [hset]
  · exact (hwoken (by rw [hreg]; exact h) (by rw [hreg]; exact hp) (by rw [hline]; exact hq)).2

/-! ## The block flow -/

theorem any_is_block {l : List Order} : (l.filter (fun o => o.body.is .block)).length = 0 ↔ ∀ o ∈ l, o.body.kind ≠ .block := by
  rw [List.length_eq_zero_iff, List.filter_eq_nil_iff]
  exact forall₂_congr fun o _ => by rw [OrderBody.is, decide_eq_true_eq]

theorem mayPlace_iff (s : State) (c : Fin 4) (b : BayId) : mayPlace s c b = true ↔
    s.dist.channels[c].state = .running ∧ s.dist.channels[c].current = some b ∧ s.dist.channels[c].progress[b] = .transferring ∧
    s.dist.channels[c].discardTaken = true ∧ s.dist.channels[c].masked = false ∧ s.dist.channels[c].offset < lengthOf s c ∧
    s.line.bays[b].queue.length < 6 ∧
    (s.dist.channels[c].demand = true → (s.line.bays[b].queue.filter (fun o => decide (o.body.kind = .block))).length < s.dist.channels[c].window) ∧
    (s.dist.channels[c].demand = false → ∀ o ∈ s.line.bays[b].queue, o.body.kind ≠ .block) := by
  have hq : queuedBlocks s b = (s.line.bays[b].queue.filter (fun o => decide (o.body.kind = .block))).length := rfl
  have hmode : (if s.dist.channels[c].demand = true then decide (queuedBlocks s b < s.dist.channels[c].window) else queuedBlocks s b == 0) = true ↔
      (s.dist.channels[c].demand = true → (s.line.bays[b].queue.filter (fun o => decide (o.body.kind = .block))).length < s.dist.channels[c].window) ∧
      (s.dist.channels[c].demand = false → ∀ o ∈ s.line.bays[b].queue, o.body.kind ≠ .block) := by
    rw [← any_is_block, ← hq]
    cases s.dist.channels[c].demand with
    | true => exact ⟨fun h => ⟨fun _ => of_decide_eq_true h, nofun⟩, fun h => decide_eq_true (h.1 rfl)⟩
    | false => exact ⟨fun h => ⟨nofun, fun _ => beq_iff_eq.1 h⟩, fun h => beq_iff_eq.2 (h.2 rfl)⟩
  rw [mayPlace, Bool.and_eq_true, hmode]
  simp only [Bool.and_eq_true, decide_eq_true_eq, Bool.not_eq_true', and_assoc, -Fin.getElem_fin]
  exact Iff.rfl

theorem room_of_mayPlace (h : mayPlace s c b = true) : s.line.bays[b].queue.length < 6 := by
  obtain ⟨-, -, -, -, -, -, hroom, -⟩ := (mayPlace_iff s c b).1 h
  exact hroom

/-- The offset and the bytes of the next BLOCK. -/
def nextBlock (c : Fin 4) (s : State) : OrderBody :=
  .block s.dist.channels[c].offset
    (s.store.stagingBytes s.dist.channels[c].slot s.dist.channels[c].offset (min 128 (lengthOf s c - s.dist.channels[c].offset)))

/-- R176: a BLOCK joins the queue, and the offset moves past it. -/
theorem placeBlock_does (h : s.reg[b].state = .ready) (hq : s.line.bays[b].queue.length < 6) :
    (placeBlock c b s).dist.channels[c] =
      { s.dist.channels[c] with offset := s.dist.channels[c].offset + min 128 (lengthOf s c - s.dist.channels[c].offset) } ∧
    (placeBlock c b s).line.bays[b].queue = s.line.bays[b].queue ++ [nextOrder s b (nextBlock c s)] ∧ (placeBlock c b s).reg = s.reg := by
  have hqueue := placeOrder_queue_of_plain (s := s.setChannel c (fun y => { y with offset := y.offset + min 128 (lengthOf s c - s.dist.channels[c].offset) }))
    (b := b) (body := nextBlock c s) (takesOrders_of_ready h) rfl hq .plain
  have hline := placeOrder_eq_withLine b (nextBlock c s)
    (s.setChannel c (fun y => { y with offset := y.offset + min 128 (lengthOf s c - s.dist.channels[c].offset) }))
  have heq : placeBlock c b s = placeOrder b (nextBlock c s) .plain
    (s.setChannel c (fun y => { y with offset := y.offset + min 128 (lengthOf s c - s.dist.channels[c].offset) })) := rfl
  rw [heq]
  refine ⟨?_, hqueue, by rw [hline]; rfl⟩
  rw [hline]
  exact upd_same ..

theorem stagingBytes_length (t : Store) (k : Fin 4) (offset n : Nat) : (t.stagingBytes k offset n).length = n := by
  rw [Store.stagingBytes, List.length_map, List.length_range]

theorem stagingBytes_get (t : Store) (k : Fin 4) (offset n i : Nat) (h : i < (t.stagingBytes k offset n).length) :
    (t.stagingBytes k offset n)[i] = t.stagingRead k (offset + i) := by
  simp only [Store.stagingBytes, List.getElem_map, List.getElem_range]

/-- What the block flow adds: BLOCKs at the tail, and the offset alone moves on. -/
structure Flowed (c : Fin 4) (b : BayId) (s t : State) : Prop where
  channel : t.dist.channels[c] = { s.dist.channels[c] with offset := t.dist.channels[c].offset }
  queue : ∃ rest, t.line.bays[b].queue = s.line.bays[b].queue ++ rest ∧ ∀ o ∈ rest, o.body.kind = .block

theorem placeBlock_flowed (h : s.reg[b].state = .ready) (hq : s.line.bays[b].queue.length < 6) : Flowed c b s (placeBlock c b s) := by
  obtain ⟨hchan, hqueue, -⟩ := placeBlock_does (c := c) h hq
  exact ⟨by rw [hchan], _, hqueue, fun o ho => by rw [List.mem_singleton.1 ho]; rfl⟩

theorem Flowed.trans {u : State} (h : Flowed c b s t) (k : Flowed c b t u) : Flowed c b s u := by
  obtain ⟨r1, hq1, hb1⟩ := h.queue
  obtain ⟨r2, hq2, hb2⟩ := k.queue
  refine ⟨?_, r1 ++ r2, by rw [hq2, hq1, List.append_assoc], fun o ho => ?_⟩
  · rw [k.channel, h.channel]
  · rcases List.mem_append.1 ho with ho | ho
    · exact hb1 o ho
    · exact hb2 o ho

theorem placeBlocksUpTo_of_not (h : mayPlace s c b = false) (fuel : Nat) : placeBlocksUpTo c b fuel s = s := by
  cases fuel with
  | zero => rfl
  | succ n => exact if_neg (by rw [h]; decide)

theorem placeBlocksUpTo_succ (h : mayPlace s c b = true) (fuel : Nat) : placeBlocksUpTo c b (fuel + 1) s = placeBlocksUpTo c b fuel (placeBlock c b s) :=
  if_pos h

/-- R176: where the fuel covers the room of the queue, the flow goes on until no BLOCK may be placed. -/
theorem placeBlocksUpTo_flows (fuel : Nat) (h : s.reg[b].state = .ready) (hf : 6 ≤ fuel + s.line.bays[b].queue.length) :
    mayPlace (placeBlocksUpTo c b fuel s) c b = false ∧ Flowed c b s (placeBlocksUpTo c b fuel s) := by
  induction fuel generalizing s with
  | zero =>
    refine ⟨Bool.eq_false_of_not_eq_true fun hm => ?_, rfl, [], (List.append_nil _).symm, nofun⟩
    have := room_of_mayPlace hm
    rw [placeBlocksUpTo] at this
    omega
  | succ n ih =>
    cases hm : mayPlace s c b with
    | false =>
      rw [placeBlocksUpTo_of_not hm]
      exact ⟨hm, rfl, [], (List.append_nil _).symm, nofun⟩
    | true =>
      have hroom := room_of_mayPlace hm
      obtain ⟨-, hqueue, hreg⟩ := placeBlock_does (c := c) h hroom
      have hlen : 6 ≤ n + (placeBlock c b s).line.bays[b].queue.length := by
        rw [hqueue, List.length_append, List.length_singleton]
        omega
      obtain ⟨hend, hflow⟩ := ih (s := placeBlock c b s) (by rw [hreg]; exact h) hlen
      rw [placeBlocksUpTo_succ hm]
      exact ⟨hend, (placeBlock_flowed h hroom).trans hflow⟩

theorem placeBlocks_flows (c : Fin 4) (h : s.reg[b].state = .ready) : mayPlace (placeBlocks c b s) c b = false ∧ Flowed c b s (placeBlocks c b s) :=
  placeBlocksUpTo_flows 6 h (by omega)

theorem placeBlocks_first (h : mayPlace s c b = true) : placeBlocks c b s = placeBlocksUpTo c b 5 (placeBlock c b s) := if_pos h

/-- R176: a channel that is not in DEMAND mode places one BLOCK at a time. -/
theorem placeBlock_paced (h : s.reg[b].state = .ready) (hm : mayPlace s c b = true) (hd : s.dist.channels[c].demand = false) :
    mayPlace (placeBlock c b s) c b = false := by
  obtain ⟨hchan, hqueue, -⟩ := placeBlock_does (c := c) h (room_of_mayPlace hm)
  refine Bool.eq_false_of_not_eq_true fun hm => ?_
  obtain ⟨-, -, -, -, -, -, -, -, hpaced⟩ := (mayPlace_iff _ c b).1 hm
  exact hpaced (by rw [hchan]; exact hd) _ (by rw [hqueue]; exact List.mem_append_right _ (List.mem_singleton_self _)) rfl

theorem placeBlocks_after_first (h : s.reg[b].state = .ready) (hm : mayPlace s c b = true) :
    ∃ rest, (placeBlocks c b s).line.bays[b].queue = (placeBlock c b s).line.bays[b].queue ++ rest ∧
      (s.dist.channels[c].demand = false → rest = []) ∧ ∀ o ∈ rest, o.body.kind = .block := by
  rw [placeBlocks_first hm]
  obtain ⟨-, hqueue, hreg⟩ := placeBlock_does (c := c) h (room_of_mayPlace hm)
  cases hd : s.dist.channels[c].demand with
  | false =>
    rw [placeBlocksUpTo_of_not (placeBlock_paced h hm hd)]
    exact ⟨[], (List.append_nil _).symm, fun _ => rfl, nofun⟩
  | true =>
    have hlen : 6 ≤ 5 + (placeBlock c b s).line.bays[b].queue.length := by
      rw [hqueue, List.length_append, List.length_singleton]
      omega
    obtain ⟨rest, hrest, hblocks⟩ := (placeBlocksUpTo_flows (c := c) (s := placeBlock c b s) 5 (by rw [hreg]; exact h) hlen).2.queue
    exact ⟨rest, hrest, nofun, hblocks⟩

/-! ## The obligation -/

/-- R174: a visit of an entry of a channel, whose window allows it. -/
theorem visit_does (hv : s.dist.channels[c].current = none) (t : State) (ht : t = visitEntry released c b s) :
    (∀ d : BayId, d ≠ b → t.dist.channels[c].progress[d] = s.dist.channels[c].progress[d]) ∧
    (s.reg[b].state ≠ .ready → t.dist.channels[c].progress[b] = .failed .state ∧ t.dist.channels[c].current = none ∧
      Tells s t .transfer [.num (c.val + 1), bayTok b, wd "FAILED", wd "STATE"]) ∧
    (s.reg[b].state = .ready →
      (¬ s.reg[b].identity.map Identity.model = some (slotOf s c).header.target → t.dist.channels[c].progress[b] = .failed .model ∧
        t.dist.channels[c].current = none ∧ Tells s t .transfer [.num (c.val + 1), bayTok b, wd "FAILED", wd "MODEL"]) ∧
      (s.reg[b].identity.map Identity.model = some (slotOf s c).header.target → s.mon.bays[b].hold ≠ .nothing →
        t.dist.channels[c].progress[b] = .failed .held ∧ t.dist.channels[c].current = none ∧
        Tells s t .transfer [.num (c.val + 1), bayTok b, wd "FAILED", wd "HELD"]) ∧
      (s.reg[b].identity.map Identity.model = some (slotOf s c).header.target → s.mon.bays[b].hold = .nothing →
        (s.reg[b].power = .off ∨ s.reg[b].activity ≠ .nothing ∧ released ≠ some b → t = setProgress c b .deferred s) ∧
        (s.reg[b].power ≠ .off → s.reg[b].activity ≠ .nothing → released = some b → t = s) ∧
        (s.reg[b].power = .standby → s.reg[b].activity = .nothing → t.dist.channels[c].progress[b] = .deferred ∧ t.dist.channels[c].current = none ∧
          t.heat.bays[b].idleRef = some (s.now / 1000) ∧ t.reg = s.reg ∧
          (s.line.bays[b].queue.length < 6 → ∃ o ∈ t.line.bays[b].queue, o.body = .power false)) ∧
        (s.reg[b].power = .on → s.reg[b].activity = .nothing → t.reg[b] = { s.reg[b] with activity := .update } ∧
          t.dist.channels[c].progress[b] = .transferring ∧ t.dist.channels[c].current = some b ∧ t.dist.channels[c].offset = 0 ∧
          t.dist.channels[c].acked = 0 ∧ t.dist.channels[c].misses = 0 ∧ t.dist.channels[c].discardTaken = false ∧
          Tells s t .transfer [.num (c.val + 1), bayTok b, wd "TRANSFERRING", wd "NONE"] ∧
          (s.line.bays[b].queue.length < 6 → ∃ o ∈ t.line.bays[b].queue, o.body = .discardImage ∧
            t.dist.channels[c].discardId = some o.id)))) := by
  have hfails : ∀ r, t = endWaiting c b (.failed r) s → t.dist.channels[c].progress[b] = .failed r ∧ t.dist.channels[c].current = none ∧
      Tells s t .transfer [.num (c.val + 1), bayTok b, wd "FAILED", wd r.word] := fun r hr => by
    obtain ⟨hprog, hcur, htells⟩ := endWaiting_fails c b r s
    exact hr ▸ ⟨hprog, hcur.trans hv, htells⟩
  refine ⟨fun d hd => ht ▸ visitEntry_other hd, fun hs => hfails .state (ht.trans (if_pos hs)), fun hs => ⟨fun hm => ?_, fun hm hh => ?_, fun hm hh =>
    ⟨fun hd => ht.trans (visit_deferred hs hm hh hd), fun hoff hbusy hrel => ht.trans (visit_left hs hm hh hoff hbusy hrel), fun hp hfree => ?_,
      fun hp hfree => ?_⟩⟩⟩
  · exact hfails .model (ht.trans (visit_ready_model hs hm))
  · exact hfails .held (ht.trans (visit_held hs hm hh))
  · obtain ⟨hprog, hcur, hwoken⟩ := deferred_wakes (c := c) hs hp
    rw [← (ht.trans (visit_wakes hs hm hh hp hfree))] at hprog hcur hwoken
    exact ⟨hprog, hcur.trans hv, hwoken⟩
  · have htells := tells_beginTransfer c b s
    have hreg := beginTransfer_reg c b s
    obtain ⟨id, hchan, hqueue⟩ := beginTransfer_channel (c := c) hs
    rw [← (ht.trans (visit_begins hs hm hh hp hfree))] at htells hreg hchan hqueue
    rw [hchan]
    exact ⟨hreg, upd_same .., rfl, rfl, rfl, rfl, rfl, htells, hqueue⟩

/-- Settles O58. -/
theorem passesBeginTransfersAndPlaceBlocks : Obligations.PassesBeginTransfersAndPlaceBlocks := by
  intro s released c b
  refine ⟨fun h => ?_, fun ⟨hrun, hcur, hmask, hwait⟩ hw => ?_, mayPlace_iff s c b, fun hs hm => ?_, fun hs => ?_⟩
  · rcases h with h | ⟨hreq, hcov⟩
    · exact passVisit_of_not_visitable fun ⟨hrun, hcur, hmask, hwait⟩ => h ⟨hrun, hcur, hmask, (waiting_iff _).1 hwait⟩
    · exact passVisit_of_uncovered hreq hcov
  · exact visit_does hcur _ (passVisit_of_visitable ⟨hrun, hcur, hmask, (waiting_iff _).2 hwait⟩ hw)
  · obtain ⟨hchan, hqueue, -⟩ := placeBlock_does (c := c) hs (room_of_mayPlace hm)
    exact ⟨hchan, _, stagingBytes_length _ _ _ _, fun i hi => stagingBytes_get _ _ _ _ i hi, hqueue⟩
  · obtain ⟨hend, hflow⟩ := placeBlocks_flows c hs
    exact ⟨hend, hflow.channel, fun hm => placeBlocksUpTo_of_not hm 6, fun hm => placeBlocks_after_first hs hm⟩

end Sys2Proof.Machine


/-! What a cleaning makes of the records of its bay, and the panel's rinse (R119-R127, R58). -/

namespace Sys2Proof.Machine
set_option Elab.async false

open Sys2Proof

variable {s t : State} {b : BayId} {c : CleanRec} {rep : Report}

/-! ## Updates that change nothing -/

theorem upd_self {α : Type} {n : Nat} {v : Vector α n} {i : Fin n} {f : α → α} (h : f v[i] = v[i]) : upd v i f = v := by
  ext j hj
  have hget := upd_get v i ⟨j, hj⟩ f
  refine hget.trans ?_
  split
  · next he => exact he ▸ h
  · rfl

theorem setClean_self {f : CleanBay → CleanBay} (h : f s.clean[b] = s.clean[b]) : s.setClean b f = s := by
  rw [State.setClean, upd_self h]

theorem setCleanRec_self {f : CleanRec → CleanRec} (h : s.clean[b].record = some c) (hf : f c = c) : s.setCleanRec b f = s := by
  refine setClean_self ?_
  rw [h, Option.map_some, hf, ← h]

/-! ## Doses -/

theorem doseGrowth_eq {old new : Nat} (ho : old ≤ 65535) (hn : new ≤ 65535) :
    doseGrowth old new = if old ≤ new then new - old else 65536 + new - old := by
  unfold doseGrowth
  split <;> omega

theorem doseGrowth_same (n : Nat) : doseGrowth n n = 0 := by
  unfold doseGrowth
  omega

theorem takeDoses_same {n : Nat} (h : s.clean[b].baseline = some n) : takeDoses b n s = s := by
  rw [takeDoses_of_still h (doseGrowth_same n)]
  refine setClean_self ?_
  rw [← h]

/-- R123: the state in which a growth of the dose counter is told to the hygiene record. -/
def dosed (b : BayId) (old n : Nat) (s : State) : State :=
  if (liveClean s b).isSome then (based b n s).setCleanRec b (fun c => c.dosed (doseGrowth old n)) else based b n s

/-- R123: the record of a live cleaning after a growth, and any other as it stands. -/
def dosedRecord (b : BayId) (g : Nat) (s : State) : Option CleanRec :=
  if (liveClean s b).isSome then (s.clean[b].record).map (fun c => c.dosed g) else s.clean[b].record

theorem dosed_bay (b : BayId) (old n : Nat) (s : State) :
    (dosed b old n s).clean[b] = { s.clean[b] with baseline := some n, record := dosedRecord b (doseGrowth old n) s } := by
  have hb := based_clean b n s
  unfold dosed dosedRecord
  split
  · refine (upd_same ..).trans ?_
    rw [hb]
  · exact hb

theorem dosed_store (b : BayId) (old n : Nat) (s : State) : (dosed b old n s).store = s.store ∧ (dosed b old n s).phase = s.phase := by
  unfold dosed
  split <;> exact ⟨rfl, rfl⟩

theorem takeDoses_does (b : BayId) (n : Nat) (s : State) : (takeDoses b n s).clean[b].baseline = some n ∧
    (s.clean[b].baseline = none → (takeDoses b n s).clean[b].hygiene = s.clean[b].hygiene ∧
      (takeDoses b n s).clean[b].record = s.clean[b].record ∧ (takeDoses b n s).store = s.store) := by
  have hb := based_clean b n s
  cases h : s.clean[b].baseline with
  | none =>
    rw [takeDoses_of_none h, hb]
    exact ⟨rfl, fun _ => ⟨rfl, rfl, rfl⟩⟩
  | some old =>
    refine ⟨?_, nofun⟩
    by_cases hg : doseGrowth old n = 0
    · rw [takeDoses_of_still h hg, hb]
    · rw [takeDoses_of_growth h hg, setHygiene_clean_same]
      exact congrArg CleanBay.baseline (dosed_bay b old n s)

/-- R123: a growth of the dose counter. -/
theorem takeDoses_grows {old n : Nat} (h : s.clean[b].baseline = some old) (hg : doseGrowth old n ≠ 0) :
    (takeDoses b n s).clean[b].hygiene = s.clean[b].hygiene.dosed (doseGrowth old n) ∧
    HandedOver s (takeDoses b n s) (.hygiene b (takeDoses b n s).clean[b].hygiene) ∧
    ((liveClean s b).isSome = true → (takeDoses b n s).clean[b].record = (s.clean[b].record).map (fun c => c.dosed (doseGrowth old n))) := by
  have hbay := dosed_bay b old n s
  obtain ⟨hstore, hphase⟩ := dosed_store b old n s
  have heq : takeDoses b n s = setHygiene b (fun x => x.dosed (doseGrowth old n)) (dosed b old n s) := takeDoses_of_growth h hg
  rw [heq]
  generalize dosed b old n s = u at hbay hstore hphase ⊢
  have hsame := setHygiene_clean_same b (fun x => x.dosed (doseGrowth old n)) u
  have hhand := setHygiene_handedOver b (fun x => x.dosed (doseGrowth old n)) u
  rw [hsame]
  refine ⟨by rw [hbay], ?_, fun hlive => ?_⟩
  · exact hhand.trans (storePut_store_congr hphase hstore _)
  · show u.clean[b].record = _
    rw [hbay]
    exact if_pos hlive

/-! ## The panel's rinse -/

theorem cleanCheck_wakeCause (b : BayId) (p : Program) (s : State) : cleanCheck (wakeCause b s) b p = cleanCheck s b p := by
  rw [wakeCause_eq]
  rfl

theorem servePanel_rinse (b : BayId) (s : State) : servePanel b 0 s = match cleanCheck s b .rinse with
    | none => startCleaning b .rinse .panel (wakeCause b s)
    | some r => denyRinse b r (wakeCause b s) := by
  rw [← cleanCheck_wakeCause]
  rfl

/-- A wake cause adds an order at most. -/
theorem wakeCause_queue_length (b : BayId) (s : State) :
    (wakeCause b s).line.bays[b].queue.length ≤ s.line.bays[b].queue.length + 1 := by
  by_cases h : wakes s b = true
  · rw [wakeCause_of_wakes h]
    exact (placeOrder_placing b (.power false) .plain ((touchIdle b s).setHeat b fun h => { h with standbyRequested := false })).length_le
  · rw [wakeCause_line_of_not_wakes h]
    exact Nat.le_succ _

theorem later_wakeCause (b : BayId) (s : State) : Later s (wakeCause b s) :=
  ((Touches.refl (m := { heat := (· = b), line := (· = b) }) s).wakeCause rfl rfl).later

theorem denyRinse_told (b : BayId) (r : Reason) (s : State) : Tells s (denyRinse b r s) .cleanEnd [bayTok b, wd "REFUSED", wd r.word, .num 0] :=
  (tells_queueNotice _ _ _).since ((Touches.refl (m := { line := (· = b) }) s).placePlain rfl (.panelDeny r)).later

theorem denyRinse_denies {r : Reason} (h : s.reg[b].state = .ready) (hq : s.line.bays[b].queue.length < 6) :
    ∃ o ∈ (denyRinse b r s).line.bays[b].queue, o.body = .panelDeny r := by
  rw [denyRinse, queueNotice_withHost]
  exact exists_mem_placeOrder (takesOrders_of_ready h) hq _ _

/-- R58: a refused panel rinse. -/
theorem panelRinse_refused {r : Reason} (h : cleanCheck s b .rinse = some r) :
    Tells s (servePanel b 0 s) .cleanEnd [bayTok b, wd "REFUSED", wd r.word, .num 0] ∧
    (s.reg[b].state = .ready → s.line.bays[b].queue.length < 5 → ∃ o ∈ (servePanel b 0 s).line.bays[b].queue, o.body = .panelDeny r) := by
  rw [servePanel_rinse, h]
  dsimp only
  refine ⟨(denyRinse_told b r _).since (later_wakeCause b s), fun hready hq => denyRinse_denies ?_ ?_⟩
  · rw [wakeCause_eq]
    exact hready
  · have := wakeCause_queue_length b s
    omega

theorem startCleaning_started (b : BayId) (p : Program) (o : Origin) (s : State) :
    ∃ c, (startCleaning b p o s).clean[b].record = some c ∧ c.program = p ∧ c.origin = o ∧ c.started = s.sec := by
  rw [startCleaning_eq, recompute_record]
  split
  · rw [wakeCause_eq]
    refine ⟨{ CleanRec.create p o s.sec with wakeDue := some (s.sec + 60) }, ?_, rfl, rfl, rfl⟩
    show ((admittedClean b p o s).setCleanRec b _).clean[b].record = _
    rw [setCleanRec_record, admittedClean_bay]
    rfl
  · obtain ⟨c, hrec, hprog, horigin, hstarted, -⟩ := leaveRequested_record b p o s
    exact ⟨c, hrec, hprog, horigin, hstarted⟩

/-- R58: a panel rinse that starts. -/
theorem panelRinse_starts (h : cleanCheck s b .rinse = none) : (servePanel b 0 s).reg[b].activity = .clean ∧
    ∃ c, (servePanel b 0 s).clean[b].record = some c ∧ c.program = .rinse ∧ c.origin = .panel ∧ c.started = s.now / 1000 := by
  have heq : servePanel b 0 s = startCleaning b .rinse .panel (wakeCause b s) := by rw [servePanel_rinse, h]
  rw [heq]
  refine ⟨startCleaning_claim .., ?_⟩
  obtain ⟨c, hrec, hprog, horigin, hstarted⟩ := startCleaning_started b .rinse .panel (wakeCause b s)
  exact ⟨c, hrec, hprog, horigin, by rw [hstarted, State.sec, (later_wakeCause b s).now]⟩

/-! ## A record of a live cleaning -/

/-- R126, R121: what the door and the completion of a record make of a cleaning. -/
def CleanRec.noted (c : CleanRec) (rep : Report) (now due : Nat) : CleanRec := (c.note rep.complete).door rep.doorOpen now due

theorem CleanRec.noted_still {now due : Nat} (h : (rep.complete && c.state.isPhase && c.accepted) = false) (hd : rep.doorOpen = c.paused) :
    c.noted rep now due = c := by
  rw [noted, note, if_neg (by rw [h]; decide), door, hd]
  cases c.paused <;> rfl

theorem CleanRec.noted_complete {now due : Nat} (hcomp : rep.complete = true) (hph : c.state.isPhase = true) (ha : c.accepted = true)
    (hopen : rep.doorOpen = false) (hp : c.paused = false) : c.noted rep now due = { c with complete := true } := by
  rw [noted, note, hcomp, hph, ha, hopen]
  simp [door, hp]

theorem CleanRec.noted_paused {now due : Nat} (hcomp : (rep.complete && c.state.isPhase && c.accepted) = false) (hopen : rep.doorOpen = false)
    (hp : c.paused = true) : c.noted rep now due = c.unpause now := by
  rw [noted, note, if_neg (by rw [hcomp]; decide), door, hopen, hp]
  rfl

theorem cleanRecord_of_off (h : liveClean s b = some c) (hbase : s.clean[b].baseline = some rep.dose) (hoff : rep.power = .off) :
    cleanRecord b rep s = cleanOff b c s := by
  unfold cleanRecord
  rw [takeDoses_same hbase]
  dsimp only
  rw [h]
  exact if_pos hoff

theorem cleanRecord_of_requested (h : liveClean s b = some c) (hbase : s.clean[b].baseline = some rep.dose) (hoff : rep.power ≠ .off)
    (hreq : c.state = .requested) : cleanRecord b rep s = s := by
  unfold cleanRecord
  rw [takeDoses_same hbase]
  dsimp only
  rw [h]
  dsimp only
  rw [if_neg hoff, if_pos hreq]

/-- A record of a cleaning past REQUESTED, of a bay that is not OFF. -/
theorem cleanRecord_of_past (h : liveClean s b = some c) (hbase : s.clean[b].baseline = some rep.dose) (hoff : rep.power ≠ .off)
    (hreq : c.state ≠ .requested) : cleanRecord b rep s = cleanProgress b rep.cabinet
      ((cleanFault b rep.fault c (if rep.power = .standby then wakeCause b s else s)).setCleanRec b
        (fun x => x.noted rep s.now (s.sec + s.runs.doorGrace))) := by
  unfold cleanRecord
  rw [takeDoses_same hbase]
  dsimp only
  rw [h]
  dsimp only
  rw [if_neg hoff, if_neg hreq]
  rfl

theorem cleanRecord_of_standby (h : liveClean s b = some c) (hbase : s.clean[b].baseline = some rep.dose) (hp : rep.power = .standby)
    (hreq : c.state ≠ .requested) : cleanRecord b rep s = cleanRecord b { rep with power := .on } (wakeCause b s) := by
  have hlive : liveClean (wakeCause b s) b = some c := by
    rw [wakeCause_eq]
    exact h
  have hbase' : (wakeCause b s).clean[b].baseline = some { rep with power := .on }.dose := by
    rw [wakeCause_eq]
    exact hbase
  have hnow : (wakeCause b s).now = s.now := (later_wakeCause b s).now
  have hgrace : (wakeCause b s).runs = s.runs := by rw [wakeCause_eq]
  rw [cleanRecord_of_past h hbase (by rw [hp]; decide) hreq, cleanRecord_of_past hlive hbase' (show Power.on ≠ .off by decide) hreq, if_pos hp,
    if_neg (show ¬ Power.on = Power.standby by decide), hnow, hgrace, State.sec, State.sec, hnow]
  rfl

/-- R124: a cleaning that no fault of the record concerns. -/
theorem cleanFault_of_none (h : c.state = .washing → rep.fault = 0) : cleanFault b rep.fault c s = s :=
  if_neg fun ⟨hst, hf⟩ => hf (h hst)

/-- R120, R121: a record of a cleaning that goes on, on a bay that is ON. -/
theorem cleanRecord_goesOn (h : liveClean s b = some c) (hbase : s.clean[b].baseline = some rep.dose) (hon : rep.power = .on)
    (hreq : c.state ≠ .requested) (hf : c.state = .washing → rep.fault = 0) : cleanRecord b rep s =
      cleanProgress b rep.cabinet (s.setCleanRec b (fun x => x.noted rep s.now (s.sec + s.runs.doorGrace))) := by
  rw [cleanRecord_of_past h hbase (by rw [hon]; decide) hreq, if_neg (by rw [hon]; decide), cleanFault_of_none hf]

theorem noted_record (h : s.clean[b].record = some c) : (s.setCleanRec b (fun x => x.noted rep s.now (s.sec + s.runs.doorGrace))).clean[b] =
    { s.clean[b] with record := some (c.noted rep s.now (s.sec + s.runs.doorGrace)) } := by
  refine (upd_same ..).trans ?_
  rw [h]
  rfl

theorem cleanProgress_of_cooling (h : liveClean s b = some c) (hst : c.state = .cooling) (z : Int) : cleanProgress b z s =
    if (!c.paused && c.accepted && decide (z ≤ 700)) = true then enterFirst b c s else s := by
  unfold cleanProgress
  rw [h]
  dsimp only
  rw [if_pos hst]

theorem cleanProgress_of_phase (h : liveClean s b = some c) (hst : c.state ≠ .cooling) (z : Int) : cleanProgress b z s =
    if c.phaseOver s.now = true then endPhase b s else s := by
  unfold cleanProgress
  rw [h]
  dsimp only
  rw [if_neg hst]

theorem cleanProgress_of_open (h : liveClean s b = some c) (hst : c.state ≠ .cooling) (ho : c.phaseOver s.now = false) (z : Int) :
    cleanProgress b z s = s := by
  rw [cleanProgress_of_phase h hst, if_neg (by rw [ho]; decide)]

theorem CleanState.isPhase_cases {st : CleanState} (h : st.isPhase = true) : st.final = false ∧ st ≠ .cooling ∧ st ≠ .requested := by
  cases st with
  | washing => decide
  | rinsing => decide
  | drying => decide
  | _ => exact nomatch h

/-! ## What a record makes of a cleaning, row by row -/

/-- A cleaning that has just entered a state. -/
def Enters (t : State) (b : BayId) (st : CleanState) : Prop :=
  ∃ x, t.clean[b].record = some x ∧ x.state = st ∧ x.accepted = false ∧ x.complete = false

theorem enters_enterPhase (h : liveClean s b = some c) (st : CleanState) : Enters (enterPhase b st s) b st := by
  obtain ⟨id, hrec⟩ := enterPhase_record h st
  exact ⟨_, hrec, rfl, rfl, rfl⟩

theorem Enters.recompute {st : CleanState} (h : Enters s b st) : Enters (recompute s) b st := by
  obtain ⟨x, hx, hst⟩ := h
  exact ⟨x, (recompute_record s b).trans hx, hst⟩

theorem enters_enterFirst (h : liveClean s b = some c) : Enters (enterFirst b c s) b (if c.program = .rinse then .rinsing else .washing) := by
  have hfirst : c.program.first = if c.program = .rinse then .rinsing else .washing := by cases c.program <;> rfl
  have hphase := enters_enterPhase h c.program.first
  rw [← hfirst]
  unfold enterFirst
  dsimp only
  split
  · exact hphase.recompute
  · exact hphase

theorem CleanRec.noted_unaccepted {now due : Nat} (ha : c.accepted = false) : (c.noted rep now due).state = c.state ∧
    (c.noted rep now due).accepted = false ∧ (c.noted rep now due).complete = c.complete ∧ (c.noted rep now due).forced = c.forced := by
  have hnote : c.note rep.complete = c := if_neg (by rw [ha, Bool.and_false]; decide)
  rw [noted, hnote]
  unfold door
  split <;> split <;> exact ⟨rfl, ha, rfl, rfl⟩

/-- What a forced rinse may change. -/
def Parts.rinsing (b : BayId) : Parts := { Parts.orders b with line := fun _ => True, cleanEnd := (· = b), shares := True }

theorem forceRinse_touches (b : BayId) (o : CleanOutcome) (r : CleanReason) (s : State) : Touches (.rinsing b) s (forceRinse b o r s) :=
  (Touches.refl (m := .rinsing b) s).forceRinse ⟨⟨trivial, rfl, rfl, rfl, fun _ => trivial⟩, ⟨rfl, rfl⟩, rfl⟩ ⟨trivial, fun _ => trivial⟩ o r

/-- R124: a dose failure forces the rinse. -/
theorem cleanRecord_of_fault (h : liveClean s b = some c) (hbase : s.clean[b].baseline = some rep.dose) (hon : rep.power = .on)
    (hst : c.state = .washing) (hf : rep.fault ≠ 0) : Enters (cleanRecord b rep s) b .rinsing ∧
      (∃ x, (cleanRecord b rep s).clean[b].record = some x ∧ x.forced = some (.failed, .doseFailure)) ∧
      (cleanRecord b rep s).mon.bays[b].latches[EventKind.cleanFailed.slot].set = true := by
  obtain ⟨hlive, -⟩ := report_cleaning h .cleanFailed
  obtain ⟨id, hrec⟩ := forceRinse_record hlive .failed .doseFailure
  have hlatch := report_sets b .cleanFailed s
  have hfault : cleanFault b rep.fault c s = forceRinse b .failed .doseFailure (report b .cleanFailed s) := if_pos ⟨hst, hf⟩
  rw [cleanRecord_of_past h hbase (by rw [hon]; decide) (by rw [hst]; decide), if_neg (by rw [hon]; decide), hfault]
  have hkept := ((forceRinse_touches b .failed .doseFailure (report b .cleanFailed s)).latch b (fun h => h)).1
  generalize forceRinse b .failed .doseFailure (report b .cleanFailed s) = v at hrec hkept
  rw [← hkept] at hlatch
  have hset := setCleanRec_record v b (fun x => x.noted rep s.now (s.sec + s.runs.doorGrace))
  rw [hrec, Option.map_some] at hset
  obtain ⟨hrinsing, hacc, hcomp, hforced⟩ := CleanRec.noted_unaccepted (rep := rep) (now := s.now) (due := s.sec + s.runs.doorGrace)
    (c := { c with forced := some (.failed, .doseFailure), state := .rinsing, orderedId := id, accepted := false, complete := false,
                   phaseTime := .zero, overrunAt := none }) rfl
  have hlive := liveClean_of_live hset (by rw [hrinsing]; rfl)
  rw [cleanProgress_of_open hlive (by rw [hrinsing]; exact (show CleanState.rinsing ≠ .cooling by decide)) (by simp [CleanRec.phaseOver, hacc])]
  exact ⟨⟨_, hset, hrinsing, hacc, hcomp⟩, ⟨_, hset, hforced⟩, hlatch⟩

section

variable (h : liveClean s b = some c) (hbase : s.clean[b].baseline = some rep.dose) (hon : rep.power = .on) (hreq : c.state ≠ .requested)
  (hf : c.state = .washing → rep.fault = 0)
include h hbase hon hreq hf

/-- R126: the door opens. -/
theorem cleanRecord_pauses (hopen : rep.doorOpen = true) (hp : c.paused = false) : ∃ x, (cleanRecord b rep s).clean[b].record = some x ∧
    x.state = c.state ∧ x.paused = true ∧ ∀ n, x.phaseTime.read n = c.phaseTime.read s.now ∧ x.coolTime.read n = c.coolTime.read s.now := by
  obtain ⟨hrec, -⟩ := liveClean_eq_some h
  have hnoted : (c.noted rep s.now (s.sec + s.runs.doorGrace)) = (c.note rep.complete).pause s.now (s.sec + s.runs.doorGrace) := by
    rw [CleanRec.noted, CleanRec.door, hopen, (c.note_pause rep.complete).1, hp]
    rfl
  have hset := congrArg CleanBay.record (noted_record (rep := rep) hrec)
  rw [hnoted] at hset
  rw [cleanRecord_goesOn h hbase hon hreq hf, cleanProgress_of_paused hset rfl]
  refine ⟨_, hset, ?_⟩
  unfold CleanRec.note
  split <;> exact ⟨rfl, rfl, fun _ => ⟨rfl, rfl⟩⟩

/-- R126: the door is CLOSED again. -/
theorem cleanRecord_resumes (hopen : rep.doorOpen = false) (hp : c.paused = true) (hph : c.state.isPhase = true) (hc : c.complete = false)
    (hcomp : rep.complete = false) : (cleanRecord b rep s).clean[b].record = some (c.unpause s.now) := by
  obtain ⟨hrec, -⟩ := liveClean_eq_some h
  obtain ⟨hfin, hcool, -⟩ := CleanState.isPhase_cases hph
  have hset := congrArg CleanBay.record (noted_record (rep := rep) hrec)
  rw [CleanRec.noted_paused (by rw [hcomp]; rfl) hopen hp] at hset
  rw [cleanRecord_goesOn h hbase hon hreq hf,
    cleanProgress_of_open (liveClean_of_live hset hfin) hcool (by simp [CleanRec.phaseOver, CleanRec.unpause, hc])]
  exact hset

variable (hopen : rep.doorOpen = false) (hp : c.paused = false)
include hopen hp

/-- A record that ends or notes nothing. -/
theorem cleanRecord_still (hcomp : (rep.complete && c.state.isPhase && c.accepted) = false) : cleanRecord b rep s = cleanProgress b rep.cabinet s := by
  rw [cleanRecord_goesOn h hbase hon hreq hf,
    setCleanRec_self (liveClean_eq_some h).1 (CleanRec.noted_still hcomp (hopen.trans hp.symm))]

/-- R120: the cabinet has cooled. -/
theorem cleanRecord_cooled (hst : c.state = .cooling) (ha : c.accepted = true) (hz : rep.cabinet ≤ 700) :
    Enters (cleanRecord b rep s) b (if c.program = .rinse then .rinsing else .washing) := by
  rw [cleanRecord_still h hbase hon hreq hf hopen hp (by rw [hst]; simp [CleanState.isPhase]), cleanProgress_of_cooling h hst,
    if_pos (by rw [hp, ha]; exact decide_eq_true hz)]
  exact enters_enterFirst h

theorem cleanRecord_cools (hst : c.state = .cooling) (hz : c.accepted = false ∨ 700 < rep.cabinet) : cleanRecord b rep s = s := by
  rw [cleanRecord_still h hbase hon hreq hf hopen hp (by rw [hst]; simp [CleanState.isPhase]), cleanProgress_of_cooling h hst]
  refine if_neg ?_
  rcases hz with hz | hz
  · rw [hz, Bool.and_false, Bool.false_and]
    decide
  · rw [decide_eq_false (not_le.2 hz), Bool.and_false]
    decide

variable (hph : c.state.isPhase = true) (ha : c.accepted = true) (hcomp : rep.complete = true)
include hph ha hcomp

/-- The state in which a record that reports the phase complete is told to the cleaning. -/
theorem cleanRecord_completes : ∃ u, u = s.setCleanRec b (fun x => x.noted rep s.now (s.sec + s.runs.doorGrace)) ∧
    u.clean[b] = { s.clean[b] with record := some { c with complete := true } } ∧ liveClean u b = some { c with complete := true } ∧
    cleanRecord b rep s = if c.duration ≤ c.phaseTime.read s.now then endPhase b u else u := by
  obtain ⟨hrec, -⟩ := liveClean_eq_some h
  obtain ⟨hfin, hcool, -⟩ := CleanState.isPhase_cases hph
  have hbay := noted_record (rep := rep) hrec
  rw [CleanRec.noted_complete hcomp hph ha hopen hp] at hbay
  have hlive := liveClean_of_live (congrArg CleanBay.record hbay) hfin
  refine ⟨_, rfl, hbay, hlive, ?_⟩
  rw [cleanRecord_goesOn h hbase hon hreq hf, cleanProgress_of_phase hlive hcool]
  have hover : CleanRec.phaseOver { c with complete := true } s.now = decide (c.duration ≤ c.phaseTime.read s.now) := by
    rw [CleanRec.phaseOver, hph, ha, hp]
    rfl
  have hnow : (s.setCleanRec b (fun x => x.noted rep s.now (s.sec + s.runs.doorGrace))).now = s.now := rfl
  rw [hnow, hover]
  simp only [decide_eq_true_eq]

/-- R121: a phase that goes on is noted complete. -/
theorem cleanRecord_notes (hd : c.phaseTime.read s.now < c.duration) : (cleanRecord b rep s).clean[b].record = some { c with complete := true } := by
  obtain ⟨u, -, hbay, -, heq⟩ := cleanRecord_completes h hbase hon hreq hf hopen hp hph ha hcomp
  rw [heq, if_neg (not_le.2 hd), hbay]

variable (hd : c.duration ≤ c.phaseTime.read s.now)
include hd

theorem cleanRecord_ends_washing (hst : c.state = .washing) : Enters (cleanRecord b rep s) b .rinsing := by
  obtain ⟨u, -, -, hlive, heq⟩ := cleanRecord_completes h hbase hon hreq hf hopen hp hph ha hcomp
  rw [heq, if_pos hd, endPhase_of_washing hlive hst]
  exact (enters_enterPhase hlive _).recompute

theorem cleanRecord_ends_rinsing (hst : c.state = .rinsing) : Enters (cleanRecord b rep s) b .drying ∧
    (cleanRecord b rep s).clean[b].hygiene.rinseOwed = false := by
  obtain ⟨u, -, -, hlive, heq⟩ := cleanRecord_completes h hbase hon hreq hf hopen hp hph ha hcomp
  rw [heq, if_pos hd, endPhase_of_rinsing hlive hst]
  obtain ⟨hrinsed, -, -, hhyg⟩ := rinseCompletion_keeps_bay hlive
  refine ⟨(enters_enterPhase hrinsed _).recompute, ?_⟩
  rw [recompute_hygiene, enterPhase_hygiene, hhyg]
  rfl

theorem cleanRecord_ends_drying (hst : c.state = .drying) (hpend : s.clean[b].pendingWindow = none) :
    CleanEnded s (cleanRecord b rep s) b c .done ((c.forced.map Prod.fst).getD .complete) ((c.forced.map Prod.snd).getD .nothing) := by
  obtain ⟨u, hu, hbay, hlive, heq⟩ := cleanRecord_completes h hbase hon hreq hf hopen hp hph ha hcomp
  rw [heq, if_pos hd, endPhase_of_drying hlive hst, endDrying_eq]
  have hended := endClean_ended hlive (by rw [hbay]; exact hpend) .done ((c.forced.map Prod.fst).getD .complete)
    ((c.forced.map Prod.snd).getD .nothing) false
  have hlater : Later s u := hu ▸ ⟨rfl, rfl, List.prefix_rfl, fun h => h⟩
  have hhyg : u.clean[b].hygiene = s.clean[b].hygiene := by rw [hbay]
  obtain ⟨hrec, hh, htold⟩ := hended.since hlater hhyg
  exact ⟨hrec, hh, htold⟩

end

/-! ## The obligation -/

/-- The end of a cleaning, as the notice and the record tell it. -/
theorem CleanEnded.becomes {st : CleanState} {oc : CleanOutcome} {r : CleanReason} (h : CleanEnded s t b c st oc r) :
    (∃ x, t.clean[b].record = some x ∧ x.state = st ∧ x.outcome = oc ∧ x.reason = r ∧ x.ended = some (s.now / 1000)) ∧
    Tells s t .cleanEnd [bayTok b, wd st.word, wd r.word, wd c.program.word, wd oc.word, .num t.clean[b].hygiene.soil,
      .yn t.clean[b].hygiene.rinseOwed] := by
  obtain ⟨⟨x, hx, -, hst, hoc, hr, hended⟩, hhyg, htold⟩ := h
  rw [hhyg]
  exact ⟨⟨x, hx, hst, hoc, hr, hended⟩, htold⟩

/-- R127: the bay of a cleaning reports power OFF. -/
theorem cleanOff_does (h : liveClean s b = some c) (hpend : s.clean[b].pendingWindow = none) :
    (c.state = .requested → c.wakeDue.isSome = true → CleanEnded s (cleanOff b c s) b c .failed .nothing .noWake ∧
      (cleanOff b c s).mon.bays[b].latches[EventKind.cleanFailed.slot].set = true) ∧
    (c.state ≠ .requested → CleanEnded s (cleanOff b c s) b c .interrupted .nothing .powerOff) := by
  unfold cleanOff
  refine ⟨fun hst hw => ?_, fun hst => ?_⟩
  · rw [if_pos hst, if_pos hw]
    exact ⟨(endClean_ended h hpend .failed .nothing .noWake false).reported .cleanFailed, report_sets b _ _⟩
  · rw [if_neg hst]
    exact endClean_ended h hpend .interrupted .nothing .powerOff true

theorem acceptPhase_record (h : liveClean s b = some c) {id : Nat} (ho : c.orderedId = some id) (ha : c.accepted = false) :
    (acceptPhase b id s).clean[b].record =
      some { c with accepted := true, phaseTime := if c.state.isPhase && !c.paused then c.phaseTime.start s.now else c.phaseTime } := by
  unfold acceptPhase
  rw [h]
  dsimp only
  rw [if_pos ⟨ho, ha⟩, setCleanRec_record, (liveClean_eq_some h).1]
  rfl

/-- R123: the growth of a dose counter, in its range. -/
theorem takeDoses_counts {old n : Nat} (h : s.clean[b].baseline = some old) (ho : old ≤ 65535) (hn : n ≤ 65535) (g : Nat)
    (hg : g = if old ≤ n then n - old else 65536 + n - old) : (g = 0 → takeDoses b n s = s) ∧
    (0 < g → (takeDoses b n s).clean[b].hygiene = { s.clean[b].hygiene with detergent := s.clean[b].hygiene.detergent - g, rinseOwed := true } ∧
      HandedOver s (takeDoses b n s) (.hygiene b (takeDoses b n s).clean[b].hygiene) ∧
      (∀ c, s.clean[b].record = some c → c.state.final = false → ∃ x, (takeDoses b n s).clean[b].record = some x ∧ x.state = c.state ∧
        (c.dosesSeen + g ≤ 65535 → x.dosesSeen = c.dosesSeen + g) ∧ x.dispensed = (c.dispensed || decide (c.state = .washing)))) := by
  rw [← doseGrowth_eq ho hn] at hg
  subst hg
  refine ⟨fun hg => ?_, fun hg => ?_⟩
  · have hsame : n = old := by
      have := doseGrowth_eq ho hn
      split at this <;> omega
    exact takeDoses_same (hsame ▸ h)
  · obtain ⟨hhyg, hhand, hrec⟩ := takeDoses_grows h (Nat.pos_iff_ne_zero.1 hg)
    refine ⟨hhyg, hhand, fun c hc hf => ⟨c.dosed (doseGrowth old n), ?_, rfl, fun hr => if_pos hr, rfl⟩⟩
    rw [hrec (by rw [liveClean_of_live hc hf]; rfl), hc]
    rfl

/-- Settles O41. -/
theorem cleaningsFollowTheirRecords : Obligations.CleaningsFollowTheirRecords := by
  refine ⟨fun s b n => ?_, fun s b r => panelRinse_refused, fun s b => panelRinse_starts, fun s b c hc hfin hpend => ?_⟩
  · obtain ⟨hbase, hnone⟩ := takeDoses_does b n s
    exact ⟨hbase, hnone, fun old h ho hn => takeDoses_counts h ho hn _ rfl⟩
  have h := liveClean_of_live hc hfin
  refine ⟨fun id => acceptPhase_record h, fun rep hbase => ⟨fun hoff => ?_, fun hoff hreq => cleanRecord_of_requested h hbase hoff hreq,
    fun hst hreq => ?_, fun hon hst hf => cleanRecord_of_fault h hbase hon hst hf, fun hon hreq hf => ⟨fun hopen hp => ?_, fun hopen hp hph hcc hcomp => ?_,
      fun hopen hp => ⟨fun hst ha hz => ?_, fun hst hz => ?_, fun hph ha hd hcomp => ⟨fun hst => ?_, fun hst => ?_, fun hst => ?_⟩,
        fun hph hd ha hcomp => ?_⟩⟩⟩⟩
  · obtain ⟨hwake, hpast⟩ := cleanOff_does h hpend
    rw [cleanRecord_of_off h hbase hoff]
    exact ⟨fun hst hw => ⟨(hwake hst hw).1.becomes, (hwake hst hw).2⟩, fun hst => (hpast hst).becomes⟩
  · exact ⟨cleanRecord_of_standby h hbase hst hreq, by rw [wakeCause_eq], woken_wakeCause b s⟩
  · exact cleanRecord_pauses h hbase hon hreq hf hopen hp
  · exact cleanRecord_resumes h hbase hon hreq hf hopen hp hph hcc hcomp
  · exact cleanRecord_cooled h hbase hon hreq hf hopen hp hst ha hz
  · exact cleanRecord_cools h hbase hon hreq hf hopen hp hst hz
  · exact cleanRecord_ends_washing h hbase hon hreq hf hopen hp hph ha hcomp hd hst
  · exact cleanRecord_ends_rinsing h hbase hon hreq hf hopen hp hph ha hcomp hd hst
  · exact (cleanRecord_ends_drying h hbase hon hreq hf hopen hp hph ha hcomp hd hst hpend).becomes
  · exact cleanRecord_notes h hbase hon hreq hf hopen hp hph ha hcomp hd

end Sys2Proof.Machine


/-! What a transfer makes of the records of its bay, and its end (R176-R180). -/

namespace Sys2Proof.Machine
set_option Elab.async false

open Sys2Proof

variable {s t : State} {b : BayId} {c : Fin 4}

/-! ## What the orders of a transfer leave of its channel -/

/-- A channel but for the id of its DISCARD-IMAGE, which a placement records. -/
def Channel.plain (x : Channel) : Channel := { x with discardId := none }

/-- A channel but for what the block flow moves on. -/
def Channel.still (x : Channel) : Channel := { x with offset := 0, discardId := none }

theorem Channel.still_of_plain {x y : Channel} (h : x.plain = y.plain) : x.still = y.still := congrArg (fun z : Channel => { z with offset := 0 }) h

theorem applyNote_plainChannel (d : BayId) (body : OrderBody) (note : Note) (n : Nat) (s : State) :
    (applyNote d body note n s).dist.channels[c].plain = s.dist.channels[c].plain := by
  unfold applyNote
  split
  · rfl
  · rfl
  · exact upd_view Channel.plain s.dist.channels _ c _ rfl
  · rfl
  · rfl

theorem placeOrder_plainChannel (d : BayId) (body : OrderBody) (note : Note) (s : State) :
    (placeOrder d body note s).dist.channels[c].plain = s.dist.channels[c].plain := by
  unfold placeOrder
  split
  · dsimp only
    split
    · exact applyNote_plainChannel _ _ _ _ _
    · split
      · exact applyNote_plainChannel _ _ _ _ _
      · rfl
  · rfl

theorem withdraw_plainChannel (d : BayId) (kinds : List OrderKind) (s : State) :
    (withdraw d kinds s).dist.channels[c].plain = s.dist.channels[c].plain := by
  rw [withdraw_eq]
  unfold offerHeld
  exact State.each_keeps (fun u => u.dist.channels[c].plain = s.dist.channels[c].plain) _ _
    (fun h u hu => (placeOrder_plainChannel d h.body h.note u).trans hu) _ rfl

theorem placeBlock_still (s : State) : (placeBlock c b s).dist.channels[c].still = s.dist.channels[c].still := by
  refine (Channel.still_of_plain (placeOrder_plainChannel _ _ _ _)).trans ?_
  exact upd_view Channel.still s.dist.channels c c _ rfl

theorem placeBlocksUpTo_still (fuel : Nat) (s : State) : (placeBlocksUpTo c b fuel s).dist.channels[c].still = s.dist.channels[c].still := by
  induction fuel generalizing s with
  | zero => rfl
  | succ n ih =>
    rw [placeBlocksUpTo]
    split
    · exact (ih _).trans (placeBlock_still s)
    · rfl

/-! ## A miss below the third -/

/-- The flow of a transfer goes on from an offset. -/
def FlowsFrom (c : Fin 4) (b : BayId) (offset : Nat) (s : State) : Prop :=
  offset ≤ s.dist.channels[c].offset ∧ ∀ o ∈ s.line.bays[b].queue, ∀ at' data, o.body = .block at' data → offset ≤ at'

theorem FlowsFrom.placeBlock {offset : Nat} {s : State} (h : FlowsFrom c b offset s) : FlowsFrom c b offset (placeBlock c b s) := by
  obtain ⟨hoff, hqueue⟩ := h
  have hset : (s.setChannel c (fun y => { y with offset := y.offset + min blockSize (lengthOf s c - s.dist.channels[c].offset) })).dist.channels[c].offset =
      s.dist.channels[c].offset + min blockSize (lengthOf s c - s.dist.channels[c].offset) := congrArg Channel.offset (upd_same ..)
  refine ⟨?_, fun o ho at' data hbody => ?_⟩
  · refine le_of_le_of_eq ?_ (congrArg Channel.offset (placeOrder_plainChannel (c := c) b _ .plain _)).symm
    exact le_of_le_of_eq (hoff.trans (Nat.le_add_right _ _)) hset.symm
  · rcases mem_placeOrder_plain ho with ho | ho
    · exact hqueue o ho at' data hbody
    · cases hbody.symm.trans ho
      exact hoff

theorem FlowsFrom.placeBlocksUpTo {offset : Nat} (fuel : Nat) {s : State} (h : FlowsFrom c b offset s) : FlowsFrom c b offset (placeBlocksUpTo c b fuel s) := by
  induction fuel generalizing s with
  | zero => exact h
  | succ n ih =>
    rw [Machine.placeBlocksUpTo]
    split
    · exact ih h.placeBlock
    · exact h

/-- R177: the channel whose blocks are sent again from an offset, before they are placed. -/
def resent (c : Fin 4) (b : BayId) (offset : Nat) (s : State) : State :=
  withdraw b [.block] (s.setChannel c (fun x => { x with offset := offset, delivered := [], ackDue := none }))

theorem resend_eq (c : Fin 4) (b : BayId) (offset : Nat) (s : State) : resend c b offset s = placeBlocksUpTo c b 6 (resent c b offset s) := rfl

theorem resent_channel (c : Fin 4) (b : BayId) (offset : Nat) (s : State) : (resent c b offset s).dist.channels[c].plain =
    Channel.plain { s.dist.channels[c] with offset := offset, delivered := [], ackDue := none } :=
  (withdraw_plainChannel b _ _).trans (congrArg Channel.plain (upd_same ..))

theorem resent_flows (c : Fin 4) (b : BayId) (offset : Nat) (s : State) : FlowsFrom c b offset (resent c b offset s) := by
  refine ⟨le_of_eq (congrArg Channel.offset (resent_channel c b offset s)).symm, fun o ho at' data hbody => ?_⟩
  exact absurd (by rw [hbody]; exact List.mem_singleton_self _) (withdraw_removes b [.block] _ o ho)

/-- A miss, before what follows of it. -/
def missed (c : Fin 4) (s : State) : State := s.setChannel c (fun x => { x with misses := x.misses + 1, missSince := true })

theorem missed_channel (c : Fin 4) (s : State) : (missed c s).dist.channels[c] =
    { s.dist.channels[c] with misses := s.dist.channels[c].misses + 1, missSince := true } := upd_same ..

theorem blockMiss_resends (h : s.dist.channels[c].misses < 2) (offset : Nat) : blockMiss c b offset s = resend c b offset (missed c s) := by
  unfold blockMiss
  refine if_pos ?_
  show (missed c s).dist.channels[c].misses < 3
  rw [missed_channel]
  exact Nat.succ_lt_succ h

/-- R177: a miss below the third sends again from the offset. -/
theorem blockMiss_flows (h : s.dist.channels[c].misses < 2) (offset : Nat) : FlowsFrom c b offset (blockMiss c b offset s) ∧
    (blockMiss c b offset s).dist.channels[c].still = Channel.still
      { s.dist.channels[c] with misses := s.dist.channels[c].misses + 1, missSince := true, delivered := [], ackDue := none } := by
  rw [blockMiss_resends h, resend_eq]
  refine ⟨(resent_flows c b offset _).placeBlocksUpTo 6, ?_⟩
  rw [placeBlocksUpTo_still, Channel.still_of_plain (resent_channel c b offset _), missed_channel]
  rfl

theorem blockMiss_ends (h : 2 ≤ s.dist.channels[c].misses) (offset : Nat) : (blockMiss c b offset s).dist.channels[c].progress[b] = .failed .noAck := by
  rw [blockMiss_third h]
  exact (endTransfer_entry (p := .failed .noAck) rfl c b true .now _).1

/-! ## The acknowledged offset and the image state -/

theorem deliverBlock_channel (h : channelOf s b = some c) (offset n : Nat) : (deliverBlock b offset n s).dist.channels[c] = Channel.reload
    { s.dist.channels[c] with
        delivered := if s.dist.channels[c].acked < offset + n then s.dist.channels[c].delivered ++ [{ stop := offset + n, time := s.now }]
          else s.dist.channels[c].delivered, lastEnd := offset + n, missSince := false } := by
  unfold deliverBlock
  rw [h]
  exact upd_same ..

theorem takeAck_advances {ack : Nat} (h : s.dist.channels[c].acked < ack) (hl : ack ≤ s.dist.channels[c].lastEnd) :
    (takeAck c b ack s).dist.channels[c] = s.dist.channels[c].advance ack := by
  unfold takeAck
  dsimp only
  rw [if_pos h, if_pos hl]
  exact upd_same ..

theorem takeAck_beyond {ack : Nat} (h : s.dist.channels[c].acked < ack) (hl : s.dist.channels[c].lastEnd < ack) : takeAck c b ack s = s := by
  unfold takeAck
  dsimp only
  rw [if_pos h, if_neg (not_le.2 hl)]

theorem takeAck_same {ack : Nat} (h : ack = s.dist.channels[c].acked) : takeAck c b ack s = s := by
  unfold takeAck
  dsimp only
  rw [if_neg (by rw [h]; exact lt_irrefl _), if_neg (by rw [h]; exact lt_irrefl _)]

theorem takeAck_misses {ack : Nat} (h : ack < s.dist.channels[c].acked) : takeAck c b ack s = blockMiss c b ack s := by
  unfold takeAck
  dsimp only
  rw [if_neg (not_lt.2 h.le), if_pos h]

theorem takeRejected_misses (hs : s.dist.channels[c].missSince = false) (hcur : s.dist.channels[c].current = some b)
    (hp : s.dist.channels[c].progress[b] = .transferring) : takeRejected c b 4 s = blockMiss c b s.dist.channels[c].acked s :=
  if_pos ⟨rfl, hs, hcur, hp⟩

theorem takeRejected_none {image : Nat} (h : image ≠ 4 ∨ s.dist.channels[c].missSince = true) : takeRejected c b image s = s := by
  refine if_neg fun ⟨him, hs, _⟩ => ?_
  rcases h with h | h
  · exact h him
  · exact nomatch hs.symm.trans h

theorem useImage_idle {image : Nat} (h : s.dist.channels[c].offerDue = none) : useImage c b image s = s := by
  unfold useImage
  rw [h]
  rfl

section

variable (h : s.dist.channels[c].offerDue ≠ none)
include h

theorem useImage_ready : useImage c b 3 s = placeOrder b .applyGo .applyGo (s.setChannel c (fun x => { x with offerDue := none })) := by
  unfold useImage
  rw [if_pos (Option.isSome_iff_ne_none.2 h), if_pos rfl]

theorem useImage_rejected : useImage c b 4 s = endTransfer c b (.failed .image) true .now s := by
  unfold useImage
  rw [if_pos (Option.isSome_iff_ne_none.2 h), if_neg (by decide), if_pos rfl]

theorem useImage_other {image : Nat} (h3 : image ≠ 3) (h4 : image ≠ 4) : useImage c b image s = s := by
  unfold useImage
  rw [if_pos (Option.isSome_iff_ne_none.2 h), if_neg h3, if_neg h4]

end

/-- R178: an APPLY-GO that is placed loads the grace of R179. -/
theorem applyGo_placed (hready : s.reg[b].state = .ready) (hq : s.line.bays[b].queue.length < 6) :
    (placeOrder b .applyGo .applyGo s).line.bays[b].grace = some (s.now / 1000 + 90) ∧ (placeOrder b .applyGo .applyGo s).dist = s.dist ∧
    ∃ o ∈ (placeOrder b .applyGo .applyGo s).line.bays[b].queue, o.body = .applyGo := by
  refine ⟨?_, ?_, exists_mem_placeOrder (takesOrders_of_ready hready) hq _ _⟩
  all_goals rw [placeOrder_joins (takesOrders_of_ready hready) (by simp [OrderBody.kind, OrderKind.coalesces]) hq]
  · exact congrArg LineBay.grace (upd_same ..)
  · rfl

/-! ## The offer -/

/-- R178: a transfer whose blocks are acknowledged, before its APPLY-OFFER. -/
def offering (c : Fin 4) (b : BayId) (s : State) : State :=
  withdraw b [.block] ((setProgress c b .applying s).setChannel c (fun y => { y with ackDue := none, delivered := [] }))

theorem offering_channel (c : Fin 4) (b : BayId) (s : State) : (offering c b s).dist.channels[c].plain = Channel.plain
    { s.dist.channels[c] with progress := upd s.dist.channels[c].progress b (fun _ => .applying), ackDue := none, delivered := [] } := by
  refine (withdraw_plainChannel b _ _).trans (congrArg Channel.plain ?_)
  refine (upd_same ..).trans ?_
  rw [setProgress_channel]

theorem offerIfComplete_offers (hp : s.dist.channels[c].progress[b] = .transferring) (ht : s.dist.channels[c].discardTaken = true)
    (hm : s.dist.channels[c].masked = false) (ha : s.dist.channels[c].acked = lengthOf s c) : offerIfComplete c b s =
      placeOrder b (.applyOffer (slotOf s c).header.crc (slotOf s c).header.revision) .plain (offering c b s) :=
  if_pos ⟨hp, ht, hm, ha⟩

theorem offerIfComplete_waits (h : s.dist.channels[c].progress[b] ≠ .transferring ∨ s.dist.channels[c].discardTaken = false ∨
    s.dist.channels[c].masked = true ∨ s.dist.channels[c].acked ≠ lengthOf s c) : offerIfComplete c b s = s := by
  refine if_neg fun ⟨hp, ht, hm, ha⟩ => ?_
  rcases h with h | h | h | h
  · exact h hp
  · exact nomatch ht.symm.trans h
  · exact nomatch hm.symm.trans h
  · exact h ha

theorem offering_line (h : s.line.bays[b].held = []) : (offering c b s).line.bays[b].queue.length ≤ s.line.bays[b].queue.length := by
  have hheld : ((setProgress c b .applying s).setChannel c (fun y => { y with ackDue := none, delivered := [] })).line.bays[b].held = [] := h
  rw [offering, withdraw_queue hheld]
  exact List.length_filter_le _ _

/-- What a withdrawal may change. -/
def Parts.withdrawn (b : BayId) : Parts :=
  { line := (· = b), drops := fun _ _ => True, grace := (· = b), run := (· = b), cleaning := (· = b), flow := fun _ => True }

theorem withdraw_withdrawn (b : BayId) (kinds : List OrderKind) (s : State) : Touches (.withdrawn b) s (withdraw b kinds s) :=
  (Touches.refl s).withdraw ⟨rfl, rfl, rfl, rfl, fun _ => trivial⟩ (fun _ _ => trivial) (.inl trivial)

theorem offering_reg (c : Fin 4) (b : BayId) (s : State) : (offering c b s).reg[b] = s.reg[b] :=
  (withdraw_withdrawn b [.block] _).reg_same id id

/-! ## The end of a transfer -/

theorem stoppedTransfer_channel (c : Fin 4) (b : BayId) (p : Progress) (s : State) : (stoppedTransfer c b p s).dist.channels[c] =
    { s.dist.channels[c] with progress := upd s.dist.channels[c].progress b (fun _ => p), ackDue := none, offerDue := none, delivered := [] } := by
  rw [stoppedTransfer, State.setLine_dist]
  refine (upd_same ..).trans ?_
  rw [setProgress_channel]

theorem report_dist (b : BayId) (k : EventKind) (s : State) : (report b k s).dist = s.dist := by
  rw [show report b k s = _ from latch_monitorOnly b k false s]

theorem withdrawnTransfer_channel (c : Fin 4) (b : BayId) (p : Progress) (s : State) :
    (withdrawnTransfer c b p s).dist.channels[c].plain = (stoppedTransfer c b p s).dist.channels[c].plain := by
  refine Eq.trans ?_ (withdraw_plainChannel b [.block, .applyOffer, .applyGo] (stoppedTransfer c b p s))
  have hdiscard : ∀ u : State, (if p.failedWith FailReason.discards = true then placeOrder b .discardImage .plain u else u).dist.channels[c].plain =
      u.dist.channels[c].plain := fun u => by
    split
    · exact placeOrder_plainChannel _ _ _ _
    · rfl
  unfold withdrawnTransfer
  dsimp only
  split
  · exact (congrArg (fun x : Distributor => x.channels[c].plain) (report_dist _ _ _)).trans (hdiscard _)
  · exact hdiscard _

theorem judgeDone_channel (c : Fin 4) (s : State) : ∃ st, (judgeDone c s).dist.channels[c] = { s.dist.channels[c] with state := st } := by
  unfold judgeDone
  dsimp only
  split
  · rw [queueNotice_withHost]
    exact ⟨.done, upd_same ..⟩
  · exact ⟨_, rfl⟩

theorem actDeferred_dist (b : BayId) (s : State) : (actDeferred b s).dist = s.dist := by
  unfold actDeferred takeHold
  dsimp only
  split
  · split
    · split
      · rfl
      · obtain ⟨-, -, -, hdist⟩ := setHold_jobs b .technician false (s.setMon b (fun x => { x with takeDeferred := false }))
        exact hdist
    · rfl
  · rfl

/-- R180: the deadlines of a channel whose transfer has ended, and its current bay. -/
theorem endTransfer_channel (c : Fin 4) (b : BayId) (p : Progress) (judge : Bool) (s : State) :
    (endTransfer c b p judge .later s).dist.channels[c].current = none ∧ (endTransfer c b p judge .later s).dist.channels[c].ackDue = none ∧
    (endTransfer c b p judge .later s).dist.channels[c].offerDue = none := by
  have hleft : (transferNotice c b p (leftTransfer c b p s)).dist.channels[c] =
      { (withdrawnTransfer c b p s).dist.channels[c] with current := none } := by
    rw [transferNotice_dist]
    exact upd_same ..
  have hplain := withdrawnTransfer_channel c b p s
  rw [stoppedTransfer_channel] at hplain
  have hack : (withdrawnTransfer c b p s).dist.channels[c].ackDue = none := congrArg Channel.ackDue hplain
  have hoffer : (withdrawnTransfer c b p s).dist.channels[c].offerDue = none := congrArg Channel.offerDue hplain
  have hjudged : ∃ st, (if judge = true then judgeDone c (transferNotice c b p (leftTransfer c b p s)) else
      transferNotice c b p (leftTransfer c b p s)).dist.channels[c] =
        { (withdrawnTransfer c b p s).dist.channels[c] with current := none, state := st } := by
    split
    · obtain ⟨st, hst⟩ := judgeDone_channel c (transferNotice c b p (leftTransfer c b p s))
      exact ⟨st, by rw [hst, hleft]⟩
    · exact ⟨_, hleft⟩
  have hend : (endTransfer c b p judge .later s).dist = (if judge = true then judgeDone c (transferNotice c b p (leftTransfer c b p s)) else
      transferNotice c b p (leftTransfer c b p s)).dist := by
    rw [endTransfer_eq]
    split
    · rw [actDeferred_dist]
      rfl
    · rfl
  obtain ⟨st, hst⟩ := hjudged
  rw [hend, hst]
  exact ⟨rfl, hack, hoffer⟩

/-- The orders that stand when the transfer's own are withdrawn. -/
def keptOrders (l : List Order) : List Order := l.filter (fun o => decide (o.body.kind ∉ [OrderKind.block, .applyOffer, .applyGo]))

theorem keptOrders_eq (l : List Order) :
    l.filter (fun o => !([OrderKind.block, .applyOffer, .applyGo].any (fun k => o.body.is k))) = keptOrders l := by
  refine List.filter_congr fun o _ => ?_
  rw [Bool.eq_iff_iff, Bool.not_eq_true', decide_eq_true_eq, List.any_eq_false]
  exact ⟨fun h hk => h _ hk (decide_eq_true rfl), fun h k hk his => h (of_decide_eq_true his ▸ hk)⟩

/-- What a withdrawal leaves of a line where no order is held. -/
theorem withdraw_line {kinds : List OrderKind} (h : s.line.bays[b].held = []) :
    (withdraw b kinds s).line.bays[b] = s.line.bays[b].without kinds := by
  have hbay : (s.setLine b (LineBay.without kinds)).line.bays[b] = s.line.bays[b].without kinds := upd_same ..
  have hheld : (s.setLine b (LineBay.without kinds)).line.bays[b].held = [] := by
    rw [hbay]
    show s.line.bays[b].held.filter _ = []
    rw [h]
    rfl
  rw [withdraw_eq]
  generalize s.setLine b (LineBay.without kinds) = u at hbay hheld ⊢
  rw [offerHeld, hheld]
  refine (upd_same ..).trans ?_
  rw [← hbay]
  conv_rhs => rw [show u.line.bays[b] = { u.line.bays[b] with held := u.line.bays[b].held } from rfl, hheld]

theorem stoppedTransfer_line (p : Progress) (h : s.line.bays[b].held = []) :
    (stoppedTransfer c b p s).line.bays[b] = { s.line.bays[b] with grace := none, held := [] } := by
  rw [stoppedTransfer, State.setLine_line, upd_same]
  show LineBay.mk _ (s.line.bays[b].held.map HeldOrder.disown) _ _ _ _ _ = _
  rw [h]
  rfl

/-- The withdrawal of the orders of a transfer that ends. -/
def clearedTransfer (c : Fin 4) (b : BayId) (p : Progress) (s : State) : State := withdraw b [.block, .applyOffer, .applyGo] (stoppedTransfer c b p s)

theorem clearedTransfer_line (p : Progress) (h : s.line.bays[b].held = []) : (clearedTransfer c b p s).line.bays[b].queue = keptOrders s.line.bays[b].queue ∧
    (clearedTransfer c b p s).line.bays[b].nextId = s.line.bays[b].nextId := by
  have hstopped := stoppedTransfer_line (c := c) p h
  have hline := withdraw_line (kinds := [.block, .applyOffer, .applyGo]) (congrArg LineBay.held hstopped)
  rw [clearedTransfer, hline, hstopped]
  exact ⟨keptOrders_eq _, rfl⟩

theorem clearedTransfer_reg (c : Fin 4) (b : BayId) (p : Progress) (s : State) : (clearedTransfer c b p s).reg[b] = s.reg[b] :=
  (withdraw_withdrawn b _ (stoppedTransfer c b p s)).reg_same id id

theorem withdrawnTransfer_eq (c : Fin 4) (b : BayId) (p : Progress) (s : State) : withdrawnTransfer c b p s =
    if p.failedWith FailReason.reports = true then
      report b .updateFailed (if p.failedWith FailReason.discards = true then placeOrder b .discardImage .plain (clearedTransfer c b p s)
        else clearedTransfer c b p s)
    else if p.failedWith FailReason.discards = true then placeOrder b .discardImage .plain (clearedTransfer c b p s) else clearedTransfer c b p s := rfl

theorem report_line (b : BayId) (k : EventKind) (s : State) : (report b k s).line = s.line := by
  rw [show report b k s = _ from latch_monitorOnly b k false s]

/-- R180 (2), (3): the queue of a bay whose transfer has ended. -/
theorem endTransfer_queue (c : Fin 4) (b : BayId) (p : Progress) (judge : Bool) (s : State) :
    (endTransfer c b p judge .later s).line.bays[b].queue =
      (if p.failedWith FailReason.discards = true then placeOrder b .discardImage .plain (clearedTransfer c b p s) else clearedTransfer c b p s).line.bays[b].queue := by
  have hafter := ((Touches.refl (m := .leaving b c) (leftTransfer c b p s)).transferNotice c b p).trans (leftTransfer_after c b p judge s)
  refine (congrArg Prod.fst (hafter.line b id)).trans ?_
  show (withdrawnTransfer c b p s).line.bays[b].queue = _
  rw [withdrawnTransfer_eq]
  split
  · exact congrArg (fun x : LineCtl => x.bays[b].queue) (report_line _ _ _)
  · rfl

theorem endTransfer_queue_kept {p : Progress} (hp : p.failedWith FailReason.discards = false) (h : s.line.bays[b].held = []) (judge : Bool) :
    (endTransfer c b p judge .later s).line.bays[b].queue = keptOrders s.line.bays[b].queue := by
  rw [endTransfer_queue, if_neg (by rw [hp]; decide), (clearedTransfer_line p h).1]

theorem endTransfer_queue_discarded {p : Progress} (hp : p.failedWith FailReason.discards = true) (hready : s.reg[b].state = .ready)
    (h : s.line.bays[b].held = []) (hq : (keptOrders s.line.bays[b].queue).length < 6) (judge : Bool) :
    (endTransfer c b p judge .later s).line.bays[b].queue =
      keptOrders s.line.bays[b].queue ++ [{ id := s.line.bays[b].nextId, body := .discardImage, delivered := false }] := by
  obtain ⟨hqueue, hnext⟩ := clearedTransfer_line (c := c) p h
  have htakes : takesOrders (clearedTransfer c b p s) b = true := takesOrders_of_ready (by rw [clearedTransfer_reg]; exact hready)
  rw [endTransfer_queue, if_pos hp, placeOrder_queue_of_plain htakes rfl (by rw [hqueue]; exact hq), nextOrder, hqueue, hnext]

/-- R180 (2): no BLOCK of the transfer is left. -/
theorem endTransfer_no_block (c : Fin 4) (b : BayId) (p : Progress) (judge : Bool) (s : State) :
    ∀ o ∈ (endTransfer c b p judge .later s).line.bays[b].queue, ∀ offset data, o.body ≠ .block offset data := by
  intro o ho offset data hbody
  have hclear : o ∉ (clearedTransfer c b p s).line.bays[b].queue := fun ho =>
    absurd (by rw [hbody]; exact List.mem_cons_self) (withdraw_removes b [.block, .applyOffer, .applyGo] _ o ho)
  rw [endTransfer_queue] at ho
  split at ho
  · rcases mem_placeOrder_plain ho with ho | ho
    · exact hclear ho
    · exact nomatch hbody.symm.trans ho
  · exact hclear ho

/-- R180 (4): an end that is not reported latches nothing. -/
theorem endTransfer_kept {p : Progress} (hp : p.failedWith FailReason.reports = false) (c : Fin 4) (b : BayId) (judge : Bool) (j : Fin 16) (s : State) :
    LatchKept b j s (endTransfer c b p judge .later s) := by
  have hcleared : LatchKept b j s (clearedTransfer c b p s) :=
    LatchKept.trans (t := stoppedTransfer c b p s) rfl (.of_touches (withdraw_withdrawn b _ (stoppedTransfer c b p s)) id)
  have hleft : LatchKept b j s (leftTransfer c b p s) := by
    refine LatchKept.trans (t := withdrawnTransfer c b p s) ?_ rfl
    rw [withdrawnTransfer_eq, if_neg (by rw [hp]; decide)]
    split
    · exact hcleared.trans (.of_touches ((Touches.refl (m := .withdrawn b) (clearedTransfer c b p s)).placePlain rfl _) id)
    · exact hcleared
  have htold := (Touches.refl (m := .leaving b c) (leftTransfer c b p s)).transferNotice c b p
  exact hleft.trans ((LatchKept.of_touches htold id).trans (.of_touches (leftTransfer_after c b p judge s) id))

/-! ## The return of an apply -/

/-- R179: an apply that has returned, before its transfer ends. -/
def returned (b : BayId) (i : Identity) (s : State) : State :=
  (s.setLine b (fun l => { l with grace := none })).setReg b (fun r => { r with identity := r.identity.map (fun x => { x with firmware := i.firmware }) })

theorem takeReturn_returns (h : channelOf s b = some c) (hp : s.dist.channels[c].progress[b] = .applying) (hg : s.line.bays[b].grace.isSome = true)
    (i : Identity) : takeReturn b i s =
      endTransfer c b (if i.firmware = (slotOf s c).header.revision then .done else .failed .rolledBack) true .now (returned b i s) := by
  unfold takeReturn
  rw [h]
  exact if_pos ⟨hp, hg⟩

theorem endTransfer_identity (c : Fin 4) (b : BayId) (p : Progress) (judge : Bool) (o : HandOn) (s : State) :
    (endTransfer c b p judge o s).reg[b].identity = s.reg[b].identity := by
  have hended := (endTransfer_touches c b p judge s).reg b id
  have hhanded := (handOn_touches o b (endTransfer c b p judge .later s)).reg b id
  rw [endTransfer_handOn, hhanded, hended]

/-! ## The records of a transfer's bay -/

/-- R176: the WAKE that a record in STANDBY asks for. -/
def wokenBy (b : BayId) (rep : Report) (s : State) : State := if rep.power = .standby ∧ s.line.bays[b].grace = none then wakeCause b s else s

/-- R176-R178: the use of a record by the entry of a channel. -/
def usedBy (c : Fin 4) (b : BayId) (rep : Report) (x : Channel) (s : State) : State :=
  match x.progress[b] with
  | .transferring => if x.discardTaken then useBlocks c b rep s else s
  | .applying => useImage c b rep.image s
  | _ => s

theorem transferRecord_of (h : channelOf s b = some c) (rep : Report) :
    transferRecord b rep s = usedBy c b rep s.dist.channels[c] (wokenBy b rep s) := by
  unfold transferRecord
  rw [h]
  rfl

theorem wokenBy_other {rep : Report} (h : rep.power ≠ .standby ∨ s.line.bays[b].grace ≠ none) : wokenBy b rep s = s :=
  if_neg fun ⟨hp, hg⟩ => h.elim (fun h => h hp) fun h => h hg

theorem wakeCause_dist (b : BayId) (s : State) : (wakeCause b s).dist = s.dist := by rw [wakeCause_eq]

/-- R176: the WAKE of a record in STANDBY comes before its other uses. -/
theorem transferRecord_wakes (h : channelOf s b = some c) {rep : Report} (hp : rep.power = .standby) (hg : s.line.bays[b].grace = none) :
    transferRecord b rep s = transferRecord b { rep with power := .on } (wakeCause b s) := by
  have hdist := wakeCause_dist b s
  have hw : channelOf (wakeCause b s) b = some c := by
    rw [channelOf, hdist]
    exact h
  rw [transferRecord_of h, transferRecord_of hw, wokenBy_other (rep := { rep with power := .on }) (.inl (show Power.on ≠ .standby by decide)),
    show wokenBy b rep s = wakeCause b s from if_pos ⟨hp, hg⟩, hdist]
  rfl

theorem transferRecord_graced (h : channelOf s b = some c) {rep : Report} (hg : s.line.bays[b].grace ≠ none) :
    transferRecord b rep s = transferRecord b { rep with power := .on } s := by
  rw [transferRecord_of h, transferRecord_of h, wokenBy_other (rep := rep) (.inr hg), wokenBy_other (rep := { rep with power := .on }) (.inr hg)]
  rfl

section

variable (h : channelOf s b = some c) {rep : Report} (hp : rep.power ≠ .standby)
include h hp

theorem transferRecord_waits (ht : s.dist.channels[c].progress[b] = .transferring) (hd : s.dist.channels[c].discardTaken = false) :
    transferRecord b rep s = s := by
  rw [transferRecord_of h, wokenBy_other (.inl hp), usedBy, ht]
  exact if_neg (by rw [hd]; decide)

theorem transferRecord_flows (ht : s.dist.channels[c].progress[b] = .transferring) (hd : s.dist.channels[c].discardTaken = true) :
    transferRecord b rep s = useBlocks c b rep s := by
  rw [transferRecord_of h, wokenBy_other (.inl hp), usedBy, ht]
  exact if_pos hd

theorem transferRecord_applies (ht : s.dist.channels[c].progress[b] = .applying) : transferRecord b rep s = useImage c b rep.image s := by
  rw [transferRecord_of h, wokenBy_other (.inl hp), usedBy, ht]

end

/-! ## The obligation -/

/-- R177: an acknowledged offset below the one before. -/
theorem takeAck_does (hcur : s.dist.channels[c].current = some b) {ack : Nat} (h : ack < s.dist.channels[c].acked) (t : State)
    (ht : t = takeAck c b ack s) :
    (s.dist.channels[c].misses < 2 → t.dist.channels[c].misses = s.dist.channels[c].misses + 1 ∧ t.dist.channels[c].acked = s.dist.channels[c].acked ∧
      t.dist.channels[c].progress = s.dist.channels[c].progress ∧ t.dist.channels[c].current = some b ∧
      ∀ o ∈ t.line.bays[b].queue, ∀ offset data, o.body = .block offset data → ack ≤ offset) ∧
    (2 ≤ s.dist.channels[c].misses → t.dist.channels[c].progress[b] = .failed .noAck) := by
  rw [takeAck_misses h] at ht
  refine ⟨fun hm => ?_, fun hm => ?_⟩
  · obtain ⟨⟨-, hblocks⟩, hstill⟩ := blockMiss_flows (s := s) (c := c) (b := b) hm ack
    rw [← ht] at hblocks hstill
    have hkept : ∀ {α : Type} (f : Channel → α), _ := fun f => congrArg f hstill
    exact ⟨hkept Channel.misses, hkept Channel.acked, hkept Channel.progress, (hkept Channel.current).trans hcur, hblocks⟩
  · have hend := blockMiss_ends (s := s) (c := c) (b := b) hm ack
    rw [← ht] at hend
    exact hend

theorem takeRejected_does (hcur : s.dist.channels[c].current = some b) (hs : s.dist.channels[c].missSince = false)
    (hp : s.dist.channels[c].progress[b] = .transferring) (hm : s.dist.channels[c].misses < 2) (t : State) (ht : t = takeRejected c b 4 s) :
    t.dist.channels[c].misses = s.dist.channels[c].misses + 1 ∧ t.dist.channels[c].missSince = true ∧ t.dist.channels[c].current = some b := by
  have hstill := (blockMiss_flows (s := s) (c := c) (b := b) hm s.dist.channels[c].acked).2
  rw [← takeRejected_misses hs hcur hp, ← ht] at hstill
  have hkept : ∀ {α : Type} (f : Channel → α), _ := fun f => congrArg f hstill
  exact ⟨hkept Channel.misses, hkept Channel.missSince, (hkept Channel.current).trans hcur⟩

/-- R178: READY, with room for the APPLY-GO. -/
theorem useImage_goes (ho : s.dist.channels[c].offerDue ≠ none) (hready : s.reg[b].state = .ready) (hq : s.line.bays[b].queue.length < 6) :
    (useImage c b 3 s).dist.channels[c].offerDue = none ∧ (useImage c b 3 s).line.bays[b].grace = some (s.now / 1000 + 90) ∧
    ∃ o ∈ (useImage c b 3 s).line.bays[b].queue, o.body = .applyGo := by
  rw [useImage_ready ho]
  have hset : (s.setChannel c (fun x => { x with offerDue := none })).dist.channels[c].offerDue = none := congrArg Channel.offerDue (upd_same ..)
  obtain ⟨hgrace, hdist, hqueue⟩ := applyGo_placed (s := s.setChannel c (fun x => { x with offerDue := none })) (b := b) hready hq
  exact ⟨by rw [hdist]; exact hset, hgrace, hqueue⟩

theorem useImage_fails (ho : s.dist.channels[c].offerDue ≠ none) (t : State) (ht : t = useImage c b 4 s) :
    t.dist.channels[c].progress[b] = .failed .image ∧ t.mon.bays[b].latches[EventKind.updateFailed.slot].set = true := by
  have hend := endTransfer_discarded (.failed .image) rfl rfl rfl c b s
  rw [← useImage_rejected ho, ← ht] at hend
  exact ⟨hend.entry, hend.latched⟩

/-- R178: the offer of a transfer whose blocks are all acknowledged. -/
theorem offerIfComplete_does (hp : s.dist.channels[c].progress[b] = .transferring) (ht : s.dist.channels[c].discardTaken = true)
    (hm : s.dist.channels[c].masked = false) (ha : s.dist.channels[c].acked = lengthOf s c) :
    (offerIfComplete c b s).dist.channels[c].progress[b] = .applying ∧ (offerIfComplete c b s).dist.channels[c].ackDue = none ∧
    (s.reg[b].state = .ready ∧ s.line.bays[b].queue.length < 6 ∧ s.line.bays[b].held = [] →
      ∃ o ∈ (offerIfComplete c b s).line.bays[b].queue, o.body = .applyOffer (slotOf s c).header.crc (slotOf s c).header.revision) := by
  have hchan := (placeOrder_plainChannel b (.applyOffer (slotOf s c).header.crc (slotOf s c).header.revision) .plain (offering c b s)).trans
    (offering_channel c b s)
  rw [offerIfComplete_offers hp ht hm ha]
  refine ⟨?_, congrArg Channel.ackDue hchan, fun ⟨hready, hq, hheld⟩ => ?_⟩
  · exact (congrArg (fun x : Channel => x.progress[b]) hchan).trans (upd_same s.dist.channels[c].progress b _)
  · exact exists_mem_placeOrder (takesOrders_of_ready (by rw [offering_reg]; exact hready)) ((offering_line hheld).trans_lt hq) _ _

/-- R179: the return of an apply. -/
theorem takeReturn_does (h : channelOf s b = some c) (hp : s.dist.channels[c].progress[b] = .applying) (hg : s.line.bays[b].grace.isSome = true)
    (i : Identity) (t : State) (ht : t = takeReturn b i s) :
    t.line.bays[b].grace = none ∧
    t.dist.channels[c].progress[b] = (if i.firmware = (slotOf s c).header.revision then .done else .failed .rolledBack) ∧
    t.reg[b].identity = s.reg[b].identity.map (fun z => { z with firmware := i.firmware }) ∧
    Tells s t .transfer ([.num (c.val + 1), bayTok b] ++
      (if i.firmware = (slotOf s c).header.revision then [wd "DONE", wd "NONE"] else [wd "FAILED", wd "ROLLED_BACK"])) ∧
    (i.firmware ≠ (slotOf s c).header.revision → t.mon.bays[b].latches[EventKind.updateFailed.slot].set = true) := by
  have hlater : Later s (returned b i s) := ⟨rfl, rfl, List.prefix_rfl, id⟩
  have hident : (returned b i s).reg[b].identity = s.reg[b].identity.map (fun z => { z with firmware := i.firmware }) :=
    congrArg RegBay.identity (setReg_same _ b _)
  rw [takeReturn_returns h hp hg] at ht
  generalize returned b i s = u at hlater hident ht
  by_cases hrev : i.firmware = (slotOf s c).header.revision
  · rw [if_pos hrev] at ht
    have htells := tells_endTransfer c b .done true .now u
    have hentry := endTransfer_entry (p := .done) rfl c b true .now u
    have hgrace := endTransfer_grace c b .done true .now u
    have hid := endTransfer_identity c b .done true .now u
    rw [← ht] at htells hentry hgrace hid
    rw [if_pos hrev, if_pos hrev]
    exact ⟨hgrace, hentry.1, hid.trans hident, htells.since hlater, fun hno => absurd hrev hno⟩
  · rw [if_neg hrev] at ht
    have htells := tells_endTransfer c b (.failed .rolledBack) true .now u
    have hentry := endTransfer_entry (p := .failed .rolledBack) rfl c b true .now u
    have hgrace := endTransfer_grace c b (.failed .rolledBack) true .now u
    have hid := endTransfer_identity c b (.failed .rolledBack) true .now u
    have hlatch := endTransfer_reports (s := u) (c := c) (b := b) (p := .failed .rolledBack) rfl true .now
    rw [← ht] at htells hentry hgrace hid hlatch
    rw [if_neg hrev, if_neg hrev]
    exact ⟨hgrace, hentry.1, hid.trans hident, htells.since hlater, fun _ => hlatch⟩

theorem discards_iff (r : FailReason) : r.discards = true ↔ r ∈ [FailReason.noAck, .image, .noOffer, .held, .cleared] := by cases r <;> decide

theorem reports_iff (r : FailReason) : r.reports = true ↔ r ∈ [FailReason.noAck, .image, .noOffer, .rolledBack] := by cases r <;> decide

/-- R180: what any end of a transfer leaves. -/
theorem endTransfer_leaves {p : Progress} (hp : p.settled = true) (c : Fin 4) (b : BayId) (judge : Bool) (s : State) (t : State)
    (ht : t = endTransfer c b p judge .later s) :
    t.dist.channels[c].progress[b] = p ∧ t.dist.channels[c].current = none ∧ t.reg[b].activity = .nothing ∧ t.line.bays[b].grace = none ∧
    t.dist.channels[c].ackDue = none ∧ t.dist.channels[c].offerDue = none := by
  obtain ⟨hcur, hack, hoffer⟩ := endTransfer_channel c b p judge s
  rw [ht]
  exact ⟨(endTransfer_entry hp c b judge .later s).1, hcur, endTransfer_free c b p judge s, endTransfer_grace c b p judge .later s, hack, hoffer⟩

/-- R180: what an end by failure leaves. -/
theorem endTransfer_fails (r : FailReason) (c : Fin 4) (b : BayId) (judge : Bool) (s : State) (t : State)
    (ht : t = endTransfer c b (.failed r) judge .later s) :
    (∀ o ∈ t.line.bays[b].queue, ∀ offset data, o.body ≠ .block offset data) ∧
    (r ∈ [FailReason.noAck, .image, .noOffer, .held, .cleared] → s.reg[b].state = .ready → s.line.bays[b].held = [] →
      (keptOrders s.line.bays[b].queue).length < 6 → t.line.bays[b].queue =
        keptOrders s.line.bays[b].queue ++ [{ id := s.line.bays[b].nextId, body := .discardImage, delivered := false }]) ∧
    (r ∉ [FailReason.noAck, .image, .noOffer, .held, .cleared] → s.line.bays[b].held = [] → t.line.bays[b].queue = keptOrders s.line.bays[b].queue) ∧
    (r ∈ [FailReason.noAck, .image, .noOffer, .rolledBack] → t.mon.bays[b].latches[EventKind.updateFailed.slot].set = true) ∧
    (r ∉ [FailReason.noAck, .image, .noOffer, .rolledBack] →
      t.mon.bays[b].latches[EventKind.updateFailed.slot] = s.mon.bays[b].latches[EventKind.updateFailed.slot]) ∧
    Tells s t .transfer [.num (c.val + 1), bayTok b, wd "FAILED", wd r.word] := by
  rw [ht, ← discards_iff, ← reports_iff, Bool.not_eq_true, Bool.not_eq_true]
  exact ⟨endTransfer_no_block c b _ judge s, fun hd hready hheld hq => endTransfer_queue_discarded (p := .failed r) hd hready hheld hq judge,
    fun hd hheld => endTransfer_queue_kept (p := .failed r) hd hheld judge, fun hr => endTransfer_reports (p := .failed r) hr judge .later,
    fun hr => endTransfer_kept (p := .failed r) hr c b judge _ s, tells_endTransfer c b (.failed r) judge .later s⟩

/-- R180: what an end with the image installed leaves. -/
theorem endTransfer_done (c : Fin 4) (b : BayId) (judge : Bool) (s : State) (t : State) (ht : t = endTransfer c b .done judge .later s) :
    (s.line.bays[b].held = [] → t.line.bays[b].queue = keptOrders s.line.bays[b].queue) ∧
    t.mon.bays[b].latches[EventKind.updateFailed.slot] = s.mon.bays[b].latches[EventKind.updateFailed.slot] ∧
    Tells s t .transfer [.num (c.val + 1), bayTok b, wd "DONE", wd "NONE"] := by
  rw [ht]
  exact ⟨fun hheld => endTransfer_queue_kept rfl hheld judge, endTransfer_kept rfl c b judge _ s, tells_endTransfer c b .done judge .later s⟩

/-- Settles O59. -/
theorem transfersFollowTheirRecords : Obligations.TransfersFollowTheirRecords := by
  intro s c b h
  have hcur := channelOf_current h
  refine ⟨fun offset n => ?_, fun ack => ⟨fun ha hl => ?_, fun hl ha => takeAck_beyond ha hl, takeAck_same, fun ha => ?_, fun ha => ?_⟩,
    fun image => ⟨?_, takeRejected_none, useImage_idle, ?_, ?_, fun ho => useImage_other ho⟩, ⟨offerIfComplete_does, offerIfComplete_waits⟩, fun hp => ?_,
    fun rep hst => ⟨fun hg => ⟨transferRecord_wakes h hst hg, wakeCause_dist b s, woken_wakeCause b s⟩, transferRecord_graced h⟩,
    fun rep hst => ⟨transferRecord_waits h hst, transferRecord_flows h hst, transferRecord_applies h hst⟩,
    fun i hp hg => takeReturn_does h hp hg i _ rfl, fun r judge => ?_, fun judge => ?_⟩
  · rw [deliverBlock_channel h]
    exact ⟨rfl, rfl, rfl, rfl, rfl⟩
  · rw [takeAck_advances ha hl]
    exact ⟨rfl, rfl, rfl, rfl, rfl, rfl⟩
  · exact (takeAck_does hcur ha _ rfl).1
  · exact (takeAck_does hcur ha _ rfl).2
  · rintro rfl hs hp hm
    exact takeRejected_does hcur hs hp hm _ rfl
  · rintro ho rfl ⟨hready, hq, -⟩
    exact useImage_goes ho hready hq
  · rintro ho rfl
    exact useImage_fails ho _ rfl
  · unfold acceptOffer
    rw [h]
    exact if_pos hp
  · obtain ⟨hentry, hcurrent, hfree, hgrace, hack, hoffer⟩ := endTransfer_leaves (p := .failed r) rfl c b judge s _ rfl
    exact ⟨hentry, hcurrent, hfree, hgrace, hack, hoffer, endTransfer_fails r c b judge s _ rfl⟩
  · obtain ⟨hentry, hcurrent, hfree, hgrace, hack, hoffer⟩ := endTransfer_leaves (p := .done) rfl c b judge s _ rfl
    exact ⟨hentry, hcurrent, hfree, hgrace, hack, hoffer, endTransfer_done c b judge s _ rfl⟩

end Sys2Proof.Machine


/-! What a run makes of the records of its bay, and the panel's cook requests (R58, R67-R80). -/

namespace Sys2Proof.Machine
set_option Elab.async false

open Sys2Proof

variable {s t u : State} {b : BayId} {r : Run} {rep : Report}

/-! ## The end condition of a step, and the runaway watch -/

theorem stepOver_iff (r : Run) (st : Step) (core : Option Int) (cabinet : Int) (now : Nat) : stepOver r st core cabinet now = true ↔
    (∃ secs, st.fin = .time secs ∧ (st.kind = .preheat ∧ r.setpoint ≤ cabinet + 20 ∨ secs * 1000 ≤ r.elapsed.read now)) ∨
    (∃ target c, st.fin = .core target ∧ core = some c ∧ target ≤ c) ∨
    (∃ target base credit c, st.fin = .coreHold target base credit ∧ core = some c ∧ target ≤ c ∧ credit * 600 ≤ r.credit) := by
  have hcab : r.setpoint - 20 ≤ cabinet ↔ r.setpoint ≤ cabinet + 20 := by omega
  have hany : ∀ target, core.any (fun c => decide (target ≤ c)) = true ↔ ∃ c, core = some c ∧ target ≤ c := fun target => by
    cases core <;> simp
  unfold stepOver
  cases hf : st.fin with
  | time secs =>
    simp only [Bool.or_eq_true, Bool.and_eq_true, decide_eq_true_eq, hcab, reduceCtorEq, false_and, exists_false, or_false, StepEnd.time.injEq,
      exists_eq_left']
  | core target =>
    simp only [hany, reduceCtorEq, false_and, exists_false, or_false, false_or, StepEnd.core.injEq]
    exact ⟨fun ⟨c, hc, hle⟩ => ⟨target, c, rfl, hc, hle⟩, fun ⟨_, c, ht, hc, hle⟩ => ⟨c, hc, ht ▸ hle⟩⟩
  | coreHold target base credit =>
    simp only [Bool.and_eq_true, hany, decide_eq_true_eq, reduceCtorEq, false_and, exists_false, false_or, StepEnd.coreHold.injEq]
    constructor
    · rintro ⟨⟨c, hc, hle⟩, hcredit⟩
      exact ⟨target, base, credit, c, ⟨rfl, rfl, rfl⟩, hc, hle, hcredit⟩
    · rintro ⟨_, _, _, c, ⟨rfl, rfl, rfl⟩, hc, hle, hcredit⟩
      exact ⟨⟨c, hc, hle⟩, hcredit⟩

section

variable {cabinet : Int} {sec : Nat}

theorem runawayWatch_idle (h : r.state = .starting ∨ r.started = none) : runawayWatch cabinet sec r = r := by
  refine if_neg fun ⟨hst, hstarted⟩ => ?_
  rcases h with h | h
  · exact hst h
  · rw [h] at hstarted
    exact nomatch hstarted

variable (hst : r.state ≠ .starting) (hstarted : r.started.isSome = true)
include hst hstarted

theorem runawayWatch_starts (h : r.setpoint + 300 < cabinet) (hs : r.runawaySince = none) :
    runawayWatch cabinet sec r = { r with runawaySince := some sec, runawayDue := some (sec + 60) } := by
  rw [runawayWatch, if_pos ⟨hst, hstarted⟩, if_pos h, hs]

theorem runawayWatch_lasts (h : r.setpoint + 300 < cabinet) (hs : r.runawaySince ≠ none) : runawayWatch cabinet sec r = r := by
  rw [runawayWatch, if_pos ⟨hst, hstarted⟩, if_pos h]
  cases hr : r.runawaySince with
  | none => exact absurd hr hs
  | some _ => rfl

theorem runawayWatch_ends (h : cabinet ≤ r.setpoint + 300) : runawayWatch cabinet sec r = { r with runawaySince := none, runawayDue := none } := by
  rw [runawayWatch, if_pos ⟨hst, hstarted⟩, if_neg (not_lt.2 h)]

end

/-- R79: a second watch of one record finds nothing more to do. -/
theorem runawayWatch_again {x : Run} {cabinet : Int} {sec : Nat} (hr : r.state ≠ .starting) (hx : x.state ≠ .starting)
    (hstarted : x.started = r.started) (hset : x.setpoint = r.setpoint) (hsince : x.runawaySince = (runawayWatch cabinet sec r).runawaySince)
    (hdue : x.runawayDue = (runawayWatch cabinet sec r).runawayDue) : runawayWatch cabinet sec x = x := by
  by_cases hrun : r.started.isSome = true
  · have hxrun : x.started.isSome = true := by rw [hstarted]; exact hrun
    by_cases hot : r.setpoint + 300 < cabinet
    · refine runawayWatch_lasts hx hxrun (by rw [hset]; exact hot) ?_
      rw [hsince]
      cases hs : r.runawaySince with
      | none =>
        rw [runawayWatch_starts hr hrun hot hs]
        nofun
      | some a =>
        rw [runawayWatch_lasts hr hrun hot (by rw [hs]; nofun), hs]
        nofun
    · have hcold := not_lt.1 hot
      rw [runawayWatch_ends hr hrun hcold] at hsince hdue
      rw [runawayWatch_ends hx hxrun (by rw [hset]; exact hcold)]
      cases x
      simp_all
  · exact runawayWatch_idle (.inr (by rw [hstarted]; exact Option.not_isSome_iff_eq_none.1 hrun))

/-! ## The panel's cook requests -/

theorem servePanel_cook (b : BayId) (i : Fin 15) (s : State) : servePanel b (i.val + 1) s =
    match runCheck s b s.lib.quick[i] with
    | .ok e => startRun b e (wakeCause b s)
    | .error reason => denyRun b (i.val + 1) reason (wakeCause b s) := by
  have hquick : quickNumber (wakeCause b s) (i.val + 1) = s.lib.quick[i] := by
    rw [wakeCause_eq, quickNumber]
    simp
  have hcheck : runCheck (wakeCause b s) b (quickNumber (wakeCause b s) (i.val + 1)) = runCheck s b s.lib.quick[i] := by
    rw [hquick, wakeCause_eq]
    rfl
  unfold servePanel
  dsimp only
  rw [if_neg (Nat.succ_ne_zero _), hcheck] <;> cases runCheck s b s.lib.quick[i] <;> rfl

theorem denyRun_eq (b : BayId) (index : Nat) (reason : Reason) (s : State) : denyRun b index reason s =
    queueNotice .runEnd [bayTok b, .num 0, wd "REFUSED", wd reason.word, .num index] (placeOrder b (.panelDeny reason) .plain s) := rfl

theorem denyRun_told (b : BayId) (index : Nat) (reason : Reason) (s : State) :
    Tells s (denyRun b index reason s) .runEnd [bayTok b, .num 0, wd "REFUSED", wd reason.word, .num index] :=
  (tells_queueNotice _ _ _).since ((Touches.refl (m := { line := (· = b) }) s).placePlain rfl (.panelDeny reason)).later

/-- R67: a refused panel request changes the order queue and the notices alone. -/
theorem denyRun_leaves (b : BayId) (index : Nat) (reason : Reason) (s : State) : (denyRun b index reason s).runs = s.runs ∧
    (denyRun b index reason s).lib = s.lib ∧ (denyRun b index reason s).reg = s.reg ∧ (denyRun b index reason s).heat = s.heat := by
  rw [denyRun_eq, queueNotice_withHost, placeOrder_eq_withLine]
  exact ⟨rfl, rfl, rfl, rfl⟩

theorem denyRun_denies {index : Nat} {reason : Reason} (h : takesOrders s b = true) (hq : s.line.bays[b].queue.length < 6) :
    ∃ o ∈ (denyRun b index reason s).line.bays[b].queue, o.body = .panelDeny reason := by
  rw [denyRun_eq, queueNotice_withHost]
  exact exists_mem_placeOrder h hq _ _

theorem panelCook_refused {i : Fin 15} {reason : Reason} (h : runCheck s b s.lib.quick[i] = .error reason) (t : State)
    (ht : t = servePanel b (i.val + 1) s) :
    t.heat.bays[b].idleRef = some (s.now / 1000) ∧
    Tells s t .runEnd [bayTok b, .num 0, wd "REFUSED", wd reason.word, .num (i.val + 1)] ∧ t.runs = s.runs ∧ t.lib = s.lib ∧ t.reg = s.reg ∧
    (s.reg[b].state ≠ .empty → s.reg[b].state ≠ .settling → s.line.bays[b].queue.length < 5 → ∃ o ∈ t.line.bays[b].queue, o.body = .panelDeny reason) := by
  have heq : t = denyRun b (i.val + 1) reason (wakeCause b s) := by rw [ht, servePanel_cook, h]
  have hidle := congrArg HeatBay.idleRef (wakeCause_heat b s)
  have hlen := wakeCause_queue_length b s
  have hlater := later_wakeCause b s
  have hkept : (wakeCause b s).runs = s.runs ∧ (wakeCause b s).lib = s.lib ∧ (wakeCause b s).reg = s.reg := by
    rw [wakeCause_eq]
    exact ⟨rfl, rfl, rfl⟩
  rw [heq]
  generalize wakeCause b s = u at hidle hlen hlater hkept ⊢
  obtain ⟨hruns, hlib, hreg, hheat⟩ := denyRun_leaves b (i.val + 1) reason u
  obtain ⟨kruns, klib, kreg⟩ := hkept
  refine ⟨by rw [hheat]; exact hidle, (denyRun_told b _ reason u).since hlater, hruns.trans kruns, hlib.trans klib, hreg.trans kreg,
    fun hempty hsettling hq => denyRun_denies ?_ ?_⟩
  · rw [takesOrders_iff, kreg]
    exact ⟨hempty, hsettling⟩
  · omega

/-- R108: a run that starts on a bay used now leaves it used now. -/
theorem UsedNow.startRun {s : State} (h : UsedNow b s) (e : Entry) : UsedNow b (startRun b e s) := by
  have hadm : UsedNow b (admittedRun b e s) := by
    have hheat : (admittedRun b e s).heat = s.heat := by
      show (pin e.number s).heat = s.heat
      unfold pin
      split <;> rfl
    have hnow : (admittedRun b e s).now = s.now := by
      show (pin e.number s).now = s.now
      unfold pin
      split <;> rfl
    rw [UsedNow, State.sec, hheat, hnow]
    exact h
  rw [startRun_eq]
  split
  · exact (usedNow_wakeCause b _).touched (recompute_shared _) id
  · exact hadm.touched ((Touches.refl (m := .washing b) _).orderStep ⟨trivial, trivial⟩ ⟨trivial, fun _ => trivial⟩) id

/-- R67: a panel request that is admitted. -/
theorem panelCook_admitted {i : Fin 15} {e : Entry} (h : runCheck s b s.lib.quick[i] = .ok e) (t : State) (ht : t = servePanel b (i.val + 1) s) :
    t.heat.bays[b].idleRef = some (s.now / 1000) ∧ t.reg[b].activity = .cook ∧
    entryFor t.lib.index e.number = some { e with pins := e.pins + 1 } ∧
    ∃ r, t.runs.runs[b] = some r ∧ r.id = takeRunId s ∧ r.number = s.lib.quick[i] ∧ r.rev = e.cur ∧ r.state = .starting ∧
      r.stepIndex = 1 ∧ r.accepted = false ∧ r.admitted = s.now / 1000 ∧
      (s.reg[b].power = .standby → r.wakeDue = some (s.now / 1000 + 60)) ∧ (s.reg[b].power = .on → r.wakeDue = none) := by
  have heq : t = startRun b e (wakeCause b s) := by rw [ht, servePanel_cook, h]
  have hused := usedNow_wakeCause b s
  have hentry := runCheck_entry h
  have hnumber : e.number = s.lib.quick[i] := entryFor_number hentry
  rw [← hnumber] at hentry
  have hnow := (later_wakeCause b s).now
  have hid : takeRunId (wakeCause b s) = takeRunId s := by
    rw [wakeCause_eq]
    rfl
  have hpower : (wakeCause b s).reg[b].power = s.reg[b].power := by rw [wakeCause_eq]
  have hlib : (wakeCause b s).lib = s.lib := by rw [wakeCause_eq]
  rw [heq]
  rw [← hlib] at hentry
  generalize wakeCause b s = u at hused hentry hnow hid hpower hlib ⊢
  have htouch := startRun_touches b e u
  obtain ⟨x, hx, ⟨hxid, hnum, hrev, hst, hstep, hacc, hadm, -⟩, hwake, hon⟩ := startRun_run b e u
  have hidle := hused.startRun e
  rw [hpower, hnow] at hwake
  rw [hpower] at hon
  have hend : (startRun b e u).now = s.now := htouch.now.trans (by
    rw [← hnow]
    show (pin e.number u).now = u.now
    unfold pin
    split <;> rfl)
  have hused : (startRun b e u).heat.bays[b].idleRef = some (s.now / 1000) := by
    rw [UsedNow, State.sec, hend] at hidle
    exact hidle
  refine ⟨hused, (htouch.claim b id).trans (admittedRun_claim b e u), ?_, x, hx, hxid.trans hid, hnum.trans hnumber, hrev, hst, hstep, hacc, ?_,
    hwake, hon⟩
  · rw [htouch.lib id]
    exact pin_entry hentry
  · rw [← hnow]
    exact hadm

/-! ## The acceptance of a step -/

theorem acceptStep_reorders (hl : liveRun s b = some r) {id : Nat} (ho : r.orderedId = some id) (ha : r.accepted = false) (hr : r.reorder = true) :
    acceptStep b id s = s.setRun b (fun x =>
      { x with accepted := true, reorder := false, elapsed := if x.state = .paused then x.elapsed else x.elapsed.start s.now }) := by
  unfold acceptStep
  rw [hl]
  dsimp only
  rw [if_pos ⟨ho, ha⟩, if_pos hr]

/-- R70: a step that begins, with its notice. -/
def begun (b : BayId) (s : State) : State :=
  (runStep b "BEGIN" (s.setRun b (fun x => x.begin s.now))).setRun b (fun x => (x.startIfFirst s.sec).toRunning)

theorem acceptStep_begins (hl : liveRun s b = some r) {id : Nat} (ho : r.orderedId = some id) (ha : r.accepted = false) (hr : r.reorder = false) :
    acceptStep b id s = if r.state = .starting then recompute (begun b s) else begun b s := by
  unfold acceptStep
  rw [hl]
  dsimp only
  rw [if_pos ⟨ho, ha⟩, if_neg (by rw [hr]; decide)]
  rfl

/-- R70: the record of a run whose step has begun. -/
def Run.afterBegin (r : Run) (now : Nat) : Run :=
  Run.toRunning (Run.startIfFirst { r.begin now with reported := none } (now / 1000))

theorem begun_run (h : s.runs.runs[b] = some r) : (begun b s).runs.runs[b] = some (r.afterBegin s.now) := by
  rw [begun, setRun_run, runStep_run, setRun_run, h]
  rfl

theorem tells_begun (h : s.runs.runs[b] = some r) : Tells s (begun b s) .runStep [bayTok b, .num r.id, .num r.stepIndex, wd "BEGIN", optNum none] := by
  have hset : (s.setRun b (fun x => x.begin s.now)).runs.runs[b] = some (r.begin s.now) := by rw [setRun_run, h]; rfl
  have htold := (tells_runStep hset "BEGIN").since (s := s) ⟨rfl, rfl, List.prefix_rfl, id⟩
  exact htold.mono ⟨rfl, rfl, List.prefix_rfl, id⟩

theorem Run.startIfFirst_eq (r : Run) (sec : Nat) : ∃ started, r.startIfFirst sec = { r with started := started } ∧
    (r.stepIndex = 1 → started = some sec) := by
  unfold startIfFirst
  split
  · exact ⟨_, rfl, fun _ => rfl⟩
  · next hno => exact ⟨_, rfl, fun h => absurd h hno⟩

theorem Run.toRunning_eq (r : Run) : ∃ st res, r.toRunning = { r with state := st, resume := res } ∧ (r.state = .starting → st = .running) ∧
    (r.state = .paused → st = .paused ∧ res = .running) := by
  unfold toRunning
  split
  · next hs => exact ⟨.running, r.resume, rfl, fun _ => rfl, fun h => nomatch hs.symm.trans h⟩
  · next hs => exact ⟨r.state, .running, rfl, fun h => (nomatch hs.symm.trans h), fun _ => ⟨hs, rfl⟩⟩
  · next hs hp => exact ⟨r.state, r.resume, rfl, fun h => absurd h hs, fun h => absurd h hp⟩

theorem Run.afterBegin_facts (r : Run) (now : Nat) : (r.afterBegin now).accepted = true ∧ (r.afterBegin now).credit = 0 ∧
    (r.afterBegin now).rate = none ∧ (r.afterBegin now).estimate = none ∧ (r.afterBegin now).coreReached = none ∧
    (r.afterBegin now).probeLost = false ∧ (r.afterBegin now).runawayDue = none ∧ (r.afterBegin now).elapsed.read now = 0 ∧
    (r.state = .starting → (r.afterBegin now).state = .running) ∧
    (r.state = .paused → (r.afterBegin now).state = .paused ∧ (r.afterBegin now).resume = .running) ∧
    (r.stepIndex = 1 → (r.afterBegin now).started = some (now / 1000)) := by
  obtain ⟨started, hstart, hfirst⟩ := Run.startIfFirst_eq { r.begin now with reported := none } (now / 1000)
  obtain ⟨st, res, hrun, hstarting, hpaused⟩ := Run.toRunning_eq (Run.startIfFirst { r.begin now with reported := none } (now / 1000))
  rw [hstart] at hrun hstarting hpaused
  have helapsed : (r.begin now).elapsed.read now = 0 := by
    unfold Run.begin
    dsimp only
    split
    · rfl
    · simp [Stopwatch.read, Stopwatch.start, Stopwatch.zero]
  rw [afterBegin, hstart, hrun]
  exact ⟨rfl, rfl, rfl, rfl, rfl, rfl, rfl, helapsed, hstarting, hpaused, hfirst⟩

end Sys2Proof.Machine


/-! The ends of steps and the status records of a run (R71-R80). -/

namespace Sys2Proof.Machine
set_option Elab.async false

open Sys2Proof

variable {s t u : State} {b : BayId} {r x : Run} {rep : Report}

/-! ## A run that goes on, or ends -/

/-- R83: a run that has become final, with its notice. -/
def RunBecomes (s t : State) (b : BayId) (r : Run) (st : RunState) (reason : RunReason) : Prop :=
  ∃ x, t.runs.runs[b] = some x ∧ x.state = st ∧ x.reason = reason ∧ x.ended = some (s.now / 1000) ∧
    Tells s t .runEnd [bayTok b, .num r.id, wd st.word, wd reason.word, .num r.number, .num r.rev.revision, .num r.stepIndex, .num x.soilAdded]

/-- R74, R75: a run that takes its next step, or is done. -/
def GoesOn (s t : State) (b : BayId) (r : Run) : Prop :=
  (r.stepIndex < r.rev.steps.length →
    ∃ x, t.runs.runs[b] = some x ∧ x.state = .running ∧ x.stepIndex = r.stepIndex + 1 ∧ x.accepted = false ∧ x.prompt = none) ∧
  (r.rev.steps.length ≤ r.stepIndex → RunBecomes s t b r .done .nothing)

/-- Two records of one run at one step. -/
def Run.sameStep (x r : Run) : Prop := x.id = r.id ∧ x.number = r.number ∧ x.rev = r.rev ∧ x.stepIndex = r.stepIndex

theorem endRun_becomes (hl : liveRun s b = some r) (st : RunState) (reason : RunReason) (e : EndOrder) :
    RunBecomes s (endRun b st reason e .now s) b r st reason := by
  obtain ⟨id, sp, hrun⟩ := endRun_run hl st reason e .now
  obtain ⟨n, hclose⟩ := r.close_eq st reason s.now
  rw [hclose] at hrun
  exact ⟨_, hrun, rfl, rfl, rfl, tells_endRun hl st reason e .now⟩

theorem RunBecomes.since {st : RunState} {reason : RunReason} (h : RunBecomes u t b x st reason) (hu : Later s u) (hx : x.sameStep r) :
    RunBecomes s t b r st reason := by
  obtain ⟨y, hy, hst, hreason, hended, htold⟩ := h
  obtain ⟨hid, hnum, hrev, hstep⟩ := hx
  rw [hid, hnum, hrev, hstep] at htold
  exact ⟨y, hy, hst, hreason, by rw [hended, hu.now], htold.since hu⟩

/-- R74, R75: the run goes on after a step or a prompt. -/
theorem advanceRun_goesOn (hl : liveRun s b = some r) : GoesOn s (advanceRun b s) b r := by
  refine ⟨fun h => ?_, fun h => ?_⟩
  · obtain ⟨x, hx, hst, hstep, hprompt, hacc⟩ := advanceRun_next hl h
    exact ⟨x, hx, hst, hstep, hacc, hprompt⟩
  · have hprompted : liveRun (s.setRun b (fun x => { x with prompt := none })) b = some { r with prompt := none } :=
      liveRun_of_live (by rw [setRun_run, (liveRun_eq_some hl).1]; rfl) (liveRun_eq_some hl).2
    have hends := (endRun_becomes hprompted .done .nothing .idleStep).since (s := s) (r := r) ⟨rfl, rfl, List.prefix_rfl, id⟩ ⟨rfl, rfl, rfl, rfl⟩
    rw [advanceRun, hl]
    dsimp only
    rw [if_neg (not_lt.2 h)]
    exact hends

theorem GoesOn.since (h : GoesOn u t b x) (hu : Later s u) (hx : x.sameStep r) : GoesOn s t b r := by
  obtain ⟨hnext, hlast⟩ := h
  obtain ⟨hid, hnum, hrev, hstep⟩ := hx
  rw [hrev, hstep] at hnext hlast
  exact ⟨hnext, fun h => (hlast h).since hu ⟨hid, hnum, hrev, hstep⟩⟩

theorem later_advanceRun (b : BayId) (s : State) : Later s (advanceRun b s) :=
  ((Touches.refl (m := .all) s).advanceRun (Parts.all_endRun b) (Parts.all_release b)).later

theorem later_setRun (b : BayId) (f : Run → Run) (s : State) : Later s (s.setRun b f) := ⟨rfl, rfl, List.prefix_rfl, id⟩

theorem later_runStep (b : BayId) (e : String) (s : State) : Later s (runStep b e s) :=
  ((Touches.refl (m := .all) s).runStep ⟨trivial, trivial⟩ e).later

theorem later_recompute (s : State) : Later s (recompute s) := (recompute_shared s).later

/-! ## The end of a step -/

/-- R74: a step that has ended, with its notice. -/
def ended (b : BayId) (s : State) : State := runStep b "END" (s.setRun b (fun x => { x with maxDue := none }))

theorem ended_run (h : s.runs.runs[b] = some r) : (ended b s).runs.runs[b] = some { r with maxDue := none, reported := r.estimate } := by
  rw [ended, runStep_run, setRun_run, h]
  rfl

theorem tells_ended (h : s.runs.runs[b] = some r) : Tells s (ended b s) .runStep [bayTok b, .num r.id, .num r.stepIndex, wd "END", optNum r.estimate] := by
  have hset : (s.setRun b (fun x => { x with maxDue := none })).runs.runs[b] = some { r with maxDue := none } := by rw [setRun_run, h]; rfl
  exact (tells_runStep hset "END").since (later_setRun b _ s)

theorem later_ended (b : BayId) (s : State) : Later s (ended b s) := (later_setRun b _ s).trans (later_runStep b _ _)

/-- R75: a run that waits for its prompt. -/
def prompting (b : BayId) (s : State) : State :=
  runStep b "PROMPT" ((ended b s).setRun b (fun x => { x with state := .prompting, prompt := some (false, s.sec + 900) }))

theorem endStep_eq (b : BayId) (st : Step) (s : State) : endStep b st s =
    if st.prompt = true then recompute (prompting b s) else advanceRun b (ended b s) := rfl

theorem prompting_run (h : s.runs.runs[b] = some r) : (prompting b s).runs.runs[b] =
    some { r with maxDue := none, state := .prompting, prompt := some (false, s.sec + 900), reported := r.estimate } := by
  rw [prompting, runStep_run, setRun_run, ended_run h]
  rfl

theorem tells_prompting (h : s.runs.runs[b] = some r) :
    Tells s (prompting b s) .runStep [bayTok b, .num r.id, .num r.stepIndex, wd "PROMPT", optNum r.estimate] := by
  have hset : ((ended b s).setRun b (fun x => { x with state := .prompting, prompt := some (false, s.sec + 900) })).runs.runs[b] =
      some { r with maxDue := none, reported := r.estimate, state := .prompting, prompt := some (false, s.sec + 900) } := by
    rw [setRun_run, ended_run h]
    rfl
  exact (tells_runStep hset "PROMPT").since ((later_ended b s).trans (later_setRun b _ _))

theorem later_prompting (b : BayId) (s : State) : Later (ended b s) (prompting b s) := (later_setRun b _ _).trans (later_runStep b _ _)

/-- R74, R75: the end of a step. -/
theorem endStep_does (hl : liveRun s b = some r) (st : Step) (t : State) (ht : t = endStep b st s) :
    Tells s t .runStep [bayTok b, .num r.id, .num r.stepIndex, wd "END", optNum r.estimate] ∧
    (st.prompt = true → Tells s t .runStep [bayTok b, .num r.id, .num r.stepIndex, wd "PROMPT", optNum r.estimate] ∧
      ∃ x, t.runs.runs[b] = some x ∧ x.state = .prompting ∧ x.prompt = some (false, s.now / 1000 + 900) ∧ x.stepIndex = r.stepIndex) ∧
    (st.prompt = false → GoesOn s t b r) := by
  obtain ⟨hrun, hfin⟩ := liveRun_eq_some hl
  have htold := tells_ended hrun
  cases hp : st.prompt with
  | true =>
    have heq : t = recompute (prompting b s) := by rw [ht, endStep_eq, if_pos hp]
    rw [heq]
    exact ⟨htold.mono ((later_prompting b s).trans (later_recompute _)), fun _ => ⟨(tells_prompting hrun).mono (later_recompute _), _,
      (recompute_run _ b).trans (prompting_run hrun), rfl, rfl, rfl⟩, nofun⟩
  | false =>
    have heq : t = advanceRun b (ended b s) := by rw [ht, endStep_eq, if_neg (by rw [hp]; decide)]
    have hlive : liveRun (ended b s) b = some { r with maxDue := none, reported := r.estimate } := liveRun_of_live (ended_run hrun) hfin
    rw [heq]
    exact ⟨htold.mono (later_advanceRun b _), nofun, fun _ => (advanceRun_goesOn hlive).since (later_ended b s) ⟨rfl, rfl, rfl, rfl⟩⟩

/-! ## The lost probe -/

theorem reportEstimate_mon (b : BayId) (s : State) : (reportEstimate b s).mon = s.mon := by
  unfold reportEstimate
  split
  · split
    · unfold runStep
      split
      · rfl
      · exact queueNotice_mon _ _ _
    · rfl
  · rfl

/-- R80: a record with no valid point, before its estimate is reported. -/
def probeless (b : BayId) (st : Step) (s : State) : State :=
  if (!st.fin.isTime && (s.runs.runs[b]).any (fun r => !r.probeLost)) = true then
    report b .probeLost ((s.setRun b (fun r => { r with estimate := none, sample := none })).setRun b (fun r => { r with probeLost := true }))
  else s.setRun b (fun r => { r with estimate := none, sample := none })

theorem probeCall_of_none {points : List Int} (h : effectiveCore points = none) (st : Step) (s : State) :
    probeCall b st points s = reportEstimate b (probeless b st s) := by
  unfold probeCall
  rw [h]
  rfl

theorem report_runs (b : BayId) (k : EventKind) (s : State) : (report b k s).runs = s.runs := by
  rw [show report b k s = _ from latch_monitorOnly b k false s]

theorem probeless_run (h : s.runs.runs[b] = some r) (st : Step) : (probeless b st s).runs.runs[b] =
      some { r with estimate := none, sample := none, probeLost := r.probeLost || !st.fin.isTime } ∧
    (st.fin.isTime = false → r.probeLost = false → (probeless b st s).mon.bays[b].latches[EventKind.probeLost.slot].set = true) := by
  have hset : (s.setRun b (fun r => { r with estimate := none, sample := none })).runs.runs[b] = some { r with estimate := none, sample := none } := by
    rw [setRun_run, h]
    rfl
  have hany : (s.runs.runs[b]).any (fun r => !r.probeLost) = !r.probeLost := by rw [h]; rfl
  unfold probeless
  rw [hany]
  split
  · next hlost =>
    refine ⟨?_, fun _ _ => report_sets b _ _⟩
    refine (congrArg (fun x : RunEngine => x.runs[b]) (report_runs _ _ _)).trans ?_
    rw [setRun_run, hset]
    simp only [Bool.and_eq_true, Bool.not_eq_true'] at hlost
    obtain ⟨htime, hwas⟩ := hlost
    rw [htime, hwas]
    rfl
  · next hlost =>
    have hsame : (r.probeLost || !st.fin.isTime) = r.probeLost := by
      cases hp : r.probeLost <;> cases ht : st.fin.isTime <;> simp_all
    rw [hsame]
    refine ⟨hset, fun ht hp => absurd ?_ hlost⟩
    rw [ht, hp]
    rfl

theorem isTime_eq_false {f : StepEnd} : f.isTime = false ↔ ∀ secs, f ≠ .time secs := by
  cases f <;> simp [StepEnd.isTime]

/-- R80, R92: a record with no valid point. -/
theorem probeCall_lost (h : s.runs.runs[b] = some r) {points : List Int} (hc : effectiveCore points = none) (st : Step) :
    ∃ x, (probeCall b st points s).runs.runs[b] = some x ∧ x.estimate = none ∧ x.sample = none ∧ x.credit = r.credit ∧ x.rate = r.rate ∧
      ((∀ secs, st.fin ≠ .time secs) → x.probeLost = true ∧
        (r.probeLost = false → (probeCall b st points s).mon.bays[b].latches[EventKind.probeLost.slot].set = true)) := by
  obtain ⟨hrun, hlatch⟩ := probeless_run h st
  obtain ⟨y, hy⟩ := reportEstimate_run hrun
  rw [probeCall_of_none hc, reportEstimate_mon]
  refine ⟨_, hy, rfl, rfl, rfl, rfl, fun ht => ?_⟩
  rw [← isTime_eq_false] at ht
  exact ⟨by rw [ht]; exact Bool.or_true _, hlatch ht⟩

/-- A call of the probe arithmetic leaves the run live. -/
theorem probeCall_live (hl : liveRun s b = some r) (st : Step) (points : List Int) : ∃ y, liveRun (probeCall b st points s) b = some y := by
  obtain ⟨hrun, hfin⟩ := liveRun_eq_some hl
  cases hc : effectiveCore points with
  | none =>
    obtain ⟨y, hy⟩ := reportEstimate_run (probeless_run hrun st).1
    rw [probeCall_of_none hc]
    exact ⟨_, liveRun_of_live hy hfin⟩
  | some core =>
    obtain ⟨y, hy⟩ := probeCall_run hrun (st := st) hc
    rw [Run.capture_keeps] at hy
    exact ⟨_, liveRun_of_live hy hfin⟩

/-! ## The status records of a run -/

/-- A bay's run as the runaway watch of a record leaves it. -/
def watched (b : BayId) (rep : Report) (s : State) : State := s.setRun b (runawayWatch rep.cabinet s.sec)

/-- The run itself after the watch. -/
def Run.watched (r : Run) (rep : Report) (s : State) : Run := runawayWatch rep.cabinet s.sec r

theorem Run.watched_eq (r : Run) (rep : Report) (s : State) : ∃ since due, r.watched rep s = { r with runawaySince := since, runawayDue := due } :=
  ⟨_, _, runawayWatch_keeps rep.cabinet s.sec r⟩

theorem watched_run (h : s.runs.runs[b] = some r) (rep : Report) : (watched b rep s).runs.runs[b] = some (r.watched rep s) := by
  rw [watched, setRun_run, h]
  rfl

theorem watched_live (hl : liveRun s b = some r) (rep : Report) : liveRun (watched b rep s) b = some (r.watched rep s) := by
  obtain ⟨since, due, heq⟩ := r.watched_eq rep s
  refine liveRun_of_live (watched_run (liveRun_eq_some hl).1 rep) ?_
  rw [heq]
  exact (liveRun_eq_some hl).2

theorem Run.watched_sameStep (r : Run) (rep : Report) (s : State) : (r.watched rep s).sameStep r := by
  obtain ⟨since, due, heq⟩ := r.watched_eq rep s
  rw [heq]
  exact ⟨rfl, rfl, rfl, rfl⟩

theorem later_watched (b : BayId) (rep : Report) (s : State) : Later s (watched b rep s) := later_setRun b _ s

theorem setRun_self {f : Run → Run} (h : s.runs.runs[b] = some r) (hf : f r = r) : s.setRun b f = s := by
  have hupd : upd s.runs.runs b (fun o => o.map f) = s.runs.runs := upd_self (by rw [h, Option.map_some, hf])
  rw [State.setRun, hupd]

theorem runRecord_of_off (hl : liveRun s b = some r) (hp : rep.power = .off) : runRecord b rep s = abortRun b .powerOff s := by
  unfold runRecord
  rw [hl]
  exact if_pos hp

theorem runRecord_of_ready (hl : liveRun s b = some r) (hp : rep.power = .on) : runRecord b rep s = runDoor b r rep (watched b rep s) :=
  runRecord_of_on (liveRun_eq_some hl).1 (liveRun_eq_some hl).2 hp

/-! ### STANDBY -/

/-- R68: a run that awaits its wake. -/
def Run.waking (r : Run) (due : Option Nat) : Run := { r with wakeDue := due }

/-- What the door makes of a run does not depend on its wake, nor on the power of the record. -/
theorem runDoor_waking (b : BayId) (r : Run) (due : Option Nat) (rep : Report) (s : State) :
    runDoor b (r.waking due) { rep with power := .on } s = runDoor b r rep s := by
  have hstate : (r.waking due).state = r.state := rfl
  have hresume : (r.waking due).resume = r.resume := rfl
  have hdoor : ({ rep with power := .on } : Report).doorOpen = rep.doorOpen := rfl
  have hrunning : ∀ u, runningRecord b { rep with power := .on } u = runningRecord b rep u := fun _ => rfl
  have hprompting : promptingRecord b (r.waking due) { rep with power := .on } s = promptingRecord b r rep s := rfl
  unfold runDoor
  simp only [hstate, hresume, hdoor, hrunning, hprompting]

theorem runStandby_does (hl : liveRun s b = some r) : ∃ due, (runStandby b r s).runs.runs[b] = some (r.waking due) ∧ Later s (runStandby b r s) ∧
    (r.wakeDue.isSome = true → runStandby b r s = s) ∧
    (r.wakeDue = none → due = some (s.now / 1000 + 60) ∧ Woken s (runStandby b r s) b) := by
  obtain ⟨hrun, -⟩ := liveRun_eq_some hl
  unfold runStandby
  cases hw : r.wakeDue with
  | some d =>
    rw [Option.isNone_some, if_neg (by decide)]
    refine ⟨some d, ?_, Later.refl s, fun _ => rfl, nofun⟩
    rw [← hw]
    exact hrun
  | none =>
    rw [Option.isNone_none, if_pos rfl]
    have hset : (s.setRun b (fun x => { x with wakeDue := some (s.sec + 60) })).runs.runs[b] = some (r.waking (some (s.sec + 60))) := by
      rw [setRun_run, hrun]
      rfl
    refine ⟨some (s.sec + 60), ?_, ?_, nofun, fun _ => ⟨rfl, woken_wakeCause b (s.setRun b (fun x => { x with wakeDue := some (s.sec + 60) }))⟩⟩
    · rw [wakeCause_eq]
      exact hset
    · exact (later_setRun b _ s).trans (later_wakeCause b _)

/-- R68: a record in STANDBY asks for the WAKE, and is then used as any other. -/
theorem runRecord_of_standby (hl : liveRun s b = some r) (hp : rep.power = .standby) :
    runRecord b rep s = runRecord b { rep with power := .on } (runStandby b r s) := by
  obtain ⟨due, hrun, hlater, -⟩ := runStandby_does hl
  have hlive : liveRun (runStandby b r s) b = some (r.waking due) := liveRun_of_live hrun (liveRun_eq_some hl).2
  have hsec : (runStandby b r s).sec = s.sec := congrArg (· / 1000) hlater.now
  have heq : runRecord b rep s = runDoor b r rep ((runStandby b r s).setRun b (runawayWatch rep.cabinet s.sec)) := by
    unfold runRecord
    rw [hl]
    dsimp only
    rw [if_neg (by rw [hp]; decide), if_pos hp]
  rw [heq, runRecord_of_ready hlive rfl, runDoor_waking, watched, hsec]

/-! ### The door -/

/-- R76: what the door makes of a run that it pauses. -/
def Run.pausedIn (s : State) (r : Run) : Run :=
  { r with state := .paused, resume := r.state, graceDue := some (s.sec + s.runs.doorGrace), pausedAt := s.sec, elapsed := r.elapsed.stop s.now }

theorem pauseRun_eq (b : BayId) (s : State) : pauseRun b s = recompute (runStep b "PAUSE" (s.setRun b (Run.pausedIn s))) := rfl

theorem tells_pauseRun (h : s.runs.runs[b] = some r) :
    Tells s (pauseRun b s) .runStep [bayTok b, .num r.id, .num r.stepIndex, wd "PAUSE", optNum r.estimate] := by
  have hset : (s.setRun b (Run.pausedIn s)).runs.runs[b] = some (r.pausedIn s) := by
    rw [setRun_run, h]
    rfl
  rw [pauseRun_eq]
  exact ((tells_runStep hset "PAUSE").since (later_setRun b _ s)).mono (later_recompute _)

/-- R77: what the door makes of a run that it resumes. -/
def Run.resumedIn (s : State) (r : Run) : Run :=
  { r.countPause s.sec with state := r.resume, graceDue := none, sample := none, elapsed := if r.accepted then r.elapsed.start s.now else r.elapsed }

theorem resumeRun_eq (b : BayId) (s : State) : resumeRun b s = recompute (runStep b "RESUME" (s.setRun b (Run.resumedIn s))) := rfl

theorem later_resumeRun (b : BayId) (s : State) : Later s (resumeRun b s) := by
  rw [resumeRun_eq]
  exact ((later_setRun b (Run.resumedIn s) s).trans (later_runStep b "RESUME" _)).trans (later_recompute _)

theorem Run.countPause_eq (r : Run) (sec : Nat) : ∃ total, r.countPause sec = { r with pauseTotal := total } ∧
    (r.state = .paused → total = (match r.started with | some a => r.pauseTotal + (sec - max r.pausedAt a) | none => r.pauseTotal)) := by
  unfold Run.countPause
  split
  · next a hst hs => exact ⟨_, rfl, fun _ => by rw [hs]⟩
  · next hno =>
    refine ⟨r.pauseTotal, rfl, fun hst => ?_⟩
    cases hs : r.started with
    | none => rfl
    | some a => exact absurd hs (hno a hst)

theorem resumeRun_run (h : s.runs.runs[b] = some r) : (resumeRun b s).runs.runs[b] =
    some { r.resumedIn s with reported := (r.resumedIn s).estimate } := by
  rw [resumeRun_eq, recompute_run, runStep_run, setRun_run, h]
  rfl

theorem tells_resumeRun (h : s.runs.runs[b] = some r) :
    Tells s (resumeRun b s) .runStep [bayTok b, .num r.id, .num r.stepIndex, wd "RESUME", optNum r.estimate] := by
  obtain ⟨total, htotal, -⟩ := r.countPause_eq s.sec
  have hset : (s.setRun b (Run.resumedIn s)).runs.runs[b] = some (r.resumedIn s) := by
    rw [setRun_run, h]
    rfl
  have htold := (tells_runStep hset "RESUME").since (later_setRun b _ s)
  rw [Run.resumedIn, htotal] at htold
  rw [resumeRun_eq]
  exact htold.mono (later_recompute _)

/-! ### The records of a bay that is ON -/

/-- R71: the run of a bay placed its current step again. -/
theorem reorderStep_does {st : Step} (hx : s.runs.runs[b] = some x) (hst : r.step = some st) (hready : s.reg[b].state = .ready)
    (hq : s.line.bays[b].queue.length < 6) :
    (∃ o ∈ (reorderStep b r s).line.bays[b].queue, o.id = s.line.bays[b].nextId ∧ o.body = stepOrder r st r.setpoint) ∧
    ∃ y, (reorderStep b r s).runs.runs[b] = some y ∧ y.orderedId = some s.line.bays[b].nextId ∧ y.accepted = false ∧ y.reorder = true ∧
      y.state = x.state ∧ y.stepIndex = x.stepIndex := by
  have hset : (s.setRun b (fun x => { x with accepted := false, reorder := true, elapsed := x.elapsed.stop s.now })).runs.runs[b] =
      some { x with accepted := false, reorder := true, elapsed := x.elapsed.stop s.now } := by
    rw [setRun_run, hx]
    rfl
  have hline : (s.setRun b (fun x => { x with accepted := false, reorder := true, elapsed := x.elapsed.stop s.now })).line = s.line := rfl
  have hreg : (s.setRun b (fun x => { x with accepted := false, reorder := true, elapsed := x.elapsed.stop s.now })).reg = s.reg := rfl
  unfold reorderStep
  rw [hst]
  dsimp only
  generalize s.setRun b (fun x => { x with accepted := false, reorder := true, elapsed := x.elapsed.stop s.now }) = v at hset hline hreg ⊢
  have htakes : takesOrders v b = true := takesOrders_of_ready (by rw [hreg]; exact hready)
  have hroom : v.line.bays[b].queue.length < 6 := by rw [hline]; exact hq
  refine ⟨⟨nextOrder v b (stepOrder r st r.setpoint), mem_placeOrder htakes hroom _ _, by rw [nextOrder, hline], rfl⟩, ?_⟩
  rw [placeOrder_joins htakes (by simp [stepOrder, OrderBody.kind, OrderKind.coalesces]) hroom]
  refine ⟨{ x with accepted := false, reorder := true, elapsed := x.elapsed.stop s.now, orderedId := some s.line.bays[b].nextId, setpoint := r.setpoint },
    ?_, rfl, rfl, rfl, rfl, rfl⟩
  refine (setRun_run (v.setLine b _) b (fun y => { y with orderedId := some v.line.bays[b].nextId, setpoint := r.setpoint })).trans ?_
  show (v.runs.runs[b]).map _ = _
  rw [hset, hline]
  rfl

/-- R77: a run that its door has resumed. -/
theorem resumeRun_resumes (h : s.runs.runs[b] = some r) (hst : r.state = .paused) (rep : Report) :
    ∃ y, (resumeRun b (watched b rep s)).runs.runs[b] = some y ∧ y.sameStep r ∧ y.state = r.resume ∧ y.accepted = r.accepted ∧ y.graceDue = none ∧
      y.sample = none ∧ y.credit = r.credit ∧ y.rate = r.rate ∧ y.orderedId = r.orderedId ∧
      y.elapsed = (if r.accepted = true then r.elapsed.start s.now else r.elapsed) ∧
      y.pauseTotal = (match r.started with | some a => r.pauseTotal + (s.now / 1000 - max r.pausedAt a) | none => r.pauseTotal) ∧
      (r.resume ≠ .starting → runawayWatch rep.cabinet s.sec y = y) := by
  obtain ⟨since, due, hwatch⟩ := r.watched_eq rep s
  have hrun := resumeRun_run (watched_run h rep)
  have hnow : (watched b rep s).now = s.now := rfl
  obtain ⟨total, htotal, hpaused⟩ := Run.countPause_eq (r.watched rep s) (watched b rep s).sec
  rw [hwatch] at hpaused
  have hagain := runawayWatch_again (r := r) (x := { (r.watched rep s).resumedIn (watched b rep s) with reported := ((r.watched rep s).resumedIn (watched b rep s)).estimate })
    (cabinet := rep.cabinet) (sec := s.sec) (by rw [hst]; decide)
  rw [Run.resumedIn, htotal] at hrun hagain
  refine ⟨_, hrun, ?_, ?_, ?_, rfl, rfl, ?_, ?_, ?_, ?_, hpaused hst, fun hres => hagain ?_ ?_ ?_ rfl rfl⟩
  all_goals dsimp only
  all_goals rw [hwatch]
  · exact ⟨rfl, rfl, rfl, rfl⟩
  · rw [hnow]
  · exact hres

section

variable (hl : liveRun s b = some r) (hon : rep.power = .on)
include hl hon

/-- R76: the door opens on a run. -/
theorem runRecord_pauses (hopen : rep.doorOpen = true) (hst : r.state = .starting ∨ r.state = .running) :
    Tells s (runRecord b rep s) .runStep [bayTok b, .num r.id, .num r.stepIndex, wd "PAUSE", optNum r.estimate] ∧
    ∃ x, (runRecord b rep s).runs.runs[b] = some x ∧ x.state = .paused ∧ x.resume = r.state ∧ x.pausedAt = s.now / 1000 ∧ x.accepted = r.accepted ∧
      ∀ n, x.elapsed.read n = r.elapsed.read s.now := by
  obtain ⟨since, due, hwatch⟩ := r.watched_eq rep s
  have hrun := watched_run (liveRun_eq_some hl).1 rep
  have heq : runRecord b rep s = pauseRun b (watched b rep s) := by
    rw [runRecord_of_ready hl hon, runDoor]
    rcases hst with hst | hst <;> rw [hst] <;> exact if_pos hopen
  have htold := (tells_pauseRun hrun).since (later_watched b rep s)
  have hpaused := pauseRun_run b (watched b rep s)
  rw [hrun, Option.map_some] at hpaused
  rw [hwatch] at hpaused htold
  rw [heq]
  exact ⟨htold, _, hpaused, rfl, rfl, rfl, rfl, fun n => rfl⟩

theorem runRecord_prompts (hopen : rep.doorOpen = true) (hst : r.state = .prompting) : ∃ x, (runRecord b rep s).runs.runs[b] = some x ∧
    x.state = .prompting ∧ x.prompt = r.prompt.map (fun p => (true, p.2)) := by
  obtain ⟨since, due, hwatch⟩ := r.watched_eq rep s
  have hrun := watched_run (liveRun_eq_some hl).1 rep
  have heq : runRecord b rep s = (watched b rep s).setRun b (fun x => { x with prompt := x.prompt.map (fun p => (true, p.2)) }) := by
    rw [runRecord_of_ready hl hon, runDoor, hst]
    exact if_pos hopen
  have hset := setRun_run (watched b rep s) b (fun x => { x with prompt := x.prompt.map (fun p => (true, p.2)) })
  rw [hrun, Option.map_some, hwatch] at hset
  rw [heq]
  exact ⟨_, hset, hst, rfl⟩

/-- R75: the door completes a prompt that has been seen to. -/
theorem runRecord_prompted (hopen : rep.doorOpen = false) (hst : r.state = .prompting) (ha : r.accepted = true) (hid : rep.stepId = r.id) {d : Nat}
    (hp : r.prompt = some (true, d)) : GoesOn s (runRecord b rep s) b r := by
  have heq : runRecord b rep s = advanceRun b (watched b rep s) := by
    rw [runRecord_of_ready hl hon, runDoor, hst]
    dsimp only
    rw [promptingRecord, if_neg (by rw [hopen]; decide)]
    dsimp only
    rw [if_pos (by rw [hp]; rfl), if_neg (by rw [hid]; simp)]
  rw [heq]
  exact (advanceRun_goesOn (watched_live hl rep)).since (later_watched b rep s) (r.watched_sameStep rep s)

/-- R77: the door resumes a run whose step does not run on at once. -/
theorem runRecord_resumes (hopen : rep.doorOpen = false) (hst : r.state = .paused) (hres : r.resume ≠ .running ∨ r.accepted = false) :
    runRecord b rep s = resumeRun b (watched b rep s) := by
  obtain ⟨y, hy, -, hys, hya, -⟩ := resumeRun_resumes (liveRun_eq_some hl).1 hst rep
  rw [runRecord_of_ready hl hon, runDoor, hst]
  dsimp only
  rw [if_neg (by rw [hopen]; decide)]
  split
  · next hrunning =>
    obtain ha := hres.resolve_left (not_not.2 hrunning)
    have hlive : liveRun (resumeRun b (watched b rep s)) b = some y := liveRun_of_live hy (by rw [hys, hrunning]; rfl)
    rw [runningRecord, hlive]
    dsimp only
    rw [hya, ha]
    rfl
  · rfl

/-- R77: a record that resumes a run is then used as any record of the resumed run. -/
theorem runRecord_runsOn (hopen : rep.doorOpen = false) (hst : r.state = .paused) (hres : r.resume = .running) :
    runRecord b rep s = runningRecord b rep (resumeRun b (watched b rep s)) ∧
    runRecord b rep s = runRecord b rep (resumeRun b (watched b rep s)) := by
  obtain ⟨y, hy, -, hys, -, -, -, -, -, -, -, -, hagain⟩ := resumeRun_resumes (liveRun_eq_some hl).1 hst rep
  have heq : runRecord b rep s = runningRecord b rep (resumeRun b (watched b rep s)) := by
    rw [runRecord_of_ready hl hon, runDoor, hst]
    dsimp only
    rw [if_neg (by rw [hopen]; decide), if_pos hres]
  have hsec : (resumeRun b (watched b rep s)).sec = s.sec := by
    exact congrArg (· / 1000) ((later_watched b rep s).trans (later_resumeRun b _)).now
  refine ⟨heq, heq.trans ?_⟩
  generalize resumeRun b (watched b rep s) = p at hy hsec
  have hlive : liveRun p b = some y := liveRun_of_live hy (by rw [hys, hres]; rfl)
  have hsame : watched b rep p = p := setRun_self hy (by rw [hsec]; exact hagain (by rw [hres]; decide))
  rw [runRecord_of_ready hlive hon, hsame, runDoor, hys, hres]
  exact (if_neg (by rw [hopen]; decide)).symm

variable (hopen : rep.doorOpen = false) (hst : r.state = .running)
include hopen hst

theorem runRecord_of_running : runRecord b rep s = runningRecord b rep (watched b rep s) := by
  rw [runRecord_of_ready hl hon, runDoor, hst]
  exact if_neg (by rw [hopen]; decide)

theorem runRecord_unaccepted (ha : r.accepted = false) : runRecord b rep s = watched b rep s := by
  obtain ⟨since, due, hwatch⟩ := r.watched_eq rep s
  rw [runRecord_of_running hl hon hopen hst, runningRecord, watched_live hl rep, hwatch]
  exact if_pos (by rw [ha]; rfl)

variable (ha : r.accepted = true) {st : Step} (hstep : r.step = some st)
include ha hstep

/-- R71: a record that shows another step id. -/
theorem runRecord_reorders (hid : rep.stepId ≠ r.id) (hready : s.reg[b].state = .ready) (hq : s.line.bays[b].queue.length < 6) :
    (∃ o ∈ (runRecord b rep s).line.bays[b].queue, o.id = s.line.bays[b].nextId ∧ o.body = stepOrder r st r.setpoint) ∧
    ∃ x, (runRecord b rep s).runs.runs[b] = some x ∧ x.orderedId = some s.line.bays[b].nextId ∧ x.accepted = false ∧ x.reorder = true ∧
      x.state = .running ∧ x.stepIndex = r.stepIndex := by
  obtain ⟨since, due, hwatch⟩ := r.watched_eq rep s
  have hrun := watched_run (liveRun_eq_some hl).1 rep
  have heq : runRecord b rep s = reorderStep b (r.watched rep s) (watched b rep s) := by
    rw [runRecord_of_running hl hon hopen hst, runningRecord, watched_live hl rep, hwatch]
    dsimp only
    rw [if_neg (by rw [ha]; decide), if_pos hid]
  obtain ⟨horder, y, hy, hoid, hacc, hre, hys, hyi⟩ := reorderStep_does (r := r.watched rep s) (st := st) hrun (by rw [hwatch]; exact hstep) hready hq
  rw [heq]
  rw [hwatch] at horder hys hyi
  rw [hwatch]
  exact ⟨horder, y, hwatch ▸ hy, hoid, hacc, hre, hys.trans hst, hyi⟩

/-- R72: a record of the step that runs. -/
theorem runRecord_used (hid : rep.stepId = r.id) : runRecord b rep s = useRecord b st rep (watched b rep s) := by
  obtain ⟨since, due, hwatch⟩ := r.watched_eq rep s
  have hws : (r.watched rep s).step = some st := by rw [hwatch]; exact hstep
  rw [runRecord_of_running hl hon hopen hst, runningRecord, watched_live hl rep]
  dsimp only
  rw [hws]
  dsimp only
  rw [hwatch]
  dsimp only
  rw [if_neg (by rw [ha]; decide), if_neg (not_not.2 hid)]

end

/-- R72: the record used, and whether it ends the step. -/
theorem useRecord_does (hl : liveRun s b = some r) (st : Step) (rep : Report) (v : State)
    (hv : v = if st.control = .delta ∨ st.fin.isTime = false then probeCall b st rep.cores s else s) : ∃ y, liveRun v b = some y ∧
      useRecord b st rep s = if stepOver y st (effectiveCore rep.cores) rep.cabinet s.now = true then endStep b st v else v := by
  have hcall : (if st.probeCall = true then probeCall b st rep.cores s else s) = v := by
    rw [hv]
    refine if_congr ?_ rfl rfl
    rw [Step.probeCall, Bool.or_eq_true, decide_eq_true_eq, Bool.not_eq_true']
  have hlive : ∃ y, liveRun v b = some y := by
    rw [hv]
    split
    · exact probeCall_live hl st _
    · exact ⟨r, hl⟩
  obtain ⟨y, hy⟩ := hlive
  refine ⟨y, hy, ?_⟩
  unfold useRecord
  dsimp only
  rw [hcall, hy]

/-! ## The obligation -/

theorem later_runningRecord (b : BayId) (rep : Report) (s : State) : Later s (runningRecord b rep s) :=
  ((Touches.refl (m := .all) s).runningRecord ⟨Parts.all_endRun b, Parts.all_release b⟩ rep).later

/-- R70, R71: the acceptance of a STEP. -/
theorem acceptStep_does (hl : liveRun s b = some r) {id : Nat} (ho : r.orderedId = some id) (ha : r.accepted = false) (t : State)
    (ht : t = acceptStep b id s) :
    (r.reorder = false → Tells s t .runStep [bayTok b, .num r.id, .num r.stepIndex, wd "BEGIN", optNum none] ∧
      ∃ x, t.runs.runs[b] = some x ∧ x.accepted = true ∧ x.credit = 0 ∧ x.rate = none ∧ x.estimate = none ∧ x.coreReached = none ∧
        x.probeLost = false ∧ x.runawayDue = none ∧ x.elapsed.read s.now = 0 ∧ (r.state = .starting → x.state = .running) ∧
        (r.state = .paused → x.state = .paused ∧ x.resume = .running) ∧ (r.stepIndex = 1 → x.started = some (s.now / 1000))) ∧
    (r.reorder = true → ∃ x, t.runs.runs[b] = some x ∧ x.accepted = true ∧ x.reorder = false ∧ x.state = r.state ∧ x.credit = r.credit ∧
      x.stepIndex = r.stepIndex ∧ t.host = s.host) := by
  obtain ⟨hrun, -⟩ := liveRun_eq_some hl
  refine ⟨fun hr => ?_, fun hr => ?_⟩
  · have hbegun := begun_run hrun
    have htold := tells_begun hrun
    have hboth : Tells s t .runStep [bayTok b, .num r.id, .num r.stepIndex, wd "BEGIN", optNum none] ∧ t.runs.runs[b] = some (r.afterBegin s.now) := by
      rw [ht, acceptStep_begins hl ho ha hr]
      generalize begun b s = v at hbegun htold ⊢
      split
      · exact ⟨htold.mono (later_recompute v), (recompute_run v b).trans hbegun⟩
      · exact ⟨htold, hbegun⟩
    exact ⟨hboth.1, _, hboth.2, r.afterBegin_facts s.now⟩
  · have hset := setRun_run s b (fun x =>
      { x with accepted := true, reorder := false, elapsed := if x.state = .paused then x.elapsed else x.elapsed.start s.now })
    rw [hrun, Option.map_some] at hset
    rw [ht, acceptStep_reorders hl ho ha hr]
    exact ⟨_, hset, rfl, rfl, rfl, rfl, rfl, rfl⟩

/-- R77: the resumption of a run whose step runs on with the same record. -/
theorem runRecord_resumes_and_runs (hl : liveRun s b = some r) (hon : rep.power = .on) (hopen : rep.doorOpen = false) (hst : r.state = .paused)
    (hres : r.resume = .running) (ha : r.accepted = true) (p : State) (hp : p = resumeRun b (watched b rep s)) :
    Tells s (runRecord b rep s) .runStep [bayTok b, .num r.id, .num r.stepIndex, wd "RESUME", optNum r.estimate] ∧
    (∃ x, p.runs.runs[b] = some x ∧ x.state = .running ∧ x.accepted = true ∧ x.graceDue = none ∧ x.sample = none ∧ x.credit = r.credit ∧
      x.rate = r.rate ∧ x.stepIndex = r.stepIndex ∧ x.orderedId = r.orderedId ∧ x.elapsed = r.elapsed.start s.now ∧
      x.pauseTotal = (match r.started with | some a => r.pauseTotal + (s.now / 1000 - max r.pausedAt a) | none => r.pauseTotal)) ∧
    runRecord b rep s = runRecord b rep p := by
  obtain ⟨hrun, -⟩ := liveRun_eq_some hl
  obtain ⟨y, hy, ⟨-, -, -, hyi⟩, hys, hya, hyg, hysample, hycredit, hyrate, hyo, hye, hyp, -⟩ := resumeRun_resumes hrun hst rep
  obtain ⟨huses, hagain⟩ := runRecord_runsOn hl hon hopen hst hres
  obtain ⟨since, due, hwatch⟩ := r.watched_eq rep s
  have htold := (tells_resumeRun (watched_run hrun rep)).since (later_watched b rep s)
  rw [hwatch] at htold
  rw [if_pos ha] at hye
  rw [← hp] at hy huses hagain htold
  refine ⟨?_, ⟨y, hy, hys.trans hres, hya.trans ha, hyg, hysample, hycredit, hyrate, hyi, hyo, hye, hyp⟩, hagain⟩
  rw [huses]
  exact htold.mono (later_runningRecord b rep p)

/-- R77: the resumption of a run whose step does not run on. -/
theorem runRecord_resumes_alone (hl : liveRun s b = some r) (hon : rep.power = .on) (hopen : rep.doorOpen = false) (hst : r.state = .paused)
    (hres : r.resume ≠ .running ∨ r.accepted = false) :
    Tells s (runRecord b rep s) .runStep [bayTok b, .num r.id, .num r.stepIndex, wd "RESUME", optNum r.estimate] ∧
    ∃ x, (runRecord b rep s).runs.runs[b] = some x ∧ x.state = r.resume ∧ x.graceDue = none ∧
      x.pauseTotal = (match r.started with | some a => r.pauseTotal + (s.now / 1000 - max r.pausedAt a) | none => r.pauseTotal) := by
  obtain ⟨hrun, -⟩ := liveRun_eq_some hl
  obtain ⟨y, hy, -, hys, -, hyg, -, -, -, -, -, hyp, -⟩ := resumeRun_resumes hrun hst rep
  obtain ⟨since, due, hwatch⟩ := r.watched_eq rep s
  have htold := (tells_resumeRun (watched_run hrun rep)).since (later_watched b rep s)
  rw [hwatch] at htold
  rw [runRecord_resumes hl hon hopen hst hres]
  exact ⟨htold, y, hy, hys, hyg, hyp⟩

/-- Settles O32. -/
theorem runsFollowTheirRecords : Obligations.RunsFollowTheirRecords := by
  refine ⟨stepOver_iff, fun r cabinet sec => ⟨fun hst hstarted => ⟨runawayWatch_starts hst hstarted, runawayWatch_lasts hst hstarted,
    runawayWatch_ends hst hstarted⟩, runawayWatch_idle⟩, fun s b i => ?_, fun s b r hrun hfin => ?_⟩
  · refine ⟨?_, fun reason hc => (panelCook_refused hc _ rfl).2, fun e hc => (panelCook_admitted hc _ rfl).2⟩
    cases hc : runCheck s b s.lib.quick[i] with
    | error reason => exact (panelCook_refused hc _ rfl).1
    | ok e => exact (panelCook_admitted hc _ rfl).1
  have hl := liveRun_of_live hrun hfin
  refine ⟨fun id ho ha => acceptStep_does hl ho ha _ rfl, fun st _ _ => endStep_does hl st _ rfl, fun st points hc => probeCall_lost hrun hc st,
    fun rep => ⟨fun hoff => ?_, fun hst => ?_, fun hon => ⟨runRecord_pauses hl hon, runRecord_prompts hl hon,
      fun hopen hst ha hid d => runRecord_prompted hl hon hopen hst ha hid, runRecord_resumes_alone hl hon,
      fun hopen hst hres ha => runRecord_resumes_and_runs hl hon hopen hst hres ha _ rfl, runRecord_unaccepted hl hon,
      fun hopen hst ha st hstep => ⟨runRecord_reorders hl hon hopen hst ha hstep, fun hid => ?_⟩⟩⟩⟩
  · rw [runRecord_of_off hl hoff]
    exact endRun_becomes hl .aborted .powerOff .safe
  · obtain ⟨due, hw, -, hsame, hwaits⟩ := runStandby_does hl
    refine ⟨runRecord_of_standby hl hst, hsame, fun hnone => ?_⟩
    obtain ⟨hdue, hwoken⟩ := hwaits hnone
    exact ⟨by rw [hw, hdue]; rfl, hwoken⟩
  · rw [runRecord_used hl hon hopen hst ha hstep hid]
    exact useRecord_does (watched_live hl rep) st rep _ rfl

end Sys2Proof.Machine


/-! The visits of a pass, one after the other (R173, R174, R180). -/

namespace Sys2Proof.Machine
set_option Elab.async false

open Sys2Proof

variable {s t : State} {b : BayId} {c : Fin 4} {released : Option BayId}

/-! ## One visit -/

/-- What the visits of the bays of a set may change. -/
def Parts.calling (on : BayId → Prop) (c : Fin 4) : Parts :=
  { claim := on, line := fun _ => True, heat := fun _ => True, shares := True, flow := (· = c), chan := (· = c) }

theorem passVisit_touches {on : BayId → Prop} (released : Option BayId) (c : Fin 4) (hb : on b) (s : State) :
    Touches (.calling on c) s (passVisit released c b s) := by
  by_cases hv : s.dist.channels[c].visitable b
  · obtain ⟨-, -, -, hwaiting⟩ := hv
    have hopen : (Parts.calling on c).opens c ∨ (s.dist.channels[c].progress[b]).settled = false := .inr (Progress.settled_of_waiting hwaiting)
    have hrefl := Touches.refl (m := .calling on c) s
    have hend := fun p => hrefl.endWaiting rfl rfl (b := b) trivial trivial hopen p
    have hput := hrefl.setProgress rfl rfl hopen .deferred
    rw [passVisit_eq]
    unfold visitEntry
    split
    · split
      · exact hrefl
      split
      · exact hend _
      split
      · exact hend _
      split
      · exact hend _
      split
      · exact hput
      split
      · split
        · exact hrefl
        · exact hput
      split
      · exact hput.wakeCause trivial trivial
      · exact hrefl.beginTransfer rfl rfl hb ⟨trivial, fun _ => trivial⟩ hopen
    · exact hrefl
  · rw [passVisit_of_not_visitable hv]
    exact .refl s

/-- The window of a channel allows a visit of the bay. -/
def Channel.allows (x : Channel) (s : State) (b : BayId) : Prop := x.windowRequired = false ∨ covered s .update b = true

theorem passVisit_of_barred (h : ¬ s.dist.channels[c].allows s b) : passVisit released c b s = s := by
  obtain ⟨hreq, hcov⟩ := not_or.1 h
  exact passVisit_of_uncovered (Bool.not_eq_false _ ▸ hreq) (Bool.not_eq_true _ ▸ hcov)

/-- R174: a pass that comes to the entry of the bay begins its transfer. -/
structure Begins (s : State) (c : Fin 4) (b : BayId) : Prop where
  visitable : s.dist.channels[c].visitable b
  allows : s.dist.channels[c].allows s b
  ready : s.reg[b].state = .ready
  model : s.reg[b].identity.map Identity.model = some (slotOf s c).header.target
  free : s.mon.bays[b].hold = .nothing
  on : s.reg[b].power = .on
  idle : s.reg[b].activity = .nothing

theorem Begins.visit (h : Begins s c b) : passVisit released c b s = beginTransfer c b s := by
  rw [passVisit_of_visitable h.visitable h.allows, visit_begins h.ready h.model h.free h.on h.idle]

/-- From `s` to `t` the channel keeps all but the bay's entry, which is then FAILED, DEFERRED, or as it was. -/
def EntryJudged (c : Fin 4) (b : BayId) (s t : State) : Prop :=
  ∃ p, t.dist.channels[c] = { s.dist.channels[c] with progress := upd s.dist.channels[c].progress b (fun _ => p) } ∧
    (p = s.dist.channels[c].progress[b] ∨ p = .deferred ∨ ∃ r, p = .failed r)

theorem entryJudged_refl (c : Fin 4) (b : BayId) (s : State) : EntryJudged c b s s :=
  ⟨_, by rw [upd_self (v := s.dist.channels[c].progress) (i := b) (f := fun _ => s.dist.channels[c].progress[b]) rfl], .inl rfl⟩

theorem entryJudged_deferred (c : Fin 4) (b : BayId) (s : State) : EntryJudged c b s (setProgress c b .deferred s) :=
  ⟨_, setProgress_channel .., .inr (.inl rfl)⟩

theorem entryJudged_failed (c : Fin 4) (b : BayId) (r : FailReason) (s : State) : EntryJudged c b s (endWaiting c b (.failed r) s) :=
  ⟨_, endWaiting_channel .., .inr (.inr ⟨r, rfl⟩)⟩

/-- What a visit leaves of the entry: it begins the transfer, or the channel keeps all but the entry, which is then FAILED, waiting, or as it was. -/
theorem passVisit_channel (released : Option BayId) (c : Fin 4) (b : BayId) (s : State) :
    (Begins s c b ∧ ∃ id, (passVisit released c b s).dist.channels[c] = { s.dist.channels[c].begun b with discardId := id }) ∨
    ¬ Begins s c b ∧ EntryJudged c b s (passVisit released c b s) := by
  by_cases hbegins : Begins s c b
  · refine .inl ⟨hbegins, ?_⟩
    obtain ⟨id, h, -⟩ := beginTransfer_channel (c := c) hbegins.ready
    rw [hbegins.visit]
    exact ⟨id, h⟩
  refine .inr ⟨hbegins, ?_⟩
  by_cases hv : s.dist.channels[c].visitable b
  · by_cases hw : s.dist.channels[c].allows s b
    · rw [passVisit_of_visitable hv hw]
      unfold visitEntry
      split
      · exact entryJudged_failed ..
      · next hready =>
        split
        · exact entryJudged_failed ..
        · next hmodel =>
          split
          · exact entryJudged_failed ..
          · next hfree =>
            split
            · exact entryJudged_deferred ..
            · next hoff =>
              split
              · split
                · exact entryJudged_refl ..
                · exact entryJudged_deferred ..
              · next hidle =>
                split
                · rw [EntryJudged, wakeCause_dist]
                  exact entryJudged_deferred ..
                · next hstandby =>
                  have hon : s.reg[b].power = .on := by
                    cases hp : s.reg[b].power with
                    | off => exact absurd hp hoff
                    | standby => exact absurd hp hstandby
                    | on => rfl
                  exact absurd ⟨hv, hw, not_not.1 hready, not_not.1 hmodel, not_not.1 hfree, hon, not_not.1 hidle⟩ hbegins
    · rw [passVisit_of_barred hw]
      exact entryJudged_refl ..
  · rw [passVisit_of_not_visitable hv]
    exact entryJudged_refl ..

/-! ## The visits of a list of bays -/

/-- What the visits of the bays of a set leave of the channel. -/
structure Visited (on : BayId → Prop) (c : Fin 4) (s t : State) : Prop where
  touches : Touches (.calling on c) s t
  state : t.dist.channels[c].state = s.dist.channels[c].state
  masked : t.dist.channels[c].masked = s.dist.channels[c].masked
  slot : t.dist.channels[c].slot = s.dist.channels[c].slot
  window : t.dist.channels[c].windowRequired = s.dist.channels[c].windowRequired
  others : ∀ d, ¬ on d → t.dist.channels[c].progress[d] = s.dist.channels[c].progress[d]

variable {on : BayId → Prop}

theorem Visited.refl (s : State) : Visited on c s s := ⟨.refl s, rfl, rfl, rfl, rfl, fun _ _ => rfl⟩

theorem Visited.visit (h : Visited on c s t) (hb : on b) (released : Option BayId) : Visited on c s (passVisit released c b t) := by
  obtain ⟨htouch, hstate, hmasked, hslot, hwindow, hothers⟩ := h
  have hon := fun d (hd : ¬ on d) (e : d = b) => hd (e ▸ hb)
  have htouched := htouch.trans (passVisit_touches released c hb t)
  obtain ⟨-, id, hchan⟩ | ⟨-, p, hchan, -⟩ := passVisit_channel released c b t
  all_goals
    have hk : ∀ {α : Type} (f : Channel → α), _ := fun f => congrArg f hchan
    refine ⟨htouched, (hk Channel.state).trans hstate, (hk Channel.masked).trans hmasked, (hk Channel.slot).trans hslot,
      (hk Channel.windowRequired).trans hwindow, fun d hd => (hk fun x => x.progress[d]).trans ?_⟩
    exact (upd_other _ _ _ _ (hon d hd)).trans (hothers d hd)

theorem Visited.each (h : Visited on c s t) (l : List BayId) (hl : ∀ d ∈ l, on d) (released : Option BayId) :
    Visited on c s (t.each l (passVisit released c)) := by
  induction l generalizing t with
  | nil => exact h
  | cons d l ih => exact ih (h.visit (hl d List.mem_cons_self) released) fun e he => hl e (List.mem_cons_of_mem d he)

/-- The bays that no visit came to are as they were. -/
theorem Visited.begins_iff (h : Visited on c s t) (hcur : t.dist.channels[c].current = s.dist.channels[c].current) {d : BayId} (hd : ¬ on d) :
    Begins t c d ↔ Begins s c d := by
  have hreg := h.touches.reg_same (b := d) id hd
  have hhold := h.touches.held (b := d) id
  have hslots := h.touches.slots id
  have hsched := h.touches.sched id
  have hmodel : slotOf t c = slotOf s c := by
    rw [slotOf, hslots]
    exact congrArg (fun k : Fin 4 => s.dist.slots[k]) h.slot
  have hcov : covered t .update d = covered s .update d := by rw [covered, covered, hsched]
  have hvis : t.dist.channels[c].visitable d ↔ s.dist.channels[c].visitable d := by
    rw [Channel.visitable, Channel.visitable, h.state, h.masked, hcur, h.others d hd]
  have hallow : t.dist.channels[c].allows t d ↔ s.dist.channels[c].allows s d := by
    rw [Channel.allows, Channel.allows, h.window, hcov]
  constructor
  · rintro ⟨h1, h2, h3, h4, h5, h6, h7⟩
    exact ⟨hvis.1 h1, hallow.1 h2, hreg ▸ h3, hmodel ▸ hreg ▸ h4, hhold ▸ h5, hreg ▸ h6, hreg ▸ h7⟩
  · rintro ⟨h1, h2, h3, h4, h5, h6, h7⟩
    exact ⟨hvis.2 h1, hallow.2 h2, hreg.symm ▸ h3, by rw [hreg, hmodel]; exact h4, hhold.symm ▸ h5, hreg.symm ▸ h6, hreg.symm ▸ h7⟩

theorem visitable_free (h : s.dist.channels[c].current ≠ none) (b : BayId) : passVisit released c b s = s :=
  passVisit_of_not_visitable fun ⟨_, hnone, _⟩ => h hnone

theorem each_taken (h : s.dist.channels[c].current ≠ none) (l : List BayId) : s.each l (passVisit released c) = s :=
  State.each_keeps (· = s) l _ (fun b u hu => by rw [hu, visitable_free h]) s rfl

/-- R174: a transfer begins with the first bay that allows it. -/
theorem each_current (l : List BayId) (hl : l.Nodup) (h : s.dist.channels[c].current = none) :
    (s.each l (passVisit released c)).dist.channels[c].current = none ↔ ∀ d ∈ l, ¬ Begins s c d := by
  induction l generalizing s with
  | nil => exact ⟨fun _ => nofun, fun _ => h⟩
  | cons b l ih =>
    obtain ⟨hb, hl⟩ := List.nodup_cons.1 hl
    have hvis := (Visited.refl (on := (· = b)) (c := c) s).visit rfl released
    rw [State.each_cons, List.forall_mem_cons]
    obtain ⟨hbegins, id, hchan⟩ | ⟨hnot, p, hchan, -⟩ := passVisit_channel released c b s
    · have hcur : (passVisit released c b s).dist.channels[c].current = some b := by rw [hchan]; rfl
      rw [each_taken (by rw [hcur]; nofun), hcur]
      exact ⟨nofun, fun ⟨hn, _⟩ => absurd hbegins hn⟩
    · have hcur : (passVisit released c b s).dist.channels[c].current = s.dist.channels[c].current := by rw [hchan]
      rw [ih hl (hcur.trans h)]
      have hsame : ∀ d ∈ l, (Begins (passVisit released c b s) c d ↔ Begins s c d) := fun d hd => hvis.begins_iff hcur (fun e => hb (e ▸ hd))
      exact ⟨fun hall => ⟨hnot, fun d hd => (hsame d hd).not.1 (hall d hd)⟩, fun ⟨_, hall⟩ d hd => (hsame d hd).not.2 (hall d hd)⟩

/-! ## What the visits leave of the entries -/

/-- An entry that a pass may leave behind where it found one waiting or FAILED. -/
def Progress.underway (p : Progress) : Prop := p.waiting = true ∨ p = .transferring ∨ ∃ r, p = .failed r

theorem passVisit_underway {d : BayId} (h : (s.dist.channels[c].progress[d]).underway) : ((passVisit released c b s).dist.channels[c].progress[d]).underway := by
  by_cases hd : d = b
  · subst hd
    obtain ⟨-, id, hchan⟩ | ⟨-, p, hchan, hp⟩ := passVisit_channel released c d s
    · refine .inr (.inl ?_)
      exact (congrArg (fun x : Channel => x.progress[d]) hchan).trans (upd_same ..)
    · have hentry : (passVisit released c d s).dist.channels[c].progress[d] = p := (congrArg (fun x : Channel => x.progress[d]) hchan).trans (upd_same ..)
      rw [hentry]
      rcases hp with rfl | rfl | hr
      · exact h
      · exact .inl rfl
      · exact .inr (.inr hr)
  · rw [((Visited.refl (on := (· = b)) (c := c) s).visit rfl released).others d hd]
    exact h

/-- An entry that does not wait is left as it is. -/
theorem passVisit_final {d : BayId} (h : (s.dist.channels[c].progress[d]).waiting = false) :
    (passVisit released c b s).dist.channels[c].progress[d] = s.dist.channels[c].progress[d] := by
  by_cases hd : d = b
  · subst hd
    rw [passVisit_of_not_visitable fun ⟨_, _, _, hw⟩ => Bool.false_ne_true (h.symm.trans hw)]
  · exact ((Visited.refl (on := (· = b)) (c := c) s).visit rfl released).others d hd

theorem each_final {d : BayId} (h : (s.dist.channels[c].progress[d]).waiting = false) (l : List BayId) :
    (s.each l (passVisit released c)).dist.channels[c].progress[d] = s.dist.channels[c].progress[d] :=
  State.each_keeps (fun u => u.dist.channels[c].progress[d] = s.dist.channels[c].progress[d]) l _
    (fun _ u hu => (passVisit_final (by rw [hu]; exact h)).trans hu) s rfl

/-- The current bay of the channel is the one whose transfer has begun. -/
def HasBegun (c : Fin 4) (s : State) : Prop := ∀ d, s.dist.channels[c].current = some d → s.dist.channels[c].progress[d] = .transferring

theorem passVisit_begun (h : s.dist.channels[c].current = none ∨ HasBegun c s) :
    (passVisit released c b s).dist.channels[c].current = none ∨ HasBegun c (passVisit released c b s) := by
  obtain ⟨-, id, hchan⟩ | ⟨-, p, hchan, -⟩ := passVisit_channel released c b s
  · refine .inr fun d hd => ?_
    have hk : ∀ {α : Type} (f : Channel → α), _ := fun f => congrArg f hchan
    obtain rfl : b = d := Option.some.inj ((hk Channel.current).symm.trans hd)
    exact (hk fun x => x.progress[b]).trans (upd_same ..)
  · by_cases hcur : s.dist.channels[c].current = none
    · exact .inl ((congrArg Channel.current hchan).trans hcur)
    · rw [visitable_free hcur]
      exact h

/-! ## The end of a pass -/

theorem judgeDone_state (h : s.dist.channels[c].state = .running) : (judgeDone c s).dist.channels[c].state =
    if s.dist.channels[c].current = none ∧ ∀ b : BayId, (s.dist.channels[c].progress[b]).settled = true then .done else .running := by
  have hall : allBays.all (fun b => (s.dist.channels[c].progress[b]).settled) = true ↔ ∀ b : BayId, (s.dist.channels[c].progress[b]).settled = true := by
    rw [List.all_eq_true]
    exact ⟨fun ha b => ha b (List.mem_finRange b), fun ha b _ => ha b⟩
  unfold judgeDone
  dsimp only
  by_cases hdone : s.dist.channels[c].current = none ∧ ∀ b : BayId, (s.dist.channels[c].progress[b]).settled = true
  · rw [if_pos ⟨h, hdone.1, hall.2 hdone.2⟩, if_pos hdone, queueNotice_withHost]
    exact congrArg Channel.state (upd_same s.dist.channels c (fun y => { y with state := .done }))
  · rw [if_neg (fun ⟨_, hnone, hset⟩ => hdone ⟨hnone, hall.1 hset⟩), if_neg hdone]
    exact h

end Sys2Proof.Machine


/-! The start of a channel, its masking, and its arming (R172, R173, R181). -/

namespace Sys2Proof.Machine
set_option Elab.async false

open Sys2Proof

variable {s t u : State} {b : BayId} {c : Fin 4}

/-! ## The bays of the group are judged -/

/-- What the judgement of the bays of a group may change. -/
def Parts.judging (c : Fin 4) : Parts := { flow := (· = c), chan := (· = c), opens := (· = c) }

theorem startBay_touches (c : Fin 4) (b : BayId) (s : State) : Touches (.judging c) s (startBay c b s) := by
  unfold startBay
  split
  · exact (Touches.refl s).setProgress rfl rfl (.inl rfl) _
  · exact (Touches.refl s).settleProgress rfl rfl (.inl rfl) _

theorem startBay_channel (c : Fin 4) (b : BayId) (s : State) : (startBay c b s).dist.channels[c] =
    { s.dist.channels[c] with progress := upd s.dist.channels[c].progress b (fun _ => judgeBay s c b) } := by
  unfold startBay
  split
  · next h =>
    rw [h]
    exact setProgress_channel ..
  · refine (congrArg (fun x : Distributor => x.channels[c]) (transferNotice_dist ..)).trans ?_
    exact setProgress_channel ..

theorem tells_startBay {r : FailReason} (h : judgeBay s c b = .failed r) :
    Tells s (startBay c b s) .transfer [.num (c.val + 1), bayTok b, wd "FAILED", wd r.word] := by
  rw [startBay, h]
  exact (tells_queueNotice _ _ (setProgress c b (.failed r) s)).since ⟨rfl, rfl, List.prefix_rfl, fun h => h⟩

/-- R173: the bays of a list are judged. -/
structure GroupJudged (l : List BayId) (c : Fin 4) (s t : State) : Prop where
  touches : Touches (.judging c) s t
  channel : t.dist.channels[c] = { s.dist.channels[c] with progress := t.dist.channels[c].progress }
  judged : ∀ d ∈ l, t.dist.channels[c].progress[d] = judgeBay s c d
  others : ∀ d, d ∉ l → t.dist.channels[c].progress[d] = s.dist.channels[c].progress[d]
  told : ∀ d ∈ l, ∀ r, judgeBay s c d = .failed r → Tells s t .transfer [.num (c.val + 1), bayTok d, wd "FAILED", wd r.word]

theorem judgeBay_congr (d : BayId) (hreg : t.reg[d] = s.reg[d]) (hslot : slotOf t c = slotOf s c) : judgeBay t c d = judgeBay s c d := by
  rw [judgeBay, judgeBay, hreg, hslot]

theorem slotOf_congr (hslots : t.dist.slots = s.dist.slots) (hslot : t.dist.channels[c].slot = s.dist.channels[c].slot) : slotOf t c = slotOf s c := by
  rw [slotOf, hslots]
  exact congrArg (fun k : Fin 4 => s.dist.slots[k]) hslot

theorem startBay_judges (c : Fin 4) (b d : BayId) (s : State) : judgeBay (startBay c b s) c d = judgeBay s c d :=
  have hk : ∀ {α : Type} (f : Channel → α), _ := fun f => congrArg f (startBay_channel c b s)
  judgeBay_congr d ((startBay_touches c b s).reg_same id id) (slotOf_congr ((startBay_touches c b s).slots id) (hk Channel.slot))

theorem each_judged (l : List BayId) (c : Fin 4) (s : State) : GroupJudged l c s (s.each l (startBay c)) := by
  induction l generalizing s with
  | nil => exact ⟨.refl s, rfl, nofun, fun _ _ => rfl, nofun⟩
  | cons b l ih =>
    obtain ⟨htouch, hchan, hjudged, hothers, htold⟩ := ih (startBay c b s)
    have hfirst := startBay_touches c b s
    have hentry := startBay_channel c b s
    rw [State.each_cons]
    refine ⟨hfirst.trans htouch, by rw [hchan, hentry], fun d hd => ?_, fun d hd => ?_, fun d hd r hr => ?_⟩
    · by_cases hl : d ∈ l
      · rw [hjudged d hl, startBay_judges]
      · obtain rfl := (List.mem_cons.1 hd).resolve_right hl
        rw [hothers d hl]
        exact (congrArg (fun x : Channel => x.progress[d]) hentry).trans (upd_same ..)
    · obtain ⟨hne, hl⟩ := not_or.1 (fun h => hd (List.mem_cons.2 h))
      rw [hothers d hl]
      exact (congrArg (fun x : Channel => x.progress[d]) hentry).trans (upd_other _ _ _ _ hne)
    · by_cases hl : d ∈ l
      · exact (htold d hl r (by rw [startBay_judges]; exact hr)).since hfirst.later
      · obtain rfl := (List.mem_cons.1 hd).resolve_right hl
        exact (tells_startBay hr).mono htouch.later

/-- R173: the channel runs and its bays are judged. -/
def startedChannel (c : Fin 4) (s : State) : State :=
  (s.setChannel c (fun x => { x with state := .running })).each s.dist.channels[c].group (startBay c)

theorem startChannel_eq (c : Fin 4) (s : State) : startChannel c s = pass none c (startedChannel c s) := rfl

/-- What the pass of a channel's start finds. -/
structure Started (c : Fin 4) (s u : State) : Prop where
  reg : u.reg = s.reg
  mon : ∀ d : BayId, u.mon.bays[d].hold = s.mon.bays[d].hold
  sched : u.sched = s.sched
  slot : slotOf u c = slotOf s c
  channel : u.dist.channels[c] = { s.dist.channels[c] with state := .running, progress := u.dist.channels[c].progress }
  judged : ∀ d ∈ s.dist.channels[c].group, u.dist.channels[c].progress[d] = judgeBay s c d
  others : ∀ d, d ∉ s.dist.channels[c].group → u.dist.channels[c].progress[d] = s.dist.channels[c].progress[d]
  later : Later s u
  told : ∀ d ∈ s.dist.channels[c].group, ∀ r, judgeBay s c d = .failed r → Tells s u .transfer [.num (c.val + 1), bayTok d, wd "FAILED", wd r.word]

theorem startedChannel_started (c : Fin 4) (s : State) : Started c s (startedChannel c s) := by
  have hrun : (s.setChannel c (fun x => { x with state := .running })).dist.channels[c] = { s.dist.channels[c] with state := .running } := upd_same ..
  have hk : ∀ {α : Type} (f : Channel → α), _ := fun f => congrArg f hrun
  have hlater : Later s (s.setChannel c (fun x => { x with state := .running })) := ⟨rfl, rfl, List.prefix_rfl, fun h => h⟩
  have hframe : ∀ d, judgeBay (s.setChannel c (fun x => { x with state := .running })) c d = judgeBay s c d := fun d =>
    judgeBay_congr d rfl (slotOf_congr rfl (hk Channel.slot))
  have hslot : slotOf (s.setChannel c (fun x => { x with state := .running })) c = slotOf s c := slotOf_congr rfl (hk Channel.slot)
  have hsame : (s.setChannel c (fun x => { x with state := .running })).reg = s.reg ∧ (s.setChannel c (fun x => { x with state := .running })).mon = s.mon ∧
    (s.setChannel c (fun x => { x with state := .running })).sched = s.sched := ⟨rfl, rfl, rfl⟩
  have hjudged := each_judged s.dist.channels[c].group c (s.setChannel c (fun x => { x with state := .running }))
  unfold startedChannel
  generalize s.setChannel c (fun x => { x with state := .running }) = v at *
  obtain ⟨hreg, hmon, hsched⟩ := hsame
  obtain ⟨htouch, hchan, hjudged, hothers, htold⟩ := hjudged
  have hkept : ∀ {α : Type} (f : Channel → α), _ := fun f => congrArg f hchan
  refine ⟨?_, fun d => ?_, ?_, ?_, ?_, fun d hd => (hjudged d hd).trans (hframe d), fun d hd => (hothers d hd).trans ?_, hlater.trans htouch.later,
    fun d hd r hr => (htold d hd r ((hframe d).trans hr)).since hlater⟩
  · refine Vector.ext fun i hi => ?_
    exact (htouch.reg_same (b := ⟨i, hi⟩) id id).trans (congrArg (fun w => w[i]) hreg)
  · rw [htouch.held id, hmon]
  · rw [htouch.sched id, hsched]
  · rw [← hslot]
    exact slotOf_congr (htouch.slots id) (hkept Channel.slot)
  · rw [hchan, hrun]
  · exact hk fun x => x.progress[d]

theorem mem_before (b d : BayId) : d ∈ allBays.take b.val ↔ d < b := by
  revert b d
  decide

/-- R174: a pass comes to a bay after the lower ones, and leaves its entry as that visit did. -/
theorem pass_at (c : Fin 4) (b : BayId) (hcur : u.dist.channels[c].current = none) : ∃ v, Visited (· ∈ allBays.take b.val) c u v ∧
    (v.dist.channels[c].current = none ↔ ∀ d < b, ¬ Begins u c d) ∧
    (pass none c u).dist.channels[c].progress[b] = (passVisit none c b v).dist.channels[c].progress[b] ∧
    Later (passVisit none c b v) (pass none c u) ∧
    ((passVisit none c b v).dist.channels[c].current ≠ none → pass none c u = judgeDone c (passVisit none c b v)) := by
  obtain ⟨hsplit, -, hbefore, hafter⟩ := allBays_split b
  have hvis := (Visited.refl (on := (· ∈ allBays.take b.val)) (c := c) u).each (allBays.take b.val) (fun _ h => h) none
  have hfirst := each_current (released := none) (allBays.take b.val) ((List.nodup_finRange 12).sublist (List.take_sublist _ _)) hcur
  have heq : pass none c u = judgeDone c ((passVisit none c b (u.each (allBays.take b.val) (passVisit none c))).each (allBays.drop (b.val + 1))
    (passVisit none c)) := congrArg (judgeDone c) (each_split (passVisit none c) hsplit u)
  generalize u.each (allBays.take b.val) (passVisit none c) = v at hvis hfirst heq
  have hrest := (Visited.refl (on := (· ∈ allBays.drop (b.val + 1))) (c := c) (passVisit none c b v)).each (allBays.drop (b.val + 1)) (fun _ h => h) none
  refine ⟨v, hvis, hfirst.trans (forall_congr' fun d => by rw [mem_before]), ?_, ?_, fun htaken => ?_⟩
  · rw [heq, judgeDone_progress, hrest.others b hafter]
  · rw [heq]
    exact hrest.touches.later.trans ((Touches.refl (m := { flow := fun _ => True, chan := fun _ => True, slots := True }) _).judgeDone trivial trivial trivial).later
  · rw [heq, each_taken htaken]

/-! ## The start of a channel -/

/-- R173: the bay is READY and of the slot's model. -/
def Fits (s : State) (c : Fin 4) (b : BayId) : Prop := s.reg[b].state = .ready ∧ s.reg[b].identity.map Identity.model = some (slotOf s c).header.target

/-- R174: a pass of the channel comes to the bay. -/
def Sought (s : State) (c : Fin 4) (b : BayId) : Prop := s.dist.channels[c].masked = false ∧ s.dist.channels[c].allows s b

/-- R174: the transfer to the bay may begin at once. -/
def Claimable (s : State) (c : Fin 4) (b : BayId) : Prop :=
  b ∈ s.dist.channels[c].group ∧ Fits s c b ∧ Sought s c b ∧ s.mon.bays[b].hold = .nothing ∧ s.reg[b].power = .on ∧ s.reg[b].activity = .nothing

theorem judgeBay_state (h : s.reg[b].state ≠ .ready) : judgeBay s c b = .failed .state := if_pos h

theorem judgeBay_model (h : s.reg[b].state = .ready) (hm : ¬ Fits s c b) : judgeBay s c b = .failed .model :=
  (if_neg (not_not.2 h)).trans (if_pos fun hfit => hm ⟨h, hfit⟩)

theorem judgeBay_fits (h : Fits s c b) : judgeBay s c b = .pending := (if_neg (not_not.2 h.1)).trans (if_neg (not_not.2 h.2))

theorem judgeBay_or (s : State) (c : Fin 4) (b : BayId) : Fits s c b ∨ ∃ r, judgeBay s c b = .failed r := by
  by_cases hst : s.reg[b].state = .ready
  · by_cases hfit : Fits s c b
    · exact .inl hfit
    · exact .inr ⟨_, judgeBay_model hst hfit⟩
  · exact .inr ⟨_, judgeBay_state hst⟩

theorem Started.allows (h : Started c s u) (b : BayId) : u.dist.channels[c].allows u b ↔ s.dist.channels[c].allows s b := by
  have hw : u.dist.channels[c].windowRequired = s.dist.channels[c].windowRequired := by rw [h.channel]
  have hcov : covered u .update b = covered s .update b := by rw [covered, covered, h.sched]
  rw [Channel.allows, Channel.allows, hw, hcov]

theorem Started.state (h : Started c s u) : u.dist.channels[c].state = .running := by rw [h.channel]

theorem Started.current (h : Started c s u) : u.dist.channels[c].current = s.dist.channels[c].current := by rw [h.channel]

theorem Started.masked (h : Started c s u) : u.dist.channels[c].masked = s.dist.channels[c].masked := by rw [h.channel]

theorem Started.begins_iff (h : Started c s u) (hcur : s.dist.channels[c].current = none)
    (hout : ∀ d : BayId, d ∉ s.dist.channels[c].group → s.dist.channels[c].progress[d] = .notTarget) (d : BayId) : Begins u c d ↔ Claimable s c d := by
  constructor
  · rintro ⟨⟨-, -, hmask, hwait⟩, hallow, hready, hmodel, hfree, hon, hidle⟩
    rw [h.reg] at hready hmodel hon hidle
    refine ⟨?_, ⟨hready, h.slot ▸ hmodel⟩, ⟨h.masked ▸ hmask, (h.allows d).1 hallow⟩, h.mon d ▸ hfree, hon, hidle⟩
    by_contra hd
    rw [h.others d hd, hout d hd] at hwait
    cases hwait
  · rintro ⟨hd, hfit, ⟨hmask, hallow⟩, hfree, hon, hidle⟩
    have hwait : u.dist.channels[c].progress[d] = .pending := (h.judged d hd).trans (judgeBay_fits hfit)
    obtain ⟨hready, hmodel⟩ := hfit
    exact ⟨⟨h.state, h.current.trans hcur, h.masked.trans hmask, by rw [hwait]; rfl⟩, (h.allows d).2 hallow, by rw [h.reg]; exact hready,
      by rw [h.reg, h.slot]; exact hmodel, (h.mon d).trans hfree, by rw [h.reg]; exact hon, by rw [h.reg]; exact hidle⟩

theorem pass_later (c : Fin 4) (u : State) : Later u (pass none c u) :=
  ((Touches.refl (m := { claim := fun _ => True, line := fun _ => True, heat := fun _ => True, shares := True, flow := fun _ => True, chan := fun _ => True, slots := True }) u).pass
    ⟨⟨fun _ => trivial, fun _ => trivial, trivial, fun _ => trivial, ⟨trivial, fun _ => trivial⟩⟩, fun _ => trivial⟩ none c).later

theorem pass_final {d : BayId} (h : (u.dist.channels[c].progress[d]).waiting = false) :
    (pass none c u).dist.channels[c].progress[d] = u.dist.channels[c].progress[d] := by
  unfold pass
  rw [judgeDone_progress]
  exact each_final h allBays

theorem pass_running (h : u.dist.channels[c].state = .running) :
    (pass none c u).dist.channels[c].state = .running ∨ (pass none c u).dist.channels[c].state = .done := by
  have hstate := ((Visited.refl (on := fun _ => True) (c := c) u).each allBays (fun _ _ => trivial) none).state
  unfold pass
  rw [judgeDone_state (hstate.trans h)]
  split
  · exact .inr rfl
  · exact .inl rfl

/-- R180: a channel without a current bay is DONE after a pass where all its entries are final. -/
theorem pass_done_iff (h : u.dist.channels[c].state = .running) (hcur : u.dist.channels[c].current = none) :
    (pass none c u).dist.channels[c].state = .done ↔ ∀ d : BayId, ((pass none c u).dist.channels[c].progress[d]).settled = true := by
  have hstate := ((Visited.refl (on := fun _ => True) (c := c) u).each allBays (fun _ _ => trivial) none).state
  have hbegun : _ ∨ HasBegun c _ := State.each_keeps (fun v => v.dist.channels[c].current = none ∨ HasBegun c v) allBays (passVisit none c)
    (fun _ _ hv => passVisit_begun hv) u (.inl hcur)
  unfold pass
  rw [judgeDone_progress]
  generalize u.each allBays (passVisit none c) = v at hstate hbegun ⊢
  rw [judgeDone_state (hstate.trans h)]
  split
  · next hdone => exact ⟨fun _ => hdone.2, fun _ => rfl⟩
  · next hdone =>
    refine ⟨nofun, fun hset => absurd ⟨?_, hset⟩ hdone⟩
    rcases hbegun with hnone | hbegun
    · exact hnone
    · cases hc : v.dist.channels[c].current with
      | none => rfl
      | some d =>
        have := hset d
        rw [hbegun d hc] at this
        cases this

theorem pass_underway {d : BayId} (h : (u.dist.channels[c].progress[d]).underway) : ((pass none c u).dist.channels[c].progress[d]).underway := by
  unfold pass
  rw [judgeDone_progress]
  have hlast := State.each_keeps (fun v => (v.dist.channels[c].progress[d]).underway) allBays (passVisit none c) (fun _ _ hv => passVisit_underway hv) u h
  generalize u.each allBays (passVisit none c) = v at hlast ⊢
  exact hlast

theorem Started.done_iff (h : Started c s u) (hcur : s.dist.channels[c].current = none)
    (hout : ∀ d : BayId, d ∉ s.dist.channels[c].group → s.dist.channels[c].progress[d] = .notTarget) :
    (pass none c u).dist.channels[c].state = .done ↔ ∀ d ∈ s.dist.channels[c].group, ∃ why, (pass none c u).dist.channels[c].progress[d] = .failed why := by
  rw [pass_done_iff h.state (h.current.trans hcur)]
  constructor
  · intro hset d hd
    have hunder : (u.dist.channels[c].progress[d]).underway := by
      rw [h.judged d hd]
      obtain hfit | ⟨r, hr⟩ := judgeBay_or s c d
      · exact .inl (by rw [judgeBay_fits hfit]; rfl)
      · exact .inr (.inr ⟨r, hr⟩)
    have hset := hset d
    rcases pass_underway hunder with hwait | htrans | hfail
    · exact absurd (Progress.settled_of_waiting hwait) (by rw [hset]; decide)
    · rw [htrans] at hset
      cases hset
    · exact hfail
  · intro hfail d
    by_cases hd : d ∈ s.dist.channels[c].group
    · obtain ⟨r, hr⟩ := hfail d hd
      rw [hr]
      rfl
    · have hnot : u.dist.channels[c].progress[d] = .notTarget := (h.others d hd).trans (hout d hd)
      rw [pass_final (by rw [hnot]; rfl), hnot]
      rfl

/-- R174: a bay of the group that no lower one keeps from its visit. -/
theorem Started.visit_at (h : Started c s u) (hcur : s.dist.channels[c].current = none)
    (hout : ∀ d : BayId, d ∉ s.dist.channels[c].group → s.dist.channels[c].progress[d] = .notTarget) (hb : b ∈ s.dist.channels[c].group) (hfit : Fits s c b) :
    ∃ v, (v.dist.channels[c].current = none ↔ ∀ d < b, ¬ Claimable s c d) ∧ Later s v ∧ v.reg[b] = s.reg[b] ∧
      v.mon.bays[b].hold = s.mon.bays[b].hold ∧ slotOf v c = slotOf s c ∧ v.dist.channels[c].state = .running ∧ v.dist.channels[c].progress[b] = .pending ∧
      v.dist.channels[c].masked = s.dist.channels[c].masked ∧ (v.dist.channels[c].allows v b ↔ s.dist.channels[c].allows s b) ∧
      (pass none c u).dist.channels[c].progress[b] = (passVisit none c b v).dist.channels[c].progress[b] ∧ Later (passVisit none c b v) (pass none c u) ∧
      ((passVisit none c b v).dist.channels[c].current ≠ none → pass none c u = judgeDone c (passVisit none c b v)) := by
  obtain ⟨v, hvis, hfree, hprog, hlater, htaken⟩ := pass_at c b (h.current.trans hcur)
  obtain ⟨-, -, hbefore, -⟩ := allBays_split b
  refine ⟨v, hfree.trans (forall₂_congr fun d _ => not_congr (h.begins_iff hcur hout d)), h.later.trans hvis.touches.later,
    (hvis.touches.reg_same id hbefore).trans (by rw [h.reg]), (hvis.touches.held id).trans (h.mon b),
    (slotOf_congr (hvis.touches.slots id) hvis.slot).trans h.slot, hvis.state.trans h.state,
    (hvis.others b hbefore).trans ((h.judged b hb).trans (judgeBay_fits hfit)), hvis.masked.trans h.masked, ?_, hprog, hlater, htaken⟩
  rw [← h.allows b, Channel.allows, Channel.allows, hvis.window, covered, covered, hvis.touches.sched id]

theorem beginTransfer_begins (c : Fin 4) (h : s.reg[b].state = .ready) :
    (beginTransfer c b s).dist.channels[c].current = some b ∧ (beginTransfer c b s).dist.channels[c].progress[b] = .transferring := by
  obtain ⟨i, hchan, -⟩ := beginTransfer_channel (c := c) h
  have hk : ∀ {α : Type} (f : Channel → α), _ := fun f => congrArg f hchan
  exact ⟨hk Channel.current, (hk fun x => x.progress[b]).trans (upd_same ..)⟩

theorem judgeDone_begins {r : RegBay} (hcur : s.dist.channels[c].current = some b) (hreg : s.reg[b] = { r with activity := .update }) :
    (judgeDone c s).dist.channels[c].current = some b ∧ (judgeDone c s).reg[b].activity = .update := by
  have hlast := (Touches.refl (m := { flow := fun _ => True, chan := fun _ => True, slots := True }) s).judgeDone (c := c) trivial trivial trivial
  obtain ⟨st, hst⟩ := judgeDone_channel c s
  have hk : ∀ {α : Type} (f : Channel → α), _ := fun f => congrArg f hst
  exact ⟨(hk Channel.current).trans hcur, by rw [hlast.reg_same id id, hreg]⟩

/-- R173, R174: what the start of a channel makes of a bay that fits. -/
theorem startChannel_fits (hcur : s.dist.channels[c].current = none)
    (hout : ∀ d : BayId, d ∉ s.dist.channels[c].group → s.dist.channels[c].progress[d] = .notTarget) (hb : b ∈ s.dist.channels[c].group) (hfit : Fits s c b)
    (t : State) (ht : t = startChannel c s) :
    (¬ Sought s c b ∨ (∃ d : BayId, d < b ∧ Claimable s c d) → t.dist.channels[c].progress[b] = .pending) ∧
    (Sought s c b → (∀ d : BayId, d < b → ¬ Claimable s c d) →
      (s.mon.bays[b].hold ≠ .nothing →
        t.dist.channels[c].progress[b] = .failed .held ∧ Tells s t .transfer [.num (c.val + 1), bayTok b, wd "FAILED", wd "HELD"]) ∧
      (s.mon.bays[b].hold = .nothing → s.reg[b].power ≠ .on ∨ s.reg[b].activity ≠ .nothing → t.dist.channels[c].progress[b] = .deferred) ∧
      (Claimable s c b → t.dist.channels[c].progress[b] = .transferring ∧ t.dist.channels[c].current = some b ∧ t.reg[b].activity = .update ∧
        Tells s t .transfer [.num (c.val + 1), bayTok b, wd "TRANSFERRING", wd "NONE"])) := by
  obtain ⟨v, hfree, hlater, hreg, hhold, hslot, hrun, hpend, hmask, hallow, hprog, hafter, htaken⟩ := (startedChannel_started c s).visit_at hcur hout hb hfit
  rw [← startChannel_eq, ← ht] at hprog hafter htaken
  rw [hprog]
  obtain ⟨hready, hmodel⟩ := hfit
  have hready' : v.reg[b].state = .ready := by rw [hreg]; exact hready
  have hmodel' : v.reg[b].identity.map Identity.model = some (slotOf v c).header.target := by rw [hreg, hslot]; exact hmodel
  refine ⟨fun h => ?_, fun ⟨hsm, hsw⟩ hnone => ?_⟩
  · suffices hsame : passVisit none c b v = v by rw [hsame]; exact hpend
    rcases h with hs | ⟨d, hd, hcl⟩
    · by_cases hw : v.dist.channels[c].allows v b
      · exact passVisit_of_not_visitable fun ⟨_, _, hm, _⟩ => hs ⟨hmask ▸ hm, hallow.1 hw⟩
      · exact passVisit_of_barred hw
    · exact visitable_free (fun hnone => hfree.1 hnone d hd hcl) b
  · have hvisit := passVisit_of_visitable (released := none) (c := c) (b := b) (s := v) ⟨hrun, hfree.2 hnone, hmask.trans hsm, by rw [hpend]; rfl⟩ (hallow.2 hsw)
    refine ⟨fun hh => ?_, fun hh hd => ?_, fun ⟨_, _, _, hh, hon, hidle⟩ => ?_⟩
    · rw [visit_held hready' hmodel' (by rw [hhold]; exact hh)] at hvisit
      rw [hvisit] at hafter ⊢
      obtain ⟨hentry, -, htold⟩ := endWaiting_fails c b .held v
      exact ⟨hentry, (htold.since hlater).mono hafter⟩
    · rw [hvisit]
      have hh' := hhold.trans hh
      by_cases hdef : v.reg[b].power = .off ∨ v.reg[b].activity ≠ .nothing
      · rw [visit_deferred (released := none) hready' hmodel' hh' (hdef.imp id fun hbusy => ⟨hbusy, nofun⟩), setProgress_channel]
        exact upd_same ..
      · obtain ⟨hoff, hidle⟩ := not_or.1 hdef
        have hidle := not_not.1 hidle
        have hstandby : v.reg[b].power = .standby := by
          rw [hreg] at hidle hoff ⊢
          cases hp : s.reg[b].power with
          | off => exact absurd hp hoff
          | on => exact absurd hidle (hd.resolve_left (not_not.2 hp))
          | standby => rfl
        rw [visit_wakes hready' hmodel' hh' hstandby hidle]
        obtain ⟨hentry, -⟩ := deferred_wakes (c := c) hready' hstandby
        exact hentry
    · rw [visit_begins hready' hmodel' (hhold.trans hh) (by rw [hreg]; exact hon) (by rw [hreg]; exact hidle)] at hvisit
      rw [hvisit] at hafter htaken ⊢
      obtain ⟨hcurrent, hentry⟩ := beginTransfer_begins c hready'
      have heq := htaken (by rw [hcurrent]; nofun)
      obtain ⟨hcurrent, hclaim⟩ := judgeDone_begins hcurrent (beginTransfer_reg c b v)
      rw [← heq] at hcurrent hclaim
      exact ⟨hentry, hcurrent, hclaim, ((tells_beginTransfer c b v).since hlater).mono hafter⟩

end Sys2Proof.Machine


/-! CHANNELS-CLEAR (R182). -/

namespace Sys2Proof.Machine
set_option Elab.async false

open Sys2Proof

variable {s t u : State} {b : BayId} {c : Fin 4}

/-! ## Room for the DISCARD-IMAGE of a cleared transfer -/

/-- A queue that has room for one order more than the HEAT-ALLOW that recomputes may place. -/
structure Spared (b : BayId) (s : State) : Prop where
  ready : s.reg[b].state = .ready
  held : s.line.bays[b].held = []
  room : s.line.bays[b].queue.length < 5 ∨
    s.line.bays[b].queue.length < 6 ∧ s.line.bays[b].queue.any (fun x => x.body.is .heatAllow) = true

theorem Spared.lt (h : Spared b s) : s.line.bays[b].queue.length < 6 := h.room.elim (fun hq => by omega) And.left

theorem Spared.of_touches {m : Parts} (hb : Spared b s) (h : Touches m s t) (hr : ¬ m.reg b) (hl : ¬ m.line b) : Spared b t := by
  obtain ⟨hready, hheld, hroom⟩ := hb
  have hqueue : t.line.bays[b].queue = s.line.bays[b].queue := congrArg Prod.fst (h.line b hl)
  have hkept : t.line.bays[b].held = s.line.bays[b].held := congrArg (fun z => z.2.1) (h.line b hl)
  exact ⟨by rw [h.reg b hr]; exact hready, hkept.trans hheld, by rw [hqueue]; exact hroom⟩

theorem is_iff (body : OrderBody) (k : OrderKind) : body.is k = true ↔ body.kind = k := decide_eq_true_iff

theorem Spared.heatAllow (hb : Spared b s) (n : Nat) : Spared b (placeOrder b (.heatAllow n) .plain s) := by
  obtain ⟨hready, hheld, hroom⟩ := hb
  have htakes := takesOrders_of_ready hready
  by_cases hc : (OrderKind.heatAllow.coalesces && s.line.bays[b].queue.any (fun x => x.body.is .heatAllow)) = true
  · have hplaced := placeOrder_replaces (body := .heatAllow n) htakes hc .plain
    rw [applyNote_plain] at hplaced
    rw [hplaced]
    have hany := (Bool.and_eq_true_iff.1 hc).2
    refine ⟨hready, ?_, ?_⟩
    · rw [State.setLine_line, upd_same]
      exact hheld
    · rw [State.setLine_line, upd_same]
      dsimp only
      rw [List.length_map]
      refine hroom.imp id (And.imp_right fun _ => ?_)
      obtain ⟨x, hx, his⟩ := List.any_eq_true.1 hany
      exact List.any_eq_true.2 ⟨nextOrder s b (.heatAllow n), List.mem_map.2 ⟨x, hx, if_pos his⟩, decide_eq_true rfl⟩
  · have hlow : s.line.bays[b].queue.length < 5 := hroom.resolve_right fun ⟨_, hany⟩ => hc (Bool.and_eq_true_iff.2 ⟨rfl, hany⟩)
    have hplaced := placeOrder_joins (body := .heatAllow n) htakes hc (by omega) .plain
    rw [applyNote_plain] at hplaced
    rw [hplaced]
    refine ⟨hready, ?_, ?_⟩
    · rw [State.setLine_line, upd_same]
      exact hheld
    · rw [State.setLine_line, upd_same]
      dsimp only
      rw [List.length_append, List.length_singleton]
      refine .inr ⟨by omega, ?_⟩
      rw [List.any_append]
      exact Bool.or_eq_true_iff.2 (.inr rfl)

theorem Spared.sendAllowance (hb : Spared b s) (d : BayId) : Spared b (sendAllowance d s) := by
  unfold Machine.sendAllowance
  dsimp only
  split
  · by_cases hd : d = b
    · subst hd
      obtain ⟨hready, hheld, hroom⟩ := hb.heatAllow s.heat.bays[d].allowance
      exact ⟨hready, hheld, hroom⟩
    · have hplaced := (Touches.refl (m := { line := (· = d) }) s).placePlain (b := d) rfl (.heatAllow s.heat.bays[d].allowance)
      obtain ⟨hready, hheld, hroom⟩ := hb.of_touches hplaced id fun e => hd e.symm
      exact ⟨hready, hheld, hroom⟩
  · exact hb

theorem Spared.recompute (hb : Spared b s) : Spared b (recompute s) := by
  obtain ⟨hready, hheld, hroom⟩ := hb
  rw [recompute_eq]
  exact State.each_keeps (Spared b) allBays Machine.sendAllowance (fun d _ hu => hu.sendAllowance d) (divided s) ⟨hready, hheld, hroom⟩

/-- What the start of a bay's cleaning may change before the allocation follows. -/
def Parts.admitting (d : BayId) : Parts :=
  { claim := (· = d), line := (· = d), drops := fun e k => e = d ∧ k = .cleanPhase, grace := (· = d), run := (· = d), cleaning := (· = d),
    cleanEnd := (· = d), clean := (· = d), heat := (· = d), flow := fun _ => True }

theorem Parts.admitting_work (d : BayId) : (Parts.admitting d).CleanWork d := ⟨⟨rfl, rfl, rfl, rfl, fun _ => trivial⟩, ⟨rfl, rfl⟩, rfl⟩

theorem admittedClean_touches (d : BayId) (p : Program) (o : Origin) (s : State) : Touches (.admitting d) s (admittedClean d p o s) :=
  ((Touches.refl s).setClaim (b := d) (f := fun r => { r with activity := .clean }) rfl).setCleaning (b := d)
    (f := fun c => { c with record := some (.create p o s.sec) }) rfl (fun _ => ⟨rfl, rfl⟩) (.inl rfl)

theorem Spared.startCleaning (hb : Spared b s) {d : BayId} (hd : b ≠ d) (p : Program) (o : Origin) : Spared b (startCleaning d p o s) := by
  have hadmit := admittedClean_touches d p o s
  rw [startCleaning_eq]
  refine Spared.recompute (hb.of_touches (m := .admitting d) ?_ id hd)
  split
  · exact (hadmit.setCleanRec rfl (.inl rfl)).wakeCause rfl rfl
  · exact hadmit.leaveRequested (Parts.admitting_work d)

theorem Spared.retryPending (hb : Spared b s) {d : BayId} (hd : b ≠ d) : Spared b (retryPending d s) := by
  have hgone : Spared b (s.setClean d (fun c => { c with pendingWindow := none })) :=
    hb.of_touches ((Touches.refl (m := .admitting d) s).setClean rfl) id hd
  unfold Machine.retryPending
  split
  · exact hb
  · dsimp only
    split
    · exact hgone
    · split
      · exact hgone.startCleaning hd _ _
      · exact hb

/-- R182: the end of another bay's transfer leaves the room. -/
theorem Spared.cleared (hb : Spared b s) {d : BayId} (hd : b ≠ d) (c : Fin 4) : Spared b (endTransfer c d (.failed .cleared) false .noPass s) := by
  have hended := hb.of_touches (endTransfer_touches c d (.failed .cleared) false s) id hd
  rw [endTransfer_handOn]
  generalize endTransfer c d (.failed .cleared) false .later s = v at hended ⊢
  have hidle := hended.recompute.of_touches ((Touches.refl (m := { heat := (· = d) }) (Machine.recompute v)).touchIdle (b := d) rfl) id id
  rw [handOn, heatRelease]
  exact hidle.retryPending hd

/-- A DISCARD-IMAGE waits for the bay. -/
def Discards (b : BayId) (s : State) : Prop := ∃ o ∈ s.line.bays[b].queue, o.body = .discardImage

theorem Discards.of_touches {m : Parts} (hb : Discards b s) (h : Touches m s t) (hd : ¬ m.drops b .discardImage) : Discards b t := by
  obtain ⟨o, ho, hbody⟩ := hb
  have hkind : o.body.kind = .discardImage := by rw [hbody]; rfl
  exact ⟨o, h.stays b o ho (by rw [hkind]; exact hd) (by rw [hkind]; rfl), hbody⟩

theorem handOn_discards (hb : Discards b s) (o : HandOn) (d : BayId) : Discards b (handOn o d s) :=
  hb.of_touches (handOn_touches o d s) fun ⟨_, hk⟩ => (nomatch hk)

/-- A DISCARD-IMAGE that waits is not withdrawn by the end of a transfer. -/
theorem Discards.cleared (hb : Discards b s) (c : Fin 4) (d : BayId) : Discards b (endTransfer c d (.failed .cleared) false .noPass s) := by
  rw [endTransfer_handOn]
  refine handOn_discards ?_ .noPass d
  by_cases hd : b = d
  · subst hd
    obtain ⟨o, ho, hbody⟩ := hb
    have hkind : o.body.kind = .discardImage := by rw [hbody]; rfl
    have hstopped : o ∈ (stoppedTransfer c b (.failed .cleared) s).line.bays[b].queue := by
      rw [stoppedTransfer, State.setLine_line, upd_same]
      exact ho
    have hkept : o ∈ (clearedTransfer c b (.failed .cleared) s).line.bays[b].queue :=
      withdraw_keeps_others hstopped (by rw [hkind]; decide) (by rw [hkind]; rfl)
    have hplaced : Discards b (placeOrder b .discardImage .plain (clearedTransfer c b (.failed .cleared) s)) :=
      Discards.of_touches ⟨o, hkept, hbody⟩ ((Touches.refl (m := { line := (· = b) }) _).placePlain rfl _) id
    rw [Discards, endTransfer_queue, if_pos (show (Progress.failed .cleared).failedWith FailReason.discards = true from rfl)]
    exact hplaced
  · exact hb.of_touches (endTransfer_touches c d (.failed .cleared) false s) fun h => hd h

/-! ## The clearing of one channel -/

/-- R182: a transfer that is cleared. -/
theorem clearTransfer_of_current {d : BayId} (h : s.dist.channels[c].current = some d) :
    clearTransfer c s = endTransfer c d (.failed .cleared) false .noPass s := by
  rw [clearTransfer, h]

theorem clearTransfer_of_none (h : s.dist.channels[c].current = none) : clearTransfer c s = s := by
  rw [clearTransfer, h]

/-- R182: what the clearing of a channel's transfer leaves room for. -/
theorem clearTransfer_spares (h : Discards b s ∨ Spared b s) (c : Fin 4) : Discards b (clearTransfer c s) ∨ Spared b (clearTransfer c s) := by
  cases hc : s.dist.channels[c].current with
  | none =>
    rw [clearTransfer_of_none hc]
    exact h
  | some d =>
    rw [clearTransfer_of_current hc]
    rcases h with h | h
    · exact .inl (h.cleared c d)
    · by_cases hd : b = d
      · subst hd
        exact .inl (endTransfer_discards rfl h.ready h.held h.lt false .noPass)
      · exact .inr (h.cleared hd c)

theorem clearTransfer_discards (h : Discards b s ∨ Spared b s) (hc : s.dist.channels[c].current = some b) : Discards b (clearTransfer c s) := by
  rw [clearTransfer_of_current hc]
  rcases h with h | h
  · exact h.cleared c b
  · exact endTransfer_discards rfl h.ready h.held h.lt false .noPass

theorem clearTransfer_keeps_discard (h : Discards b s) (c : Fin 4) : Discards b (clearTransfer c s) := by
  cases hc : s.dist.channels[c].current with
  | none =>
    rw [clearTransfer_of_none hc]
    exact h
  | some d =>
    rw [clearTransfer_of_current hc]
    exact h.cleared c d

/-! ## What a channel keeps -/

/-- What the handing on of a release without passes may change. -/
def Parts.returning (d : BayId) : Parts :=
  { Parts.admitting d with line := fun _ => True, shares := True }

theorem handOn_noPass_touches (d : BayId) (s : State) : Touches (.returning d) s (handOn .noPass d s) := by
  have hheat := (Touches.refl (m := .returning d) s).heatRelease (b := d) rfl ⟨trivial, fun _ => trivial⟩
  rw [handOn]
  exact hheat.retryPending ⟨rfl, ⟨⟨trivial, rfl, rfl, rfl, fun _ => trivial⟩, ⟨rfl, rfl⟩, rfl⟩, rfl, ⟨trivial, fun _ => trivial⟩⟩ rfl

/-- A channel's state, its slot and its current bay. -/
def Channel.seat (x : Channel) : ChannelState × Fin 4 × Option BayId := (x.state, x.slot, x.current)

theorem Channel.seat_of_job {x y : Channel} (h : x.job = y.job) : x.seat = y.seat :=
  congrArg (fun z : ChannelState × Bool × Fin 4 × List BayId × Bool × Bool × Option BayId × Vector Progress 12 => (z.1, z.2.2.1, z.2.2.2.2.2.2.1)) h

/-- The slots, and what CHANNELS-CLEAR reads of the channels, but for the current bay of one. -/
structure Seated (c : Fin 4) (s t : State) : Prop where
  slots : t.dist.slots = s.dist.slots
  others : ∀ e : Fin 4, e ≠ c → t.dist.channels[e].seat = s.dist.channels[e].seat
  state : t.dist.channels[c].state = s.dist.channels[c].state
  slot : t.dist.channels[c].slot = s.dist.channels[c].slot
  later : Later s t

theorem endTransfer_dist_later (c : Fin 4) (b : BayId) (p : Progress) (s : State) :
    (endTransfer c b p false .later s).dist = (leftTransfer c b p s).dist := by
  have hnotice := transferNotice_dist c b p (leftTransfer c b p s)
  rw [endTransfer_eq, if_neg (show ¬ false = true by decide)]
  generalize transferNotice c b p (leftTransfer c b p s) = v at hnotice ⊢
  rw [← hnotice]
  split
  · rw [actDeferred_dist]
    rfl
  · rfl

theorem withdrawnTransfer_slots (c : Fin 4) (b : BayId) (p : Progress) (s : State) : (withdrawnTransfer c b p s).dist.slots = s.dist.slots :=
  ((withdrawnTransfer_after c b p s).slots id).trans ((withdraw_withdrawing b (stoppedTransfer c b p s)).slots id)

theorem endTransfer_seated (c : Fin 4) (b : BayId) (s : State) : Seated c s (endTransfer c b (.failed .cleared) false .noPass s) := by
  have hcoarse := endTransfer_touches c b (.failed .cleared) false s
  have hdist := endTransfer_dist_later c b (.failed .cleared) s
  have hslots := withdrawnTransfer_slots c b (.failed .cleared) s
  have hplain := withdrawnTransfer_channel c b (.failed .cleared) s
  rw [stoppedTransfer_channel] at hplain
  have hleft : (leftTransfer c b (.failed .cleared) s).dist.channels[c] =
      { (withdrawnTransfer c b (.failed .cleared) s).dist.channels[c] with current := none } := upd_same ..
  have hleftSlots : (leftTransfer c b (.failed .cleared) s).dist.slots = s.dist.slots := hslots
  have hkept : ∀ {α : Type} (f : Channel → α), _ := fun f => congrArg f hplain
  have hgone : ∀ {α : Type} (f : Channel → α), _ := fun f => congrArg f hleft
  have hstate : (leftTransfer c b (.failed .cleared) s).dist.channels[c].state = s.dist.channels[c].state := (hgone Channel.state).trans (hkept Channel.state)
  have hslot : (leftTransfer c b (.failed .cleared) s).dist.channels[c].slot = s.dist.channels[c].slot := (hgone Channel.slot).trans (hkept Channel.slot)
  rw [endTransfer_handOn]
  rw [← hdist] at hstate hslot hleftSlots
  generalize endTransfer c b (.failed .cleared) false .later s = v at hcoarse hstate hslot hleftSlots ⊢
  have hback := handOn_noPass_touches b v
  generalize handOn .noPass b v = w at hback ⊢
  have hjob : ∀ e : Fin 4, w.dist.channels[e].seat = v.dist.channels[e].seat := fun e => Channel.seat_of_job (hback.chan e id)
  exact ⟨(hback.slots id).trans hleftSlots, fun e he => (hjob e).trans (Channel.seat_of_job (hcoarse.chan e he)),
    (congrArg Prod.fst (hjob c)).trans hstate, (congrArg (fun z => z.2.1) (hjob c)).trans hslot, hcoarse.later.trans hback.later⟩

theorem clearTransfer_seated (c : Fin 4) (s : State) : Seated c s (clearTransfer c s) := by
  cases hc : s.dist.channels[c].current with
  | none =>
    rw [clearTransfer_of_none hc]
    exact ⟨rfl, fun _ _ => rfl, rfl, rfl, .refl s⟩
  | some d =>
    rw [clearTransfer_of_current hc]
    exact endTransfer_seated c d s

end Sys2Proof.Machine


/-! CHANNELS-CLEAR, and the requests of the channels (R172, R173, R181, R182). -/

namespace Sys2Proof.Machine
set_option Elab.async false

open Sys2Proof

variable {s t u : State} {b : BayId} {c : Fin 4}

/-! ## The channels that are cleared -/

/-- What CHANNELS-CLEAR reads of the slots and the channels, but for the current bays. -/
structure Unseated (s t : State) : Prop where
  slots : t.dist.slots = s.dist.slots
  state : ∀ c : Fin 4, t.dist.channels[c].state = s.dist.channels[c].state
  slot : ∀ c : Fin 4, t.dist.channels[c].slot = s.dist.channels[c].slot
  later : Later s t

theorem each_unseated (l : List (Fin 4)) (s : State) : Unseated s (s.each l clearTransfer) := by
  refine State.each_keeps (Unseated s) l clearTransfer (fun c v ⟨hslots, hstate, hslot, hlater⟩ => ?_) s ⟨rfl, fun _ => rfl, fun _ => rfl, .refl s⟩
  obtain ⟨hslots', hothers, hstate', hslot', hlater'⟩ := clearTransfer_seated c v
  refine ⟨hslots'.trans hslots, fun e => ?_, fun e => ?_, hlater.trans hlater'⟩
  · by_cases he : e = c
    · subst he
      exact hstate'.trans (hstate e)
    · exact (congrArg Prod.fst (hothers e he)).trans (hstate e)
  · by_cases he : e = c
    · subst he
      exact hslot'.trans (hslot e)
    · exact (congrArg (fun z : ChannelState × Fin 4 × Option BayId => z.2.1) (hothers e he)).trans (hslot e)

theorem each_current_kept (l : List (Fin 4)) (hc : c ∉ l) (s : State) : (s.each l clearTransfer).dist.channels[c].current = s.dist.channels[c].current := by
  induction l generalizing s with
  | nil => rfl
  | cons e l ih =>
    obtain ⟨hne, hl⟩ := not_or.1 (fun h => hc (List.mem_cons.2 h))
    rw [State.each_cons, ih hl]
    exact congrArg (fun z : ChannelState × Fin 4 × Option BayId => z.2.2) ((clearTransfer_seated e s).others c hne)

theorem allFour_split (c : Fin 4) : allFour = allFour.take c.val ++ c :: allFour.drop (c.val + 1) ∧ c ∉ allFour.take c.val ∧
    c ∉ allFour.drop (c.val + 1) := by
  revert c
  decide

/-- R182: the transfers of all channels are ended. -/
def clearedTransfers (s : State) : State := s.each allFour clearTransfer

/-- R182: a channel's transfer is told, and its DISCARD-IMAGE follows. -/
theorem clearedTransfers_ends (hc : s.dist.channels[c].current = some b) :
    Tells s (clearedTransfers s) .transfer [.num (c.val + 1), bayTok b, wd "FAILED", wd "CLEARED"] ∧ (Spared b s → Discards b (clearedTransfers s)) := by
  obtain ⟨hsplit, hbefore, -⟩ := allFour_split c
  have heq := each_split clearTransfer hsplit s
  have hcur := (each_current_kept (c := c) _ hbefore s).trans hc
  have hlater := (each_unseated (allFour.take c.val) s).later
  have hspared : Spared b s → Discards b (s.each (allFour.take c.val) clearTransfer) ∨ Spared b (s.each (allFour.take c.val) clearTransfer) := fun hb =>
    State.each_keeps (fun v => Discards b v ∨ Spared b v) _ _ (fun e _ hv => clearTransfer_spares hv e) s (.inr hb)
  rw [clearedTransfers, heq]
  generalize s.each (allFour.take c.val) clearTransfer = v at hcur hlater hspared ⊢
  have hrest := each_unseated (allFour.drop (c.val + 1)) (clearTransfer c v)
  have htold : Tells v (clearTransfer c v) .transfer [.num (c.val + 1), bayTok b, wd "FAILED", wd "CLEARED"] := by
    rw [clearTransfer_of_current hcur]
    exact tells_endTransfer c b (.failed .cleared) false .noPass v
  refine ⟨(htold.since hlater).mono hrest.later, fun hb => ?_⟩
  exact State.each_keeps (Discards b) _ _ (fun e w hw => clearTransfer_keeps_discard hw e) _ (clearTransfer_discards (hspared hb) hcur)

/-! ## The channels that go to IDLE -/

theorem idleChannel_channel (c : Fin 4) (s : State) : (idleChannel c s).dist.channels[c] = .initial := upd_same ..

theorem idleChannel_other {e : Fin 4} (he : e ≠ c) (s : State) : (idleChannel c s).dist.channels[e] = s.dist.channels[e] := by
  unfold idleChannel
  split <;> exact upd_other _ _ _ _ he

theorem maskable_iff (s : State) (c : Fin 4) : maskable s c = true ↔ s.dist.channels[c].state = .armed ∨ s.dist.channels[c].state = .running := by
  unfold maskable
  cases s.dist.channels[c].state <;> simp

/-- R182: the channel is a user of the slot. -/
def uses (s : State) (k c : Fin 4) : Bool :=
  decide (s.dist.channels[c].slot = k ∧ (s.dist.channels[c].state = .armed ∨ s.dist.channels[c].state = .running))

theorem idleChannel_users (c k : Fin 4) (s : State) : (idleChannel c s).dist.slots[k].users = s.dist.slots[k].users - (if uses s k c = true then 1 else 0) := by
  unfold idleChannel
  by_cases hm : maskable s c = true
  · rw [if_pos hm]
    show (upd s.dist.slots s.dist.channels[c].slot _)[k].users = _
    by_cases hk : k = s.dist.channels[c].slot
    · have huse : uses s k c = true := decide_eq_true ⟨hk.symm, (maskable_iff s c).1 hm⟩
      rw [if_pos huse, hk, upd_same]
    · have huse : ¬ uses s k c = true := fun h => hk (of_decide_eq_true h).1.symm
      rw [if_neg huse, upd_other _ _ _ _ hk]
      rfl
  · rw [if_neg hm, if_neg (fun h => hm ((maskable_iff s c).2 (of_decide_eq_true h).2))]
    rfl

theorem each_idle_users (l : List (Fin 4)) (hl : l.Nodup) (k : Fin 4) (s : State) :
    (s.each l idleChannel).dist.slots[k].users = s.dist.slots[k].users - (l.filter (uses s k)).length := by
  induction l generalizing s with
  | nil => rfl
  | cons c l ih =>
    obtain ⟨hc, hl⟩ := List.nodup_cons.1 hl
    have hsame : l.filter (uses (idleChannel c s) k) = l.filter (uses s k) :=
      List.filter_congr fun e he => by rw [uses, uses, idleChannel_other (fun h : e = c => hc (h ▸ he))]
    rw [State.each_cons, ih hl, idleChannel_users, hsame, Nat.sub_sub, List.filter_cons]
    split
    · rw [List.length_cons, Nat.add_comm]
    · rw [Nat.zero_add]

theorem each_idle_channel (l : List (Fin 4)) (hc : c ∈ l) (s : State) : (s.each l idleChannel).dist.channels[c] = .initial := by
  induction l generalizing s with
  | nil => cases hc
  | cons e l ih =>
    rw [State.each_cons]
    by_cases hl : c ∈ l
    · exact ih hl _
    · obtain rfl := (List.mem_cons.1 hc).resolve_right hl
      exact State.each_keeps (fun v => v.dist.channels[c] = .initial) l _ (fun e v hv => by
        by_cases he : c = e
        · subst he
          exact idleChannel_channel c v
        · exact (idleChannel_other he v).trans hv) _ (idleChannel_channel c s)

/-- What is left but for the distributor where every channel goes to IDLE. -/
theorem each_idle_frame (l : List (Fin 4)) (s : State) : s.each l idleChannel = { s with dist := (s.each l idleChannel).dist } :=
  State.each_keeps (fun v => v = { s with dist := v.dist }) l _ (fun c v hv => by
    unfold idleChannel
    split
    · rw [hv]
      rfl
    · rw [hv]
      rfl) s rfl

/-! ## What CHANNELS-CLEAR does -/

theorem clearChannels_eq (s : State) :
    clearChannels s = ((clearedTransfers s).each allFour idleChannel).each (allBays.filter (transferWaits s)) examineStandby := rfl

theorem examineStandby_dist (b : BayId) (s : State) : (examineStandby b s).dist = s.dist := by
  obtain ⟨-, -, -, -, hdist⟩ := examineStandby_frame b s
  exact hdist

theorem clearChannels_does (s t : State) (ht : t = clearChannels s) :
    (∀ c : Fin 4, t.dist.channels[c] = Channel.initial) ∧
    (∀ k : Fin 4, t.dist.slots[k].users = s.dist.slots[k].users - (allFour.filter (uses s k)).length) ∧
    (∀ (c : Fin 4) (b : BayId), s.dist.channels[c].current = some b →
      Tells s t .transfer [.num (c.val + 1), bayTok b, wd "FAILED", wd "CLEARED"] ∧ (Spared b s → Discards b t)) := by
  have hends := fun (c : Fin 4) (b : BayId) (hc : s.dist.channels[c].current = some b) => clearedTransfers_ends hc
  have hseats := each_unseated allFour s
  rw [clearChannels_eq] at ht
  rw [show s.each allFour clearTransfer = clearedTransfers s from rfl] at hseats
  generalize clearedTransfers s = v at hends hseats ht
  have hframe := each_idle_frame allFour v
  have husers := fun k => each_idle_users allFour (by decide) k v
  have hidle := fun (c : Fin 4) => each_idle_channel (c := c) allFour (by revert c; decide) v
  generalize v.each allFour idleChannel = w at hframe husers hidle ht
  have hdist : t.dist = w.dist := by
    rw [ht]
    exact State.each_keeps (fun x => x.dist = w.dist) _ _ (fun d x hx => (examineStandby_dist d x).trans hx) w rfl
  have htouch : Touches { heat := fun _ => True, line := fun _ => True } w t := by
    rw [ht]
    exact (Touches.refl w).each _ _ fun d _ x => (Touches.refl x).examineStandby trivial trivial
  refine ⟨fun c => by rw [hdist]; exact hidle c, fun k => ?_, fun c b hc => ?_⟩
  · have hsame : allFour.filter (uses v k) = allFour.filter (uses s k) :=
      List.filter_congr fun e _ => by rw [uses, uses, hseats.slot, hseats.state]
    rw [hdist, husers, hsame, hseats.slots]
  · obtain ⟨htold, hdiscard⟩ := hends c b hc
    have hlater : Later v w := by
      rw [hframe]
      exact ⟨rfl, rfl, List.prefix_rfl, id⟩
    refine ⟨htold.mono (hlater.trans htouch.later), fun hb => Discards.of_touches ?_ htouch id⟩
    rw [hframe]
    exact hdiscard hb

/-! ## The requests -/

theorem channelStart_served {w : Txt} (hw : NamesFour w c) (h : s.dist.channels[c].state = .armed) :
    serveVerb .channelStart [w] s = (startChannel c s, .ok .channelStart [.num (c.val + 1), .num (pendingCount s c)]) := by
  show serveChannelStart [w] s = _
  rw [serveChannelStart, withFields_single hw, onFour_val_succ]
  exact if_pos h

theorem channelMask_served {w : Txt} (hw : NamesFour w c) (h : s.dist.channels[c].state = .armed ∨ s.dist.channels[c].state = .running) :
    serveVerb .channelMask [w] s = (s.setChannel c (fun x => { x with masked := true }), .ok .channelMask []) := by
  show serveChannelMask [w] s = _
  rw [serveChannelMask, withFields_single hw, onFour_val_succ]
  exact if_pos ((maskable_iff s c).2 h)

theorem channelUnmask_served {w : Txt} (hw : NamesFour w c) (h : s.dist.channels[c].state = .armed ∨ s.dist.channels[c].state = .running) :
    serveVerb .channelUnmask [w] s = (unmaskChannel c s, .ok .channelUnmask []) := by
  show serveChannelUnmask [w] s = _
  rw [serveChannelUnmask, withFields_single hw, onFour_val_succ]
  exact if_pos ((maskable_iff s c).2 h)

theorem pass_masked (c : Fin 4) (s : State) : (pass none c s).dist.channels[c].masked = s.dist.channels[c].masked := by
  have hvisits := ((Visited.refl (on := fun _ => True) (c := c) s).each allBays (fun _ _ => trivial) none).masked
  unfold pass
  generalize s.each allBays (passVisit none c) = v at hvisits ⊢
  obtain ⟨st, hst⟩ := judgeDone_channel c v
  exact (congrArg Channel.masked hst).trans hvisits

theorem offerIfComplete_masked (c : Fin 4) (b : BayId) (s : State) :
    (offerIfComplete c b s).dist.channels[c].masked = s.dist.channels[c].masked := by
  by_cases h : s.dist.channels[c].progress[b] = .transferring ∧ s.dist.channels[c].discardTaken = true ∧ s.dist.channels[c].masked = false ∧
      s.dist.channels[c].acked = lengthOf s c
  · obtain ⟨hp, ht, hm, ha⟩ := h
    have hchan := (placeOrder_plainChannel b (.applyOffer (slotOf s c).header.crc (slotOf s c).header.revision) .plain (offering c b s)).trans
      (offering_channel c b s)
    have hk : ∀ {α : Type} (f : Channel → α), _ := fun f => congrArg f hchan
    rw [offerIfComplete_offers hp ht hm ha]
    exact hk Channel.masked
  · rw [show offerIfComplete c b s = s from if_neg h]

theorem unmaskChannel_masked (c : Fin 4) (s : State) : (unmaskChannel c s).dist.channels[c].masked = false := by
  have hset : (s.setChannel c (fun x => { x with masked := false })).dist.channels[c].masked = false := congrArg Channel.masked (upd_same ..)
  unfold unmaskChannel
  generalize s.setChannel c (fun x => { x with masked := false }) = v at hset ⊢
  dsimp only
  split
  · next b _ =>
    have hstill := placeBlocksUpTo_still (c := c) (b := b) 6 (offerIfComplete c b v)
    exact (congrArg Channel.masked hstill).trans ((offerIfComplete_masked c b v).trans hset)
  · exact (pass_masked c v).trans hset

theorem channelsClear_busy (h : ∃ b : BayId, applying s b = true) : serveVerb .channelsClear [] s = (s, .no (.verb .channelsClear) .busy []) := by
  obtain ⟨b, hb⟩ := h
  exact if_pos (List.any_eq_true.2 ⟨b, List.mem_finRange b, hb⟩)

theorem channelsClear_served (h : ∀ b : BayId, applying s b = false) :
    serveVerb .channelsClear [] s = (clearChannels s, .ok .channelsClear [.num (transferring s).length]) :=
  if_neg fun hany => by
    obtain ⟨b, -, hb⟩ := List.any_eq_true.1 hany
    exact Bool.false_ne_true ((h b).symm.trans hb)

theorem channelSet_served {w1 w2 w3 w4 w5 : Txt} {k : Fin 4} {l : List Nat} {g : List BayId} {demand window : Bool} (h1 : NamesFour w1 c)
    (h2 : NamesFour w2 k) (h3 : bayListField w3 = some l) (hg : bayMask l = some g) (h4 : wordField [true, false] modeWord w4 = some (some demand))
    (h5 : ynField w5 = some (some window)) (hst : s.dist.slots[k].header.state = .verified) (hk : s.dist.slots[k].header.kind = .firmware)
    (hc : s.dist.channels[c].state = .idle ∨ s.dist.channels[c].state = .done) :
    serveVerb .channelSet [w1, w2, w3, w4, w5] s = (armChannel c k g demand window s, .ok .channelSet [.num (c.val + 1), wd "ARMED"]) := by
  show serveChannelSet [w1, w2, w3, w4, w5] s = _
  rw [serveChannelSet, withFields_of_parse (a := (c.val + 1, k.val + 1, l, some demand, some window))
    (by simp only [fld, fin, show number w1 = some (c.val + 1) from h1, show number w2 = some (k.val + 1) from h2, h3, h4, h5, Option.bind_some])]
  dsimp only
  rw [fourOf_val_succ, fourOf_val_succ, hg]
  dsimp only
  rw [if_neg (by rw [hst]; decide), if_neg (by rw [hst, hk]; decide)]
  rcases hc with hc | hc <;> rw [hc] <;> rfl

/-! ## The obligation -/

/-- R173: what the start of an armed channel leaves, whatever its current bay. -/
theorem startChannel_judges (c : Fin 4) (s t : State) (ht : t = startChannel c s) :
    (t.dist.channels[c].state = .running ∨ t.dist.channels[c].state = .done) ∧
    ∀ b ∈ s.dist.channels[c].group, ∀ r, judgeBay s c b = .failed r →
      t.dist.channels[c].progress[b] = .failed r ∧ Tells s t .transfer [.num (c.val + 1), bayTok b, wd "FAILED", wd r.word] := by
  have hstarted := startedChannel_started c s
  rw [startChannel_eq] at ht
  have hrun := pass_running hstarted.state
  have hlater := pass_later c (startedChannel c s)
  rw [← ht] at hrun hlater
  refine ⟨hrun, fun b hb r hr => ⟨?_, (hstarted.told b hb r hr).mono hlater⟩⟩
  have hfailed := (hstarted.judged b hb).trans hr
  rw [ht, pass_final (by rw [hfailed]; rfl), hfailed]

/-- Settles O57. -/
theorem channelsFollowTheirStates : Obligations.ChannelsFollowTheirStates := by
  intro s hs
  refine ⟨fun w c hw => ⟨fun harmed => ?_, fun hmask => ⟨?_, ?_⟩⟩, ?_, fun happly => answered_of_served hs (channelsClear_busy happly), fun hno => ?_⟩
  · refine completes_of_answered (answered_of_served hs (channelStart_served hw harmed)) ?_
    obtain ⟨hstate, hfails⟩ := startChannel_judges c s _ rfl
    have hdone := fun hcur hout => (startedChannel_started c s).done_iff hcur hout
    have hfits := fun hcur hout b hb hfit => startChannel_fits (c := c) (s := s) (b := b) hcur hout hb hfit _ rfl
    rw [← startChannel_eq] at hdone
    generalize startChannel c s = t at hstate hfails hdone hfits
    exact ⟨hstate, fun b hb => ⟨fun hst => hfails b hb .state (judgeBay_state hst), fun hst hfit => hfails b hb .model (judgeBay_model hst hfit)⟩,
      fun hcur hout => ⟨hdone hcur hout, fun b hb hfit => hfits hcur hout b hb hfit⟩, rfl⟩
  · exact completes_of_answered (answered_of_served hs (channelMask_served hw hmask)) ⟨upd_same .., rfl, rfl⟩
  · exact completes_of_answered (answered_of_served hs (channelUnmask_served hw hmask)) ⟨unmaskChannel_masked c s, rfl⟩
  · intro w1 w2 w3 w4 w5 c k l g demand window h1 h2 h3 hg h4 h5 hst hk hc
    refine completes_of_answered (answered_of_served hs (channelSet_served h1 h2 h3 hg h4 h5 hst hk hc)) ?_
    exact ⟨upd_same .., upd_same .., rfl, rfl⟩
  · obtain ⟨hchannels, husers, hends⟩ := clearChannels_does s _ rfl
    refine completes_of_answered (answered_of_served hs (channelsClear_served hno)) ?_
    generalize clearChannels s = t at hchannels husers hends
    refine ⟨hchannels, husers, fun c b hc => ?_, rfl⟩
    obtain ⟨htold, hdiscard⟩ := hends c b hc
    exact ⟨htold, fun hready hheld hq => hdiscard ⟨hready, hheld, .inl hq⟩⟩

end Sys2Proof.Machine


/-! What a status record leaves behind, and how it reaches the blocks that own its parts (R30-R34). -/

namespace Sys2Proof.Machine
set_option Elab.async false

open Sys2Proof

variable {s t u : State} {b : BayId}

/-! ## What the blocks change in the course of a status record -/

/-- Every part but the Registry's records and the miss counts; a SAFE at the head of a queue stays there. The heater demand, and the dose baseline with
the cabinet temperature, may change where the two propositions say so. -/
def Parts.reporting (demand sensed : Prop) : Parts :=
  { Parts.all with reg := fun _ => False, misses := fun _ => False, demand := fun _ => demand, sensed := fun _ => sensed, first := fun _ => False }

section

variable (p q : Prop)

theorem Parts.reporting_recompute : (Parts.reporting p q).Recompute := ⟨trivial, fun _ => trivial⟩

theorem Parts.reporting_orders (b : BayId) : (Parts.reporting p q).Orders b := ⟨trivial, trivial, trivial, trivial, fun _ => trivial⟩

theorem Parts.reporting_soiling (b : BayId) : (Parts.reporting p q).Soiling b := ⟨trivial, trivial, ⟨trivial, trivial⟩, trivial⟩

theorem Parts.reporting_startRun (b : BayId) : (Parts.reporting p q).StartRun b :=
  ⟨trivial, trivial, ⟨trivial, trivial⟩, trivial, reporting_recompute p q⟩

theorem Parts.reporting_startClean (b : BayId) : (Parts.reporting p q).StartClean b :=
  ⟨trivial, ⟨reporting_orders p q b, trivial, trivial⟩, trivial, reporting_recompute p q⟩

theorem Parts.reporting_release (b : BayId) : (Parts.reporting p q).Release b :=
  ⟨⟨⟨fun _ => trivial, fun _ => trivial, trivial, fun _ => trivial, reporting_recompute p q⟩, fun _ => trivial⟩, reporting_startClean p q b, trivial⟩

theorem Parts.reporting_endRun (b : BayId) : (Parts.reporting p q).EndRun b :=
  ⟨reporting_orders p q b, fun _ => trivial, trivial, trivial, trivial, reporting_soiling p q b, trivial⟩

theorem Parts.reporting_endClean (b : BayId) : (Parts.reporting p q).EndClean b :=
  ⟨reporting_orders p q b, fun _ => trivial, trivial, trivial, trivial⟩

theorem Parts.reporting_endTransfer (b : BayId) (c : Fin 4) : (Parts.reporting p q).EndTransfer b c :=
  ⟨reporting_orders p q b, fun _ => trivial, trivial, trivial, trivial, trivial, ⟨trivial, trivial⟩, trivial, trivial, trivial⟩

theorem Parts.reporting_endJob (b : BayId) : (Parts.reporting p q).EndJob b :=
  ⟨reporting_endRun p q b, reporting_endClean p q b, reporting_endTransfer p q b⟩

theorem Parts.reporting_cook (b : BayId) : (Parts.reporting p q).Cook b := ⟨reporting_endRun p q b, reporting_release p q b⟩

theorem Parts.reporting_wash (b : BayId) : (Parts.reporting p q).Wash b := ⟨reporting_endClean p q b, reporting_soiling p q b, reporting_release p q b⟩

theorem Parts.reporting_transfer (b : BayId) : (Parts.reporting p q).Transfer b := ⟨reporting_endTransfer p q b, reporting_release p q b⟩

theorem Parts.reporting_panel (b : BayId) : (Parts.reporting p q).Panel b := ⟨reporting_startRun p q b, reporting_startClean p q b⟩

end

/-- What the blocks leave of the demand, of the dose baseline and of the cabinet temperature, but for their own uses of them. -/
abbrev Parts.settled : Parts := Parts.reporting False False

/-! ## The Registry's use of a record (R9, R18) -/

/-- R9: the step check, once the record tells that it is made. -/
theorem stepCheck_after (b : BayId) (n : Nat) (s : State) :
    Touches .settled (s.setReg b (fun r => { r with stepCheck := false })) (stepCheck b n s) := by
  unfold stepCheck
  split
  · dsimp only
    split
    · exact .refl _
    · exact (Touches.refl _).placeSafe (Parts.reporting_orders _ _ b) trivial fun _ => trivial
  · next h =>
    have hsame : s.setReg b (fun r => { r with stepCheck := false }) = s := by
      have hreg : upd s.reg b (fun r => { r with stepCheck := false }) = s.reg := upd_self (by rw [Bool.not_eq_true] at h; rw [← h])
      exact congrArg (fun v : Vector RegBay 12 => { s with reg := v }) hreg
    rw [hsame]
    exact .refl s

/-- R18: the power state, once the record tells it. -/
theorem takePower_after (b : BayId) (p : Power) (s : State) : Touches .settled (s.setReg b (fun r => { r with power := p })) (takePower b p s) := by
  have hrel := Parts.reporting_release False False b
  unfold takePower
  split
  · next h =>
    have hsame : s.setReg b (fun r => { r with power := p }) = s := by
      have hreg : upd s.reg b (fun r => { r with power := p }) = s.reg := upd_self (by rw [← h])
      exact congrArg (fun v : Vector RegBay 12 => { s with reg := v }) hreg
    rw [hsame]
    exact .refl s
  · have hpower := (Touches.refl (m := .settled) (s.setReg b (fun r => { r with power := p }))).heatPower (b := b) hrel.start.heat hrel.start.recompute
    dsimp only
    split
    · exact ((hpower.runPowerOn ⟨trivial, trivial⟩ hrel.start.recompute).retryPasses hrel.pass none).cleanPowerOn hrel
    · exact hpower

/-- R9, R18: the Registry's record of a bay after the step check and the power state. -/
theorem checked_reg (b : BayId) (n : Nat) (p : Power) (s : State) : (takePower b p (stepCheck b n s)).reg[b] =
    { s.reg[b] with stepCheck := false, power := p, activity := (takePower b p (stepCheck b n s)).reg[b].activity } := by
  have hchecked := (stepCheck_after b n s).reg b id
  have hpowered := (takePower_after b p (stepCheck b n s)).reg b id
  rw [setReg_same] at hchecked hpowered
  rw [hpowered, hchecked]

/-- R9: what the step check and the power state keep of the line, and of what the bay's records have shown. -/
structure Checked (b : BayId) (s t : State) : Prop where
  misses : t.line.bays[b].misses = s.line.bays[b].misses
  sensed : t.clean[b].sensed = s.clean[b].sensed
  later : Later s t

theorem checked_keeps (b : BayId) (n : Nat) (p : Power) (s : State) : Checked b s (takePower b p (stepCheck b n s)) := by
  have hchecked := stepCheck_after b n s
  have hpowered := takePower_after b p (stepCheck b n s)
  have hfirst : Later s (stepCheck b n s) := Later.trans (t := s.setReg b (fun r => { r with stepCheck := false })) ⟨rfl, rfl, List.prefix_rfl, id⟩ hchecked.later
  have hmisses : (stepCheck b n s).line.bays[b].misses = s.line.bays[b].misses := hchecked.misses b id
  have hsensed : (stepCheck b n s).clean[b].sensed = s.clean[b].sensed := hchecked.sensed b id
  generalize stepCheck b n s = v at hpowered hfirst hmisses hsensed ⊢
  have hlast : Later v (takePower b p v) := Later.trans (t := v.setReg b (fun r => { r with power := p })) ⟨rfl, rfl, List.prefix_rfl, id⟩ hpowered.later
  exact ⟨(hpowered.misses b id).trans hmisses, (hpowered.sensed b id).trans hsensed, hfirst.trans hlast⟩

/-- R9: a step check that finds a step of no run places a SAFE ahead of all else. -/
theorem checked_safe {n : Nat} (hcheck : s.reg[b].stepCheck = true) (hn : n ≠ 0) (ht : takesOrders s b = true) (p : Power) :
    SafeAhead (takePower b p (stepCheck b n s)).line.bays[b].queue := by
  have hsafe : stepCheck b n s = placeSafe b (s.setReg b (fun r => { r with stepCheck := false })) := (if_pos hcheck).trans (if_neg hn)
  have htakes : takesOrders (s.setReg b (fun r => { r with stepCheck := false })) b = true := by
    rw [takesOrders_iff] at ht ⊢
    rw [setReg_same]
    exact ht
  obtain ⟨rest, hqueue, -⟩ := placeSafe_first htakes
  refine (takePower_after b p (stepCheck b n s)).first b id ?_
  show SafeAhead (stepCheck b n s).line.bays[b].queue
  rw [hsafe, hqueue]
  rfl

/-! ## The parts of a record -/

theorem takeDoses_sensed (b : BayId) (n : Nat) (s : State) : (takeDoses b n s).clean[b].sensed = (some n, s.clean[b].cabinet) := by
  cases h : s.clean[b].baseline with
  | none =>
    rw [takeDoses_of_none h, based_clean]
    rfl
  | some old =>
    by_cases hg : doseGrowth old n = 0
    · rw [takeDoses_of_still h hg, based_clean]
      rfl
    · rw [takeDoses_of_growth h hg, setHygiene_clean_same]
      exact congrArg CleanBay.sensed (dosed_bay b old n s)

theorem takeDemand_demand (b : BayId) (d : Bool) (s : State) : (takeDemand b d s).heat.bays[b].demand = d := by
  unfold takeDemand
  split
  · next h => exact h
  · refine (((Touches.refl (m := .settled) _).recompute (Parts.reporting_recompute _ _)).demand b id).trans ?_
    exact congrArg HeatBay.demand (upd_same ..)

/-- The record up to the Run Engine's use of it. -/
def cooked (b : BayId) (rep : Report) (s : State) : State := runRecord b rep (takeFault b rep.fault (takeMode b rep.service s))

/-- The record from the heater demand on. -/
def heated (b : BayId) (rep : Report) (s : State) : State := takeDoor b rep.doorOpen (takeDemand b rep.demand s)

/-- The panel request of a record. -/
def panelled (b : BayId) (panel : Option Nat) (s : State) : State :=
  match panel with
  | some i => servePanel b i s
  | none => s

theorem handParts_eq (b : BayId) (rep : Report) (s : State) : handParts b rep s = panelled b rep.panel (transferRecord b rep (cleanRecord b rep
    (heated b rep (cooked b rep (registryRecord b rep (keepLatest b rep s)))))) := by
  unfold handParts panelled heated cooked
  rfl

theorem cooked_touches (b : BayId) (rep : Report) (s : State) : Touches .settled s (cooked b rep s) :=
  (((Touches.refl s).takeMode trivial (Parts.reporting_endJob _ _ b) (Parts.reporting_release _ _ b) rep.service).takeFault ⟨trivial, trivial⟩ trivial
    rep.fault).runRecord (Parts.reporting_cook _ _ b) rep

theorem heated_touches (b : BayId) (rep : Report) (s : State) : Touches (.reporting True False) s (heated b rep s) :=
  ((Touches.refl s).takeDemand trivial (Parts.reporting_recompute _ _) rep.demand).takeDoor trivial trivial rep.doorOpen

theorem heated_demand (b : BayId) (rep : Report) (s : State) : (heated b rep s).heat.bays[b].demand = rep.demand :=
  (((Touches.refl (m := .settled) (takeDemand b rep.demand s)).takeDoor (b := b) trivial trivial rep.doorOpen).demand b id).trans (takeDemand_demand b rep.demand s)

theorem cleanRecord_touches (b : BayId) (rep : Report) (s : State) : Touches (.reporting False True) s (cleanRecord b rep s) :=
  (Touches.refl s).cleanRecord (Parts.reporting_wash _ _ b) rep

theorem cleanRecord_sensed (b : BayId) (rep : Report) (s : State) : (cleanRecord b rep s).clean[b].sensed = (some rep.dose, s.clean[b].cabinet) :=
  ((Touches.cleanRecord_of_doses (rep := rep) (Touches.refl (m := .settled) (takeDoses b rep.dose s)) (Parts.reporting_wash _ _ b)).sensed b id).trans
    (takeDoses_sensed b rep.dose s)

theorem panelled_touches (b : BayId) (panel : Option Nat) (s : State) : Touches .settled s (panelled b panel s) := by
  cases panel with
  | none => exact .refl s
  | some i => exact (Touches.refl s).servePanel (Parts.reporting_panel _ _ b) i

/-- R33: what a record leaves once its Registry's part is taken. -/
structure Handed (b : BayId) (rep : Report) (s t : State) : Prop where
  reg : t.reg[b] = { s.reg[b] with activity := t.reg[b].activity }
  misses : t.line.bays[b].misses = s.line.bays[b].misses
  demand : t.heat.bays[b].demand = rep.demand
  sensed : t.clean[b].sensed = (some rep.dose, s.clean[b].cabinet)
  first : SafeAhead s.line.bays[b].queue → SafeAhead t.line.bays[b].queue
  later : Later s t

/-- What every block keeps in the course of a record. -/
structure Kept (b : BayId) (s t : State) : Prop where
  reg : t.reg[b] = { s.reg[b] with activity := t.reg[b].activity }
  misses : t.line.bays[b].misses = s.line.bays[b].misses
  first : SafeAhead s.line.bays[b].queue → SafeAhead t.line.bays[b].queue
  later : Later s t

theorem Kept.of_touches {p q : Prop} (h : Touches (.reporting p q) s t) (b : BayId) : Kept b s t := ⟨h.reg b id, h.misses b id, h.first b id, h.later⟩

theorem Kept.trans (h : Kept b s t) (k : Kept b t u) : Kept b s u :=
  ⟨by rw [k.reg, h.reg], k.misses.trans h.misses, k.first ∘ h.first, h.later.trans k.later⟩

/-- R33: what the uses of a record leave, from the Service Monitor's on. -/
theorem used_handed (b : BayId) (rep : Report) (s t : State)
    (ht : t = panelled b rep.panel (transferRecord b rep (cleanRecord b rep (heated b rep (cooked b rep s))))) : Handed b rep s t := by
  have hcooked := cooked_touches b rep s
  generalize cooked b rep s = v1 at hcooked ht
  have hheated := heated_touches b rep v1
  have hdemand := heated_demand b rep v1
  generalize heated b rep v1 = v2 at hheated hdemand ht
  have hclean := cleanRecord_touches b rep v2
  have hsensed := cleanRecord_sensed b rep v2
  generalize cleanRecord b rep v2 = v3 at hclean hsensed ht
  have hlast : Touches .settled v3 t := by
    rw [ht]
    exact ((Touches.refl v3).transferRecord (Parts.reporting_transfer _ _ b) rep).trans (panelled_touches b rep.panel _)
  obtain ⟨hreg, hmisses, hfirst, hlater⟩ := (((Kept.of_touches hcooked b).trans (.of_touches hheated b)).trans (.of_touches hclean b)).trans (.of_touches hlast b)
  have hcabinet : v2.clean[b].cabinet = s.clean[b].cabinet :=
    congrArg Prod.snd ((hheated.sensed b id).trans (hcooked.sensed b id))
  refine ⟨hreg, hmisses, ?_, ?_, hfirst, hlater⟩
  · exact (hlast.demand b id).trans ((hclean.demand b id).trans hdemand)
  · exact (hlast.sensed b id).trans (hsensed.trans (by rw [hcabinet]))

end Sys2Proof.Machine


/-! PROOF. The status records of the ovens (O26). -/

namespace Sys2Proof.Machine
set_option Elab.async false

open Sys2Proof

variable {s : State} {b : BayId} {x : Exchange} {r : StatusBody}

/-! ## Acceptance (R31) -/

theorem removeOrder_queue (id : Nat) (hheld : s.line.bays[b].held = []) (hc : channelOf s b = none) :
    (removeOrder b id s).line.bays[b].queue = s.line.bays[b].queue.filter (fun o => decide (o.id ≠ id)) := by
  unfold removeOrder
  split
  · have hqueue : (s.setLine b (fun l => { l with queue := l.queue.filter (fun o => decide (o.id ≠ id)) })).line.bays[b] =
        { s.line.bays[b] with queue := s.line.bays[b].queue.filter (fun o => decide (o.id ≠ id)) } := upd_same ..
    have hchan : channelOf (s.setLine b (fun l => { l with queue := l.queue.filter (fun o => decide (o.id ≠ id)) })) b = none := hc
    generalize s.setLine b (fun l => { l with queue := l.queue.filter (fun o => decide (o.id ≠ id)) }) = t at hqueue hchan ⊢
    have hempty : t.line.bays[b].held = [] := by rw [hqueue]; exact hheld
    have hoffered : channelOf (offerHeld b t) b = none := by
      rw [offerHeld, hempty]
      exact hchan
    rw [reportSpace, flowBlocks, hoffered]
    dsimp only
    rw [offerHeld_of_none hempty, hqueue]
  · next hany =>
    refine (List.filter_eq_self.2 fun o ho => ?_).symm
    rw [decide_eq_true_eq]
    exact fun he => hany (List.any_eq_true.2 ⟨o, ho, decide_eq_true he⟩)

/-! ## The taking of a record (R23, R30) -/

/-- R27, R31: the bay's line once the record is a valid answer and its echo has accepted what it accepts. -/
def statusAccepted (x : Exchange) (r : StatusBody) (s : State) : State :=
  acceptOrders x.bay (acceptedBy x.carried r.echo) (takeAnswer x.bay s)

/-- R33: the parts of a record have been handed. -/
def statusHanded (x : Exchange) (r : StatusBody) (s : State) : State := handParts x.bay (correct r) (statusAccepted x r s)

theorem takeStatus_late (hx : s.line.exchange = some x) (h : ¬ x.inTime (1400 + r.gaps) s.now = true) : takeStatus r s = s := by
  unfold takeStatus
  rw [hx]
  refine if_pos ?_
  rw [show statusTime = 1400 from rfl]
  exact Bool.eq_false_of_not_eq_true h

theorem takeStatus_spoilt (hx : s.line.exchange = some x) (h : x.inTime (1400 + r.gaps) s.now = true) (hbad : r.malformed = true ∨ 34 * 1000 < r.gaps) :
    takeStatus r s = spoil s := by
  unfold takeStatus
  rw [hx]
  refine (if_neg ?_).trans (if_pos hbad)
  rw [show statusTime = 1400 from rfl, h]
  decide

theorem takeStatus_taken (hx : s.line.exchange = some x) (h : x.inTime (1400 + r.gaps) s.now = true) (hm : r.malformed = false) (hg : r.gaps ≤ 34 * 1000) :
    takeStatus r s = if s.reg[x.bay].state = .lost then statusHanded x r s else countPoll x.bay (statusHanded x r s) := by
  unfold takeStatus
  rw [hx]
  refine (if_neg ?_).trans ((if_neg ?_).trans ?_)
  · rw [show statusTime = 1400 from rfl, h]
    decide
  · rw [hm]
    exact fun hbad => hbad.elim nofun (not_lt.2 hg)
  · dsimp only
    rw [statusHanded, statusAccepted]
    simp only [decide_eq_true_eq]

/-! ## What the acceptance leaves -/

/-- What a valid answer's acceptances leave, as the blocks find it once the latest temperatures are kept. -/
structure StatusKept (x : Exchange) (r : StatusBody) (s t : State) : Prop where
  reg : t.reg[x.bay] = s.reg[x.bay]
  misses : t.line.bays[x.bay].misses = 0
  cabinet : t.clean[x.bay].cabinet = some (correct r).cabinet
  later : Later s t

theorem statusAccepted_exchange (hx : s.line.exchange = some x) (r : StatusBody) : (statusAccepted x r s).line.exchange = some { x with answer := .taken } := by
  have hcycle := (acceptOrders_touches x.bay (acceptedBy x.carried r.echo) (takeAnswer x.bay s)).cycle
  rw [statusAccepted, hcycle]
  exact takeAnswer_exchange hx

theorem keepLatest_answered (x : Exchange) (r : StatusBody) (s : State) :
    StatusKept x r s (keepLatest x.bay (correct r) (statusAccepted x r s)) := by
  have haccepted := acceptOrders_touches x.bay (acceptedBy x.carried r.echo) (takeAnswer x.bay s)
  have hreg : (statusAccepted x r s).reg[x.bay] = s.reg[x.bay] := haccepted.reg_same id id
  have hmisses : (statusAccepted x r s).line.bays[x.bay].misses = 0 := (haccepted.misses x.bay id).trans (takeAnswer_misses x.bay s)
  have hlater : Later s (statusAccepted x r s) := Later.trans (t := takeAnswer x.bay s) ⟨rfl, rfl, List.prefix_rfl, id⟩ haccepted.later
  generalize statusAccepted x r s = t at hreg hmisses hlater ⊢
  have hcabinet : (keepLatest x.bay (correct r) t).clean[x.bay].cabinet = some (correct r).cabinet := congrArg CleanBay.cabinet (upd_same ..)
  exact ⟨hreg, hmisses, hcabinet, hlater.trans ⟨rfl, rfl, List.prefix_rfl, id⟩⟩

theorem statusHanded_exchange (hx : s.line.exchange = some x) (r : StatusBody) : (statusHanded x r s).line.exchange = some { x with answer := .taken } := by
  have hcycle := ((Touches.refl (m := .all) (statusAccepted x r s)).handParts (Parts.all_record x.bay) (correct r)).cycle
  rw [statusHanded, hcycle]
  exact statusAccepted_exchange hx r

/-! ## The bay's state and the record (R7, R9, R11, R18) -/

theorem registryRecord_of_known (h : s.reg[b].state ≠ .lost) (rep : Report) :
    registryRecord b rep s = takePower b rep.power (stepCheck b rep.stepId s) := by
  rw [registryRecord, if_neg h]

theorem registryRecord_of_lost (h : s.reg[b].state = .lost) (rep : Report) :
    registryRecord b rep s = takePower b rep.power (stepCheck b rep.stepId (setBayState b .interrogating .answered s)) := by
  rw [registryRecord, if_pos h]

/-- R9, R18, R33: a record of a bay that is not LOST. -/
theorem statusHanded_known (h : s.reg[x.bay].state ≠ .lost) (t : State) (ht : t = statusHanded x r s) :
    t.reg[x.bay] = { s.reg[x.bay] with stepCheck := false, power := powerOf r.power, activity := t.reg[x.bay].activity } ∧
    t.line.bays[x.bay].misses = 0 ∧ t.heat.bays[x.bay].demand = r.demand ∧
    t.clean[x.bay].sensed = (some r.dose, some (min (max (-200) r.cabinet) 3200)) := by
  have hkept := keepLatest_answered x r s
  rw [statusHanded, handParts_eq] at ht
  generalize keepLatest x.bay (correct r) (statusAccepted x r s) = k at hkept ht
  rw [registryRecord_of_known (by rw [hkept.reg]; exact h)] at ht
  have hreg := checked_reg x.bay (correct r).stepId (correct r).power k
  have hline := checked_keeps x.bay (correct r).stepId (correct r).power k
  generalize takePower x.bay (correct r).power (stepCheck x.bay (correct r).stepId k) = v at hreg hline ht
  have hhanded := used_handed x.bay (correct r) v t ht
  have hcabinet : v.clean[x.bay].cabinet = some (correct r).cabinet := (congrArg Prod.snd hline.sensed).trans hkept.cabinet
  refine ⟨?_, hhanded.misses.trans (hline.misses.trans hkept.misses), hhanded.demand, hhanded.sensed.trans (by rw [hcabinet]; rfl)⟩
  rw [hhanded.reg, hreg, hkept.reg]
  rfl

/-- R11, R9: a record of a LOST bay. -/
theorem statusHanded_lost (h : s.reg[x.bay].state = .lost) (t : State) (ht : t = statusHanded x r s) :
    t.reg[x.bay] = { s.reg[x.bay] with
      state := .interrogating, pollCount := 0, stepCheck := false, power := powerOf r.power, activity := t.reg[x.bay].activity } ∧
    t.line.bays[x.bay].misses = 0 ∧ TellsBay s t x.bay .interrogating .answered ∧ (r.stepId ≠ 0 → SafeAhead t.line.bays[x.bay].queue) := by
  have hkept := keepLatest_answered x r s
  rw [statusHanded, handParts_eq] at ht
  generalize keepLatest x.bay (correct r) (statusAccepted x r s) = k at hkept ht
  have hlost : k.reg[x.bay].state = .lost := by rw [hkept.reg]; exact h
  have hne : k.reg[x.bay].state ≠ .interrogating := by rw [hlost]; nofun
  have htold := tells_setBayState hne .answered
  have hentered := setBayState_reg_interrogating hne .answered
  have hmisses := (setBayState_touches x.bay .interrogating .answered k).misses x.bay id
  rw [registryRecord_of_lost hlost] at ht
  generalize setBayState x.bay .interrogating .answered k = e at htold hentered hmisses ht
  have hreg := checked_reg x.bay (correct r).stepId (correct r).power e
  have hline := checked_keeps x.bay (correct r).stepId (correct r).power e
  have hsafe : r.stepId ≠ 0 → SafeAhead (takePower x.bay (correct r).power (stepCheck x.bay (correct r).stepId e)).line.bays[x.bay].queue := fun hn =>
    checked_safe (by rw [hentered]) hn ((takesOrders_iff e x.bay).2 (by rw [hentered]; exact ⟨nofun, nofun⟩)) _
  generalize takePower x.bay (correct r).power (stepCheck x.bay (correct r).stepId e) = v at hreg hline hsafe ht
  have hhanded := used_handed x.bay (correct r) v t ht
  refine ⟨?_, hhanded.misses.trans (hline.misses.trans (hmisses.trans hkept.misses)),
    (htold.since hkept.later).mono (hline.later.trans hhanded.later), fun hn => hhanded.first (hsafe hn)⟩
  rw [hhanded.reg, hreg, hentered, hkept.reg]
  rfl

/-! ## The obligation -/

/-- Settles O26. -/
theorem statusRecordsReachTheirOwners : Obligations.StatusRecordsReachTheirOwners := by
  refine ⟨fun o p echo => ⟨rfl, rfl, rfl⟩, fun s b id hheld hc => removeOrder_queue id hheld hc, ?_⟩
  intro s x r hrun hx rep u known used v
  have hon : s.phase ≠ .off := by rw [hrun]; decide
  have hv : v = statusHanded x r s := rfl
  have hin := x.inTime_iff (1400 + r.gaps) s.now
  clear_value v
  refine ⟨fun hlate => ?_, fun ha h1 h2 => ⟨fun hbad => ?_, fun hm hg => ?_⟩⟩
  · refine completes_whileOn hon rfl ?_
    rw [takeStatus_late hx (by rw [hin]; rintro ⟨h1, h2, h3⟩; exact hlate.elim (absurd h1) (by omega))]
    exact pump_sameButSending s
  · refine completes_whileOn hon rfl ?_
    rw [takeStatus_spoilt hx (hin.2 ⟨ha, by omega, by omega⟩) hbad, spoil_of_begun hx ha (by omega)]
    exact pump_sameButSending _
  have htaken := takeStatus_taken hx (hin.2 ⟨ha, by omega, by omega⟩) hm hg
  have hexchange := statusHanded_exchange hx r
  have hlost := fun h => statusHanded_lost (x := x) (r := r) (s := s) h _ rfl
  have hknown := fun h => statusHanded_known (x := x) (r := r) (s := s) h _ rfl
  rw [← hv] at htaken hexchange hlost hknown
  refine ⟨?_, fun hst => ?_, fun hst => ?_, fun hst hc => ?_⟩
  · refine completes_whileOn hon rfl ?_
    rw [htaken]
    exact pump_sameButSending _
  · obtain ⟨hreg, hmisses, hdemand, hsensed⟩ := hknown (by rw [hst]; nofun)
    have hready : v.reg[x.bay].state = .ready := by rw [hreg]; exact hst
    rw [if_neg (by rw [hst]; nofun), countPoll_of_other (by rw [hready]; nofun)] at htaken
    refine completes_event hon rfl fun tx sent => ?_
    rw [htaken]
    exact ⟨hexchange, hmisses, hready, by rw [hreg], by rw [hreg], hdemand, congrArg Prod.snd hsensed, congrArg Prod.fst hsensed⟩
  · obtain ⟨hreg, hmisses, htold, hsafe⟩ := hlost hst
    rw [if_pos hst] at htaken
    refine completes_event hon rfl fun tx sent => ?_
    rw [htaken]
    exact ⟨hexchange, hmisses, congrArg RegBay.state hreg, congrArg RegBay.pollCount hreg, congrArg RegBay.power hreg, congrArg RegBay.stepCheck hreg, htold, hsafe⟩
  · obtain ⟨hreg, -, -, -⟩ := hknown (by rw [hst]; nofun)
    have hint : v.reg[x.bay].state = .interrogating := by rw [hreg]; exact hst
    have hcount : v.reg[x.bay].pollCount = s.reg[x.bay].pollCount := by rw [hreg]
    rw [if_neg (by rw [hst]; nofun), countPoll_below hint (by rw [hcount]; exact hc)] at htaken
    have hpolled := setReg_same v x.bay fun g => { g with pollCount := g.pollCount + 1 }
    refine completes_event hon rfl fun tx sent => ?_
    rw [htaken]
    generalize v.setReg x.bay (fun g => { g with pollCount := g.pollCount + 1 }) = w at hpolled ⊢
    exact ⟨(congrArg RegBay.state hpolled).trans hint, (congrArg RegBay.pollCount hpolled).trans (congrArg (· + 1) hcount),
      (congrArg RegBay.power hpolled).trans (congrArg RegBay.power hreg)⟩

end Sys2Proof.Machine
